-- ==== Sys2Proof/Word.lean ====
section
/-! DEFINITION. The word types of the Glaromon G3: bytes, 32- and 64-bit words, vector and mask words, and the names of
the small closed sets the manual numbers (types, rounding modes, scopes, orders, conditions). -/
namespace Sys2Proof

abbrev Byte := BitVec 8
abbrev W32 := BitVec 32
abbrev Word := BitVec 64
/-- A vector register (R30). -/
abbrev VWord := BitVec 768
/-- A mask register (R31). -/
abbrev MWord := BitVec 96
/-- An instruction word (R72). -/
abbrev IWord := BitVec 96

/-- The type codes 0x00 to 0x10 of Table 2-6. -/
inductive Ty where
  | i64 | i32 | i16 | i8 | n64 | n32 | n16 | n8 | f | bf | h | e4m3 | e5m2 | e3m2 | e2m3 | q4 | s8
  deriving DecidableEq, Repr

/-- The rounding modes of Table 2-6 and R116. -/
inductive Rnd where
  | rne | rtz | rdn | rup | rna
  deriving DecidableEq, Repr

/-- The scopes of R53. -/
inductive Scope where
  | core | row | die | dev | sys
  deriving DecidableEq, Repr

/-- The order qualifiers of Table 2-6. -/
inductive Ord where
  | rlx | acq | rel | ar
  deriving DecidableEq, Repr

/-- The conditions of Table 4-3. -/
inductive Cond where
  | eq | ne | lt | le | gt | ge | un
  deriving DecidableEq, Repr

/-- The heat classes of R6. -/
inductive Heat where
  | still | breeze | gale
  deriving DecidableEq, Repr

/-- The four lane roles of R211. -/
inductive Role where
  | loc | src | fwd | fin
  deriving DecidableEq, Repr

end Sys2Proof
end

