-- ==== Sys2Proof/Syntax.lean ====
section
/-! DEFINITION. The syntax of the machine: operand forms, and `Instr`, one constructor for each row of the opcode table:
215 Ikinis instructions with an encoding, then the 127 events of the machine that have a rule and no word. The predicate
of an instruction word (R72) is no part of `Instr`: a decoded slot pairs it with one. -/
namespace Sys2Proof

/-- A scalar register source of Table 4-1: w0 to w31, g0 to g7, bc0 to bc3, lc0, lc1, or `zero`. -/
inductive SReg where
  | w (n : Fin 32) | g (n : Fin 8) | bc (n : Fin 4) | lc (n : Fin 2) | zero
  deriving DecidableEq, Repr

/-- A scalar source of the register form: a register or imm32 with its value (R74, R77). -/
inductive SSrc where
  | reg (r : SReg) | imm (v : W32)
  deriving DecidableEq, Repr

/-- A scalar destination of Table 4-1, or bc0 to bc3, which every thread lacks as a destination (R27, log 46). -/
inductive SDst where
  | w (n : Fin 32) | g (n : Fin 8) | bc (n : Fin 4) | lc (n : Fin 2) | zero
  deriving DecidableEq, Repr

/-- A source of mov: a scalar source or a link register (R432). -/
inductive MovSrc where
  | s (a : SSrc) | lnkw | lnke
  deriving DecidableEq, Repr

/-- A destination of mov: a scalar destination or a link register (R432). -/
inductive MovDst where
  | s (d : SDst) | lnkw | lnke
  deriving DecidableEq, Repr

/-- A register that can hold a future (R237). -/
inductive FReg where
  | w (n : Fin 32) | g (n : Fin 8)
  deriving DecidableEq, Repr

/-- A future destination: a w or g register, or `zero` (Table 6-2); or bc0 to bc3, which every thread lacks as a destination (R27,
log 46). -/
inductive FDst where
  | w (n : Fin 32) | g (n : Fin 8) | bc (n : Fin 4) | zero
  deriving DecidableEq, Repr

/-- A vector source (R168). -/
inductive VSrc where
  | v (n : Fin 64) | q (n : Fin 8) | zero
  deriving DecidableEq, Repr

/-- A broadcast source (R168): a vector register, a port, or a scalar source (`zero` is the scalar one). -/
inductive BSrc where
  | v (n : Fin 64) | q (n : Fin 8) | s (a : SSrc)
  deriving DecidableEq, Repr

/-- A vector destination (R168). -/
inductive VDst where
  | v (n : Fin 64) | q (n : Fin 8) | zero
  deriving DecidableEq, Repr

/-- The destination of a reduction: a scalar destination or a write port (Table 5-3). -/
inductive RDst where
  | s (d : SDst) | q (n : Fin 8)
  deriving DecidableEq, Repr

/-- The operand classes of pmov (R142). -/
inductive PmovOp where
  | pp (d a : Fin 8) | ps (d : Fin 8) (a : SSrc) | sp (d : SDst) (a : Fin 8)
  deriving DecidableEq, Repr

/-- A mask operand: m0 to m7, or none (R168). -/
abbrev Mask := Option (Fin 8)

/-- The target fields of the branch form (R80). -/
structure Tgt where
  off : BitVec 37
  slot : Fin 5
  deriving DecidableEq, Repr

/-- The source of the A blocks of a step (R215). -/
inductive MmaSrc where
  | feed | reg (v : Fin 64) | regs (v c : Fin 64)
  deriving DecidableEq, Repr

/-- The command fields of mma and mmas (Table 6-3); n and ng are the numbers less one. -/
structure MmaF where
  t : Ty
  slot : Fin 2
  half : Bool
  kb : Fin 8
  n1 : Fin 8
  rg : Fin 32
  ng1 : Fin 32
  both : Bool
  deriving DecidableEq, Repr

/-- The two shapes of hread (Table 7-7). -/
inductive HForm where
  | one | two (pitch : BitVec 36)
  deriving DecidableEq, Repr

/-- The base, index-free part of a memory-form operand: the base register and disp32 (R79). -/
structure MAddr where
  base : SReg
  disp : W32
  deriving DecidableEq, Repr

/-- Where firmware puts a tile task (R395): the die and logical corner of its rectangle, the physical corner, the first window
line, the slot mask, the pool minimums and caps (one byte a kind) and the save area. -/
structure Place where
  die : Nat
  lrow : Nat
  lcol : Nat
  pdie : Nat
  prow : Nat
  pcol : Nat
  base : Nat
  mask : Word
  mins : Word
  caps : Word
  save : Nat
  deriving DecidableEq, Repr

/-- The source of a write that reaches the IOD (R360, R456): a host function with its PASID, a network peer, or a context's
own thread. -/
inductive Src where
  | host (func pasid : Nat) | peer (addr ctx : Nat) | ctx (ctx : Nat)
  deriving DecidableEq, Repr

/-- A candidate for the operator seat (R488). -/
inductive Cand where
  | board | host | peer (addr : Nat)
  deriving DecidableEq, Repr

/-- What a network request addresses on the receiving device: a context, or the presentation slots (R466). -/
inductive NetDst where
  | ctx (n : Nat) | pres
  deriving DecidableEq, Repr

/-- The TDISP requests that move a TDI (R442). -/
inductive TdiReq where
  | lock | start | stop
  deriving DecidableEq, Repr

/-- A capture record (R493): stamp, task, logical row, die and column, kind, address or value, and payload. -/
structure CapRec where
  stamp : Nat
  task : Nat
  row : Nat
  die : Nat
  col : Nat
  kind : Nat
  addr : Nat
  data : List Byte
  deriving DecidableEq, Repr

/-- One constructor for each row of the opcode table. -/
inductive Instr where
  /-- R134: ADD. -/
  | add (t : Ty) (sat : Bool) (d : SDst) (a : SSrc) (b : SSrc)
  /-- R134: SUB. -/
  | sub (t : Ty) (sat : Bool) (d : SDst) (a : SSrc) (b : SSrc)
  /-- R134: MUL. -/
  | mul (t : Ty) (sat : Bool) (d : SDst) (a : SSrc) (b : SSrc)
  /-- R134: MULH. -/
  | mulh (t : Ty) (d : SDst) (a : SSrc) (b : SSrc)
  /-- R134: MADD. -/
  | madd (t : Ty) (sat : Bool) (d : SDst) (a : SSrc) (b : SSrc) (c : SSrc)
  /-- R135: DIV. -/
  | div (t : Ty) (sat : Bool) (d : SDst) (a : SSrc) (b : SSrc)
  /-- R135: REM. -/
  | rem (t : Ty) (d : SDst) (a : SSrc) (b : SSrc)
  /-- R134: ABS. -/
  | abs (t : Ty) (sat : Bool) (d : SDst) (a : SSrc)
  /-- R134: MIN. -/
  | min (t : Ty) (d : SDst) (a : SSrc) (b : SSrc)
  /-- R134: MAX. -/
  | max (t : Ty) (d : SDst) (a : SSrc) (b : SSrc)
  /-- R134: AND. -/
  | and (t : Ty) (d : SDst) (a : SSrc) (b : SSrc)
  /-- R134: OR. -/
  | or (t : Ty) (d : SDst) (a : SSrc) (b : SSrc)
  /-- R134: XOR. -/
  | xor (t : Ty) (d : SDst) (a : SSrc) (b : SSrc)
  /-- R134: ANDN. -/
  | andn (t : Ty) (d : SDst) (a : SSrc) (b : SSrc)
  /-- R136: SHL. -/
  | shl (t : Ty) (sat : Bool) (d : SDst) (a : SSrc) (b : SSrc)
  /-- R136: SHR. -/
  | shr (t : Ty) (d : SDst) (a : SSrc) (b : SSrc)
  /-- R136: SAR. -/
  | sar (t : Ty) (d : SDst) (a : SSrc) (b : SSrc)
  /-- R136: ROT. -/
  | rot (t : Ty) (d : SDst) (a : SSrc) (b : SSrc)
  /-- R136: CLZ. -/
  | clz (t : Ty) (d : SDst) (a : SSrc)
  /-- R136: CTZ. -/
  | ctz (t : Ty) (d : SDst) (a : SSrc)
  /-- R136: POPC. -/
  | popc (t : Ty) (d : SDst) (a : SSrc)
  /-- R136: BREV. -/
  | brev (t : Ty) (d : SDst) (a : SSrc)
  /-- R136: BSWAP. -/
  | bswap (t : Ty) (d : SDst) (a : SSrc)
  /-- R137: BEXT. -/
  | bext (t : Ty) (d : SDst) (a : SSrc) (b : SSrc)
  /-- R137: BINS. -/
  | bins (d : SDst) (a : SSrc) (b : SSrc) (c : SSrc)
  /-- R138: SEXT. -/
  | sext (t : Ty) (d : SDst) (a : SSrc)
  /-- R138: ZEXT. -/
  | zext (t : Ty) (d : SDst) (a : SSrc)
  /-- R138: MOV. -/
  | mov (t : Ty) (d : MovDst) (a : MovSrc)
  /-- R138: MOVI. -/
  | movi (d : SDst) (imm : Word)
  /-- R138: LEA. -/
  | lea (t : Ty) (d : SDst) (m : MAddr) (idx : Option SReg)
  /-- R141: SETC. -/
  | setc (cnd : Cond) (t : Ty) (d : SDst) (a : SSrc) (b : SSrc)
  /-- R139: CVT. -/
  | cvt (t : Ty) (u : Ty) (rnd : Rnd) (sat : Bool) (d : SDst) (a : SSrc)
  /-- R141: CMP. -/
  | cmp (cnd : Cond) (t : Ty) (d : Fin 8) (a : SSrc) (b : SSrc)
  /-- R142: PAND. -/
  | pand (na : Bool) (nb : Bool) (nr : Bool) (d : Fin 8) (a : Fin 8) (b : Fin 8)
  /-- R142: POR. -/
  | por (na : Bool) (nb : Bool) (nr : Bool) (d : Fin 8) (a : Fin 8) (b : Fin 8)
  /-- R142: PXOR. -/
  | pxor (na : Bool) (nb : Bool) (nr : Bool) (d : Fin 8) (a : Fin 8) (b : Fin 8)
  /-- R142: PMOV. -/
  | pmov (neg : Bool) (o : PmovOp)
  /-- R143: SEL. -/
  | sel (neg : Bool) (d : SDst) (a : SSrc) (b : SSrc) (p : Fin 8)
  /-- R146: BR. -/
  | br (tgt : Tgt)
  /-- R146: BRC. -/
  | brc (cnd : Cond) (t : Ty) (a : SReg) (b : SReg) (tgt : Tgt)
  /-- R146: BRI. -/
  | bri (a : SReg)
  /-- R147: CALL. -/
  | call (tgt : Tgt)
  /-- R147: CALLI. -/
  | calli (a : SReg)
  /-- R149: TCALL. -/
  | tcall (tgt : Tgt)
  /-- R148: RET. -/
  | ret
  /-- R155: LOOP. -/
  | loop (n : Fin 2) (a : SReg) (tgt : Tgt)
  /-- R157: LBRK. -/
  | lbrk (n : Fin 2)
  /-- R151: WSPILL. -/
  | wspill (a : SReg)
  /-- R152: WFILL. -/
  | wfill (a : SReg)
  /-- R159: EXIT. -/
  | exit
  /-- R160: NOP. -/
  | nop
  /-- R160: YIELD. -/
  | yield
  /-- R172: VADD. -/
  | vadd (t : Ty) (rnd : Rnd) (sat : Bool) (d : VDst) (a : VSrc) (b : BSrc) (m : Mask)
  /-- R172: VSUB. -/
  | vsub (t : Ty) (rnd : Rnd) (sat : Bool) (d : VDst) (a : VSrc) (b : BSrc) (m : Mask)
  /-- R172: VMUL. -/
  | vmul (t : Ty) (rnd : Rnd) (sat : Bool) (d : VDst) (a : VSrc) (b : BSrc) (m : Mask)
  /-- R172: VFMA. -/
  | vfma (t : Ty) (rnd : Rnd) (sat : Bool) (d : Fin 64) (a : VSrc) (b : BSrc) (m : Mask)
  /-- R172: VFMS. -/
  | vfms (t : Ty) (rnd : Rnd) (sat : Bool) (d : Fin 64) (a : VSrc) (b : BSrc) (m : Mask)
  /-- R172: VDIV. -/
  | vdiv (t : Ty) (rnd : Rnd) (sat : Bool) (d : VDst) (a : VSrc) (b : BSrc) (m : Mask)
  /-- R172: VSQRT. -/
  | vsqrt (t : Ty) (rnd : Rnd) (sat : Bool) (d : VDst) (a : VSrc) (m : Mask)
  /-- R172: VMIN. -/
  | vmin (t : Ty) (d : VDst) (a : VSrc) (b : BSrc) (m : Mask)
  /-- R172: VMAX. -/
  | vmax (t : Ty) (d : VDst) (a : VSrc) (b : BSrc) (m : Mask)
  /-- R172: VABS. -/
  | vabs (t : Ty) (sat : Bool) (d : VDst) (a : VSrc) (m : Mask)
  /-- R172: VNEG. -/
  | vneg (t : Ty) (sat : Bool) (d : VDst) (a : VSrc) (m : Mask)
  /-- R172: VAND. -/
  | vand (t : Ty) (d : VDst) (a : VSrc) (b : BSrc) (m : Mask)
  /-- R172: VOR. -/
  | vor (t : Ty) (d : VDst) (a : VSrc) (b : BSrc) (m : Mask)
  /-- R172: VXOR. -/
  | vxor (t : Ty) (d : VDst) (a : VSrc) (b : BSrc) (m : Mask)
  /-- R172: VSHL. -/
  | vshl (t : Ty) (sat : Bool) (d : VDst) (a : VSrc) (b : BSrc) (m : Mask)
  /-- R172: VSHR. -/
  | vshr (t : Ty) (d : VDst) (a : VSrc) (b : BSrc) (m : Mask)
  /-- R172: VSAR. -/
  | vsar (t : Ty) (d : VDst) (a : VSrc) (b : BSrc) (m : Mask)
  /-- R172: VRCP. -/
  | vrcp (t : Ty) (rnd : Rnd) (sat : Bool) (d : VDst) (a : VSrc) (m : Mask)
  /-- R172: VRSQ. -/
  | vrsq (t : Ty) (rnd : Rnd) (sat : Bool) (d : VDst) (a : VSrc) (m : Mask)
  /-- R172: VEXP2. -/
  | vexp2 (t : Ty) (rnd : Rnd) (sat : Bool) (d : VDst) (a : VSrc) (m : Mask)
  /-- R172: VLOG2. -/
  | vlog2 (t : Ty) (rnd : Rnd) (sat : Bool) (d : VDst) (a : VSrc) (m : Mask)
  /-- R174: VCMP. -/
  | vcmp (cnd : Cond) (t : Ty) (d : Fin 8) (a : VSrc) (b : BSrc) (m : Mask)
  /-- R175: VSEL. -/
  | vsel (t : Ty) (d : VDst) (a : VSrc) (b : BSrc) (m : Fin 8)
  /-- R175: VSHUF. -/
  | vshuf (t : Ty) (d : VDst) (a : VSrc) (b : VSrc) (m : Mask)
  /-- R175: VBCAST. -/
  | vbcast (t : Ty) (d : VDst) (a : BSrc) (m : Mask)
  /-- R175: VLANE_GET. -/
  | vlaneGet (t : Ty) (d : SDst) (a : VSrc) (b : SSrc)
  /-- R175: VLANE_PUT. -/
  | vlanePut (t : Ty) (d : VDst) (a : SSrc) (b : SSrc)
  /-- R175: VMOV. -/
  | vmov (t : Ty) (d : VDst) (a : VSrc) (m : Mask)
  /-- R176: VSUM. -/
  | vsum (acc : Bool) (t : Ty) (rnd : Rnd) (sat : Bool) (d : RDst) (a : VSrc) (m : Mask)
  /-- R176: VRMAX. -/
  | vrmax (acc : Bool) (t : Ty) (rnd : Rnd) (sat : Bool) (d : RDst) (a : VSrc) (m : Mask)
  /-- R176: VRMIN. -/
  | vrmin (acc : Bool) (t : Ty) (rnd : Rnd) (sat : Bool) (d : RDst) (a : VSrc) (m : Mask)
  /-- R176: VDOT. -/
  | vdot (acc : Bool) (t : Ty) (rnd : Rnd) (sat : Bool) (d : RDst) (a : VSrc) (b : VSrc) (m : Mask)
  /-- R177: VPACK. -/
  | vpack (lo : Fin 2) (hi : Fin 4) (d : VDst) (a : VSrc) (b : VSrc)
  /-- R177: VUNPK. -/
  | vunpk (part : Fin 6) (d : Fin 64) (a : VSrc)
  /-- R178: VCVT. -/
  | vcvt (part : Fin 16) (t : Ty) (u : Ty) (rnd : Rnd) (sat : Bool) (d : VDst) (a : VSrc)
  /-- R179: VQUANT. -/
  | vquant (pos : Fin 8) (t : Ty) (rnd : Rnd) (d : Fin 64) (a : VSrc) (b : SSrc) (c : FReg)
  /-- R181: LD. -/
  | ld (t : Ty) (rnd : Rnd) (sat : Bool) (sc : Scope) (ord : Ord) (d : SDst) (m : MAddr) (idx : Option SReg)
  /-- R182: ST. -/
  | st (t : Ty) (rnd : Rnd) (sat : Bool) (sc : Scope) (ord : Ord) (m : MAddr) (idx : Option SReg) (c : SReg)
  /-- R181: VLD. -/
  | vld (t : Ty) (rnd : Rnd) (sat : Bool) (sc : Scope) (ord : Ord) (d : VDst) (m : MAddr) (idx : Option SReg) (k : Mask)
  /-- R182: VST. -/
  | vst (t : Ty) (rnd : Rnd) (sat : Bool) (sc : Scope) (ord : Ord) (m : MAddr) (idx : Option SReg) (c : VSrc)
  /-- R183: VQST. -/
  | vqst (rnd : Rnd) (sc : Scope) (ord : Ord) (m : MAddr) (b : VSrc) (c : SReg)
  /-- R181: VGATH. -/
  | vgath (t : Ty) (rnd : Rnd) (sat : Bool) (sc : Scope) (ord : Ord) (d : VDst) (m : MAddr) (b : VSrc) (k : Mask)
  /-- R182: VSCAT. -/
  | vscat (t : Ty) (rnd : Rnd) (sat : Bool) (sc : Scope) (ord : Ord) (k : Mask) (m : MAddr) (b : VSrc) (c : VSrc)
  /-- R187: SBIND. -/
  | sbind (wr : Bool) (t : Ty) (rnd : Rnd) (sat : Bool) (sc : Scope) (d : Fin 8) (a : SSrc) (b : SSrc) (c : SSrc)
  /-- R190: SFREE. -/
  | sfree (q : Fin 8)
  /-- R190: SSEEK. -/
  | sseek (q : Fin 8) (b : SSrc) (c : SSrc)
  /-- R190: SSTAT_POS. -/
  | sstatPos (d : SDst) (q : Fin 8)
  /-- R190: SSTAT_CFG. -/
  | sstatCfg (d : SDst) (q : Fin 8)
  /-- R190: SSTAT_BASE. -/
  | sstatBase (d : SDst) (q : Fin 8)
  /-- R190: SFLUSH. -/
  | sflush (sc : Scope) (ord : Ord) (q : Fin 8)
  /-- R193: TLOOK. -/
  | tlook (d : SDst) (a : SSrc)
  /-- R193: TSET. -/
  | tset (a : SSrc) (b : SSrc) (c : SSrc)
  /-- R193: TINV_ENT. -/
  | tinvEnt (a : SSrc)
  /-- R193: TINV_TAG. -/
  | tinvTag (a : SSrc)
  /-- R193: TINV_ALL. -/
  | tinvAll
  /-- R209: MROW. -/
  | mrow (rows : Fin 3) (n1 : Fin 8) (ng1 : Fin 32) (d : FDst) (a : SReg) (b : SReg)
  /-- R207: MGEOM. -/
  | mgeom (unf : Bool) (attr : BitVec 11) (d : FDst) (a : SReg) (b : SReg) (c : SReg)
  /-- R213: MSLAB. -/
  | mslab (attr : BitVec 11) (slot : Fin 2) (cols1 : Fin 32) (d : FDst) (a : SReg) (b : SReg)
  /-- R215: MMA. -/
  | mma (src : MmaSrc) (f : MmaF) (d : FDst) (a : Fin 4)
  /-- R215: MMAS. -/
  | mmas (src : MmaSrc) (f : MmaF) (d : FDst) (a : Fin 4)
  /-- R217: MZERO. -/
  | mzero (rows1 : Fin 128) (wide : Bool) (d : FDst) (a : Fin 4)
  /-- R218: MREAD. -/
  | mread (row : Fin 128) (grp : Fin 3) (d : Fin 64) (a : Fin 4) (b : SReg)
  /-- R219: MWRITE. -/
  | mwrite (row : Fin 128) (grp : Fin 3) (d : FDst) (a : Fin 4) (b : Fin 64) (c : SReg)
  /-- R221: MQUANT. -/
  | mquant (t : Ty) (rnd : Rnd) (sat : Bool) (sc : Scope) (sbexp : BitVec 8) (d : FDst) (a : Fin 4) (b : SReg) (c : SReg)
  /-- R214: SKEEP. -/
  | skeep (d : FDst) (a : SReg) (b : SReg)
  /-- R214: MSCALE. -/
  | mscale (d : FDst) (a : SReg) (b : SReg)
  /-- R220: MMERGE. -/
  | mmerge (d : FDst) (a : Fin 4) (b : Fin 4)
  /-- R218: MTRANS. -/
  | mtrans (col : Fin 64) (grp : Fin 6) (d : Fin 64) (a : Fin 4) (b : SReg)
  /-- R211: MLINK. -/
  | mlink (role : Role) (d : FDst)
  /-- R222: MSTAT_ENG. -/
  | mstatEng (d : SDst)
  /-- R222: MSTAT_TILE. -/
  | mstatTile (d : SDst) (a : Fin 4)
  /-- R223: MWAIT. -/
  | mwait
  /-- R231: CPY_MEM. -/
  | cpyMem (comb : Bool) (sc : Scope) (d : FDst) (a : SReg) (b : SReg) (c : SReg)
  /-- R247: CPY_RING. -/
  | cpyRing (sc : Scope) (d : FDst) (k : Fin 16) (b : SReg) (c : SReg)
  /-- R231: CPY2D. -/
  | cpy2d (out : Bool) (comb : Bool) (sc : Scope) (rb1 : BitVec 20) (rows1 : BitVec 16) (d : FDst) (a : SReg) (b : SReg) (c : SReg)
  /-- R231: CPYG. -/
  | cpyg (sc : Scope) (e : Fin 10) (n1 : BitVec 16) (d : FDst) (a : SReg) (b : SReg) (c : SReg)
  /-- R231: CPYS. -/
  | cpys (sc : Scope) (e : Fin 10) (n1 : BitVec 16) (d : FDst) (a : SReg) (b : SReg) (c : SReg)
  /-- R231: CPYF. -/
  | cpyf (sc : Scope) (w : Fin 4) (d : FDst) (a : SReg) (b : SReg) (c : SReg)
  /-- R237: FWAIT. -/
  | fwait (d : SDst) (a : FReg)
  /-- R237: FTEST. -/
  | ftest (d : Fin 8) (a : FReg)
  /-- R239: FCANCEL. -/
  | fcancel (a : FReg)
  /-- R238: FPASS. -/
  | fpass (d : FDst) (a : FReg)
  /-- R237: FANY. -/
  | fany (d : SDst) (a : SSrc)
  /-- R241: KINIT_OWN. -/
  | kinitOwn (k : Fin 16) (a : SSrc) (b : SSrc)
  /-- R244: KINIT_PEER. -/
  | kinitPeer (k : Fin 16) (a : SSrc) (b : SSrc)
  /-- R242: KWAIT_FILL. -/
  | kwaitFill (d : SDst) (k : Fin 16) (b : SSrc)
  /-- R242: KWAIT_FREE. -/
  | kwaitFree (d : SDst) (k : Fin 16) (b : SSrc)
  /-- R245: KFREE. -/
  | kfree (k : Fin 16)
  /-- R242: KADV_FILL. -/
  | kadvFill (k : Fin 16) (b : SSrc)
  /-- R242: KADV_DRAIN. -/
  | kadvDrain (k : Fin 16) (b : SSrc)
  /-- R248: HREAD. -/
  | hread (v : HForm) (sc : Scope) (d : FDst) (a : SReg) (b : SReg) (c : SReg)
  /-- R252: HRET. -/
  | hret
  /-- R254: MSEND_Q. -/
  | msendQ (sc : Scope) (ord : Ord) (d : FDst) (a : SReg) (b : Fin 64)
  /-- R254: MSEND_DEP. -/
  | msendDep (sc : Scope) (ord : Ord) (g : Fin 8) (d : FDst) (a : SReg) (b : SReg)
  /-- R257: MSEND_SPEC. -/
  | msendSpec (sc : Scope) (ord : Ord) (d : FDst) (a : SReg) (b : Fin 64)
  /-- R257: MCOMMIT. -/
  | mcommit
  /-- R257: MABORT. -/
  | mabort
  /-- R258: MRECV_POP. -/
  | mrecvPop (sc : Scope) (ord : Ord) (d : Fin 64)
  /-- R258: MRECV_CNT. -/
  | mrecvCnt (d : SDst)
  /-- R259: AMO_ADD. -/
  | amoAdd (t : Ty) (sc : Scope) (ord : Ord) (d : SDst) (m : MAddr) (b : SReg)
  /-- R259: AMO_AND. -/
  | amoAnd (t : Ty) (sc : Scope) (ord : Ord) (d : SDst) (m : MAddr) (b : SReg)
  /-- R259: AMO_OR. -/
  | amoOr (t : Ty) (sc : Scope) (ord : Ord) (d : SDst) (m : MAddr) (b : SReg)
  /-- R259: AMO_XOR. -/
  | amoXor (t : Ty) (sc : Scope) (ord : Ord) (d : SDst) (m : MAddr) (b : SReg)
  /-- R259: AMO_MIN. -/
  | amoMin (t : Ty) (sc : Scope) (ord : Ord) (d : SDst) (m : MAddr) (b : SReg)
  /-- R259: AMO_MAX. -/
  | amoMax (t : Ty) (sc : Scope) (ord : Ord) (d : SDst) (m : MAddr) (b : SReg)
  /-- R259: AMO_SWAP. -/
  | amoSwap (t : Ty) (sc : Scope) (ord : Ord) (d : SDst) (m : MAddr) (b : SReg)
  /-- R259: AMO_FADD. -/
  | amoFadd (rnd : Rnd) (sc : Scope) (ord : Ord) (d : SDst) (m : MAddr) (b : SReg)
  /-- R259: CAS. -/
  | cas (t : Ty) (sc : Scope) (ord : Ord) (d : SDst) (m : MAddr) (b : SReg) (c : SReg)
  /-- R261: FENCE. -/
  | fence (sc : Scope) (ord : Ord)
  /-- R262: BARM. -/
  | barm (n : Fin 4) (a : SSrc)
  /-- R263: BARR. -/
  | barr (n : Fin 4) (sc : Scope) (d : FDst)
  /-- R263: BARW. -/
  | barw (n : Fin 4) (sc : Scope)
  /-- R266: WFE. -/
  | wfe
  /-- R267: SEV_CORE. -/
  | sevCore
  /-- R267: SEV_THR. -/
  | sevThr (a : SSrc)
  /-- R268: GANG. -/
  | gang (d : FDst) (a : SReg) (b : SReg)
  /-- R269: GDETACH. -/
  | gdetach
  /-- R269: GJOIN. -/
  | gjoin
  /-- R270: RLD. -/
  | rld (t : Ty) (sc : Scope) (ord : Ord) (d : SDst) (m : MAddr) (b : SReg)
  /-- R270: RST. -/
  | rst (t : Ty) (sc : Scope) (ord : Ord) (m : MAddr) (b : SReg) (c : SReg)
  /-- R271: NSEND. -/
  | nsend (spray : BitVec 8) (cls : Fin 8) (d : FDst) (a : SReg) (b : SReg)
  /-- R271: NPUT. -/
  | nput (ord : Ord) (spray : BitVec 8) (cls : Fin 8) (d : FDst) (a : SReg) (b : SReg) (c : SReg)
  /-- R271: NGET. -/
  | nget (ord : Ord) (spray : BitVec 8) (cls : Fin 8) (d : FDst) (a : SReg) (b : SReg) (c : SReg)
  /-- R272: NCOLL. -/
  | ncoll (spray : BitVec 8) (cls : Fin 8) (d : FDst) (a : SReg) (b : SReg)
  /-- R273: NSTAT_PKTS. -/
  | nstatPkts (d : SDst) (a : SSrc)
  /-- R273: NSTAT_MARKS. -/
  | nstatMarks (d : SDst) (a : SSrc)
  /-- R273: NSTAT_RETX. -/
  | nstatRetx (d : SDst) (a : SSrc)
  /-- R273: NSTAT_RTT. -/
  | nstatRtt (d : SDst) (a : SSrc)
  /-- R46: SYSR. -/
  | sysr (d : SDst) (a : SSrc)
  /-- R47: SYSW. -/
  | sysw (a : SSrc) (b : SSrc)
  /-- R283: TRET. -/
  | tret
  /-- R285: TRAP. -/
  | trap (a : SSrc)
  /-- R288: PHINT_PT. -/
  | phintPt (off : W32)
  /-- R288: PHINT_TEST. -/
  | phintTest (d : Fin 8)
  /-- R287: HEAT_ACK. -/
  | heatAck
  /-- R287: HEAT_CAP. -/
  | heatCap (a : SSrc)
  /-- R287: HEAT_UNCAP. -/
  | heatUncap
  /-- R296: WPRES. -/
  | wpres (d : FDst) (a : SSrc) (b : SSrc)
  /-- R296: WSPLIT. -/
  | wsplit (d : FDst) (a : SSrc) (b : SSrc)
  /-- R296: WDELEG. -/
  | wdeleg (d : FDst) (a : SSrc) (b : SSrc)
  /-- R297: WSURR. -/
  | wsurr (d : FDst) (a : SSrc)
  /-- R299: WQRY_STATE. -/
  | wqryState (d : SDst) (a : SSrc)
  /-- R299: WQRY_AMT. -/
  | wqryAmt (d : SDst) (a : SSrc)
  /-- R299: WQRY_USED. -/
  | wqryUsed (d : SDst) (a : SSrc)
  /-- R299: WQRY_SERIAL. -/
  | wqrySerial (d : SDst) (a : SSrc)
  /-- R299: WQRY_CTX. -/
  | wqryCtx (d : SDst) (a : SSrc)
  /-- R299: WQRY_ARG. -/
  | wqryArg (d : SDst) (a : SSrc)
  /-- R300: WTIME_LO. -/
  | wtimeLo (d : SDst)
  /-- R300: WTIME_HI. -/
  | wtimeHi (d : SDst)
  /-- R300: WTIME_AGE. -/
  | wtimeAge (d : SDst)
  /-- R303: XINV. -/
  | xinv (d : FDst) (a : SSrc) (b : SSrc)
  /-- R304: XPROBE. -/
  | xprobe (d : SDst) (a : SSrc)
  /-- R302: XMAP_NEW. -/
  | xmapNew (d : FDst) (a : SSrc) (b : SSrc) (c : SSrc)
  /-- R302: XMAP_ATTR. -/
  | xmapAttr (d : FDst) (a : SSrc) (b : SSrc) (c : SSrc)
  /-- R303: XUNMAP. -/
  | xunmap (d : FDst) (a : SSrc) (b : SSrc)
  /-- R305: SVSAVE. -/
  | svsave (d : FDst) (a : SSrc) (b : SSrc)
  /-- R305: SVLOAD. -/
  | svload (d : FDst) (a : SSrc) (b : SSrc)
  /-- R305: SVSIZE. -/
  | svsize (d : SDst) (a : SSrc)
  /-- R285: DBRK. -/
  | dbrk
  /-- R284: DSTEP. -/
  | dstep
  /-- R307: CMARK. -/
  | cmark (d : SDst) (a : SSrc)
  /-- R287: HNOTE. -/
  | hnote (d : SDst)
  /-- R307: IDLE. -/
  | idle
  /-- R286: HEAT_NOTICE_INTERRUPT. -/
  | heatNoticeInterrupt (core : Nat) (ctx : Nat) (thr : Nat)
  /-- R306: WARRANT_EVENT_INTERRUPT. -/
  | warrantEventInterrupt (core : Nat) (ctx : Nat) (thr : Nat)
  /-- R233: COPY_EXECUTION. -/
  | copyExecution (core : Nat) (ctx : Nat)
  /-- R233: COPY_COMPLETION. -/
  | copyCompletion (core : Nat) (ctx : Nat)
  /-- R247: RING_COPY_SLOT_CLAIM. -/
  | ringCopySlotClaim (core : Nat) (ctx : Nat)
  /-- R200: MATRIX_COMMAND_EXECUTION. -/
  | matrixCommandExecution (core : Nat)
  /-- R215: MATRIX_STEP. -/
  | matrixStep (core : Nat)
  /-- R201: MATRIX_COMMAND_COMPLETION. -/
  | matrixCommandCompletion (core : Nat)
  /-- R212: LANE_BLOCK_TRANSFER. -/
  | laneBlockTransfer (core : Nat)
  /-- R418: BURST_DELIVERY. -/
  | burstDelivery (core : Nat) (ctx : Nat) (tag : Nat) (n : Nat)
  /-- R419: EDDY_BIRTH. -/
  | eddyBirth (core : Nat)
  /-- R250: LAST_BURST_EVENT. -/
  | lastBurstEvent (core : Nat) (ctx : Nat) (tag : Nat)
  /-- R415: COMBINING_GROUP_CLOSE. -/
  | combiningGroupClose (row : Nat) (grp : Nat)
  /-- R416: MULTICAST. -/
  | multicast (row : Nat) (grp : Nat)
  /-- R436: MESSAGE. -/
  | message (k : Nat)
  /-- R436: REFUSE. -/
  | refuse (k : Nat)
  /-- R414: MAILBOX_DELIVERY. -/
  | mailboxDelivery (ctx : Nat)
  /-- R316: READ. -/
  | readReq (k : Nat)
  /-- R316: WRITE. -/
  | writeReq (k : Nat)
  /-- R260: ATOMIC. -/
  | atomicReq (k : Nat)
  /-- R261: PROBE. -/
  | probeReq (k : Nat)
  /-- R261: ECHO. -/
  | echoReq (k : Nat)
  /-- R412: DATA. -/
  | dataReq (k : Nat)
  /-- R412: ACK. -/
  | ackReq (k : Nat)
  /-- R433: LINK_WORD. -/
  | linkWord (k : Nat)
  /-- R437: BARRIER_ARRIVAL. -/
  | barrierArrival (k : Nat)
  /-- R264: BARRIER_RELEASE. -/
  | barrierRelease (k : Nat)
  /-- R438: GANG_FORWARD. -/
  | gangForward (k : Nat)
  /-- R440: WINDOW_UPDATE. -/
  | windowUpdate (k : Nat)
  /-- R331: WALK_COMPLETION. -/
  | walkCompletion (k : Nat)
  /-- R330: RETRY_LATCH_REISSUE. -/
  | retryLatchReissue (core : Nat) (ctx : Nat) (thr : Nat)
  /-- R337: STORAGE_READ_COMPLETION. -/
  | storageReadCompletion (k : Nat) (ok : Bool)
  /-- R339: STORAGE_EVICTION. -/
  | storageEviction
  /-- R338: STORAGE_LOST. -/
  | storageLost (drive : Nat)
  /-- R288: SWAP_OUT. -/
  | swapOut (ctx : Nat) (task : Nat)
  /-- R288: PREEMPTION_DEADLINE. -/
  | preemptionDeadline (ctx : Nat) (task : Nat)
  /-- R23: TASK_COMPLETION. -/
  | taskCompletion (ctx : Nat) (task : Nat)
  /-- R401: CORE_GOES_DARK. -/
  | coreGoesDark (core : Nat) (ctx : Nat)
  /-- R364: LAUNCH_END. -/
  | launchEnd (ctx : Nat)
  /-- R395: TASK_PLACEMENT. -/
  | taskPlacement (ctx : Nat) (task : Nat) (place : Place)
  /-- R297: CONTEXT_END. -/
  | contextEnd (ctx : Nat)
  /-- R370: RETIREMENT. -/
  | retirement (ctx : Nat)
  /-- R369: BOUND_UNPROVED. -/
  | boundUnproved (kslot : Nat)
  /-- R362: PRESENT. -/
  | present (slot : Nat)
  /-- R361: TIME_NONCE. -/
  | timeNonce (slot : Nat)
  /-- R368: TIME_NOTE. -/
  | timeNote (slot : Nat)
  /-- R374: RECEIPT_NONCE. -/
  | receiptNonce (slot : Nat)
  /-- R373: RECEIPT_REQUEST. -/
  | receiptRequest (slot : Nat)
  /-- R361: GRAPH_STATUS. -/
  | graphStatus (slot : Nat)
  /-- R360: SLOT_BINDING_LAPSE. -/
  | slotBindingLapse (slot : Nat)
  /-- R374: RECEIPT_NONCE_EXPIRY. -/
  | receiptNonceExpiry
  /-- R376: COMMIT_NOTE. -/
  | commitNote (kslot : Nat) (serial : Nat) (target : List Byte) (sig : List Byte)
  /-- R376: COMMIT_ACKNOWLEDGEMENT. -/
  | commitAcknowledgement (serial : Nat) (sig : List Byte)
  /-- R376: COMMIT_TIMEOUT. -/
  | commitTimeout (serial : Nat)
  /-- R376: RELEASE_NOTE. -/
  | releaseNote (kslot : Nat) (serial : Nat) (target : List Byte) (sig : List Byte)
  /-- R295: WARRANT_OPERATION_COMPLETION. -/
  | warrantOperationCompletion (k : Nat)
  /-- R388: BIND_START. -/
  | bindStart (die : Nat)
  /-- R388: BIND_RESUME. -/
  | bindResume (die : Nat)
  /-- R388: BIND_UNBIND. -/
  | bindUnbind (die : Nat)
  /-- R388: BIND_RECORD_APPLY. -/
  | bindRecordApply (k : Nat)
  /-- R16: REGISTER_WRITE. -/
  | registerWrite (addr : Nat) (val : Word)
  /-- R502: PWAKE. -/
  | pwake (die : Nat) (n : Nat)
  /-- R404: SENSOR_READING. -/
  | sensorReading (pcore : Nat) (temp : Nat)
  /-- R404: HEAT_ACTION. -/
  | heatAction (pcore : Nat)
  /-- R407: DRIFT. -/
  | drift (pcore : Nat)
  /-- R503: MODULE_POWER_SENSE. -/
  | modulePowerSense (watts : Nat)
  /-- R504: COLD_PLATE_ALARM. -/
  | coldPlateAlarm (outlet : Nat) (flow : Nat)
  /-- R498: ROW_VOLTAGE_REACHED. -/
  | rowVoltageReached (prow : Nat)
  /-- R441: RATIO_CHANGE. -/
  | ratioChange (pcore : Nat)
  /-- R500: WAKE. -/
  | wake (pcore : Nat)
  /-- R501: SWITCH_ON_COMPLETE. -/
  | switchOnComplete (pcore : Nat)
  /-- R499: HOLD_EXPIRY. -/
  | holdExpiry (pcore : Nat)
  /-- R400: LEE_BANK_RETENTION. -/
  | leeBankRetention (core : Nat) (bank : Nat)
  /-- R456: WAKE_WRITE. -/
  | wakeWrite (src : Src) (ctx : Nat) (q : Nat) (bytes : Nat) (val : Word)
  /-- R458: QUEUE_BIND. -/
  | queueBind (ctx : Nat) (q : Nat) (slot : Nat)
  /-- R458: QUEUE_UNMAP. -/
  | queueUnmap (ctx : Nat) (q : Nat)
  /-- R453: LOOK_AHEAD. -/
  | lookAhead (ctx : Nat) (q : Nat)
  /-- R453: LAUNCH. -/
  | launch (ctx : Nat) (q : Nat)
  /-- R444: MAP. -/
  | map (ctx : Nat) (q : Nat)
  /-- R453: UNMAP. -/
  | unmap (ctx : Nat) (q : Nat)
  /-- R453: CALL_PACKET. -/
  | callPacket (ctx : Nat) (q : Nat)
  /-- R454: JOIN. -/
  | join (ctx : Nat) (q : Nat)
  /-- R455: SIGNAL. -/
  | signal (ctx : Nat) (q : Nat)
  /-- R455: PACKET_COMPLETION. -/
  | packetCompletion (ctx : Nat) (q : Nat)
  /-- R445: ATS_TRANSLATION_RESPONSE. -/
  | atsTranslationResponse (func : Nat) (pasid : Nat) (iova : Nat) (rd : Bool) (wr : Bool)
  /-- R445: PRG_RESPONSE. -/
  | prgResponse (func : Nat) (pasid : Nat) (iova : Nat) (ok : Bool)
  /-- R445: PAGE_REQUEST_TIMEOUT. -/
  | pageRequestTimeout (func : Nat) (pasid : Nat) (iova : Nat)
  /-- R446: INVALIDATE_REQUEST. -/
  | invalidateRequest (func : Nat) (pasid : Nat) (iova : Nat) (pages : Nat)
  /-- R448: TDI_LEAVES_RUN. -/
  | tdiLeavesRun (func : Nat)
  /-- R506: CONVENTIONAL_RESET. -/
  | conventionalReset
  /-- R506: FUNCTION_LEVEL_RESET. -/
  | functionLevelReset (func : Nat)
  /-- R487: SPDM_MEASUREMENTS. -/
  | spdmMeasurements (cand : Cand)
  /-- R469: PUT_PLACEMENT. -/
  | putPlacement (peer : Nat) (peerCtx : Nat) (dst : NetDst) (off : Nat) (rel : Bool) (data : List Byte)
  /-- R351: SEND_PLACEMENT. -/
  | sendPlacement (peer : Nat) (peerCtx : Nat) (ctx : Nat) (q : Nat) (data : List Byte)
  /-- R469: GET_SERVICE. -/
  | getService (peer : Nat) (peerCtx : Nat) (dst : NetDst) (off : Nat) (acq : Bool) (len : Nat)
  /-- R468: NETWORK_ACKNOWLEDGEMENT. -/
  | networkAcknowledgement (tag : Nat) (path : Nat) (off : Nat) (ecn : Bool) (rtt : Nat) (credit : Option Nat) (data : List Byte)
  /-- R468: PACKET_LOSS. -/
  | packetLoss (tag : Nat) (path : Nat) (off : Nat)
  /-- R470: COLLECTIVE_PARTIAL. -/
  | collectivePartial (tag : Nat) (slice : Nat) (hdr : Nat) (data : List Byte)
  /-- R271: NETWORK_COMMAND_COMPLETION. -/
  | networkCommandCompletion (tag : Nat) (refused : Bool)
  /-- R472: FRAME. -/
  | frame (port : Nat) (pn : Nat) (assoc : Nat) (icvOk : Bool) (spdm : Bool)
  /-- R472: REKEY. -/
  | rekey (port : Nat)
  /-- R489: CLAIM. -/
  | claim (cand : Cand) (cert : List Byte) (sig : List Byte)
  /-- R489: ELECTION_CLOSE. -/
  | electionClose
  /-- R490: HANDOVER. -/
  | handover (cand : Cand) (succ : List Byte)
  /-- R490: HANDOVER_TIMEOUT. -/
  | handoverTimeout
  /-- R490: SESSION_TIMEOUT. -/
  | sessionTimeout (cand : Cand)
  /-- R490: RELEASE. -/
  | release (cand : Cand)
  /-- R354: KEY_LOAD. -/
  | keyLoad (cand : Cand) (slot : Nat) (key : List Byte)
  /-- R354: KEY_UNLOAD. -/
  | keyUnload (cand : Cand) (slot : Nat)
  /-- R488: OWNER_SET. -/
  | ownerSet (cand : Cand) (fp : List Byte)
  /-- R490: CONFIG. -/
  | config (cand : Cand) (v : Nat) (p : Nat) (tr : Nat) (tt : Nat) (td : Nat) (staging : Nat)
  /-- R490: DRIVE. -/
  | drive (cand : Cand) (mask : BitVec 8)
  /-- R486: FW_LOAD. -/
  | fwLoad (cand : Cand) (ver : Nat) (img : List Byte) (key : List Byte) (sig : List Byte)
  /-- R486: FW_COMMIT. -/
  | fwCommit (cand : Cand)
  /-- R492: CAPTURE. -/
  | capture (cand : Cand) (kslot : Nat) (on : Bool)
  /-- R492: CAPTURE_READ. -/
  | captureRead (cand : Cand) (ctx : Nat)
  /-- R495: REPLAY. -/
  | replay (cand : Cand) (slot : Nat) (stream : List CapRec)
  /-- R490: STATUS. -/
  | status (cand : Cand)
  /-- R505: POWER_GOOD. -/
  | powerGood
  /-- R505: MODULE_RESET. -/
  | moduleReset
  /-- R339: STORAGE_WRITE_COMPLETION. -/
  | storageWriteCompletion (k : Nat)
  /-- R379: ROTATION_PERIOD. -/
  | rotationPeriod
  /-- R447: TDISP_REQUEST. -/
  | tdispRequest (func : Nat) (req : TdiReq)
  /-- R442: IDE_KM_MESSAGE. -/
  | ideKmMessage (func : Nat)
  /-- R488: SPDM_SESSION. -/
  | spdmSession (cand : Cand) (cert : List Byte)
  /-- R360: PRESENTATION_SLOT_WRITE. -/
  | presentationSlotWrite (src : Src) (slot : Nat) (off : Nat) (data : List Byte)
  /-- R495: REPLAY_INPUT. -/
  | replayInput (ctx : Nat)
  deriving DecidableEq, Repr

end Sys2Proof
end

