-- ==== Sys2Proof/WellFormed.lean ====
section
/-! DEFINITION. Well-formedness of an instruction as syntax: the type sets, order codes, ranges and operand rules that the
encoding cannot break without raising a decode trap (R74 to R81 and the entries). An instruction that is not well formed has
no word; `encode` (Sys2Proof/Decode.lean) gives a word to every well-formed encoded instruction. -/
namespace Sys2Proof

namespace Ty
/-- The integer types .i64 to .n8. -/
def isInt : Ty → Bool
  | .i64 | .i32 | .i16 | .i8 | .n64 | .n32 | .n16 | .n8 => true
  | _ => false
/-- The signed integer types. -/
def isSigned : Ty → Bool
  | .i64 | .i32 | .i16 | .i8 => true
  | _ => false
/-- .f, .bf and .h. -/
def isFlt : Ty → Bool
  | .f | .bf | .h => true
  | _ => false
/-- The types of the lane-wise group (R171). -/
def isArith (t : Ty) : Bool := t.isInt || t.isFlt
/-- The types of moves, loads, stores and ports: codes 0x00 to 0x0C (R171, R180, R187). -/
def isMove (t : Ty) : Bool := t.isArith || t == .e4m3 || t == .e5m2
/-- The block formats of vquant (R179). -/
def isBlock : Ty → Bool
  | .q4 | .e4m3 | .e5m2 | .e3m2 | .e2m3 => true
  | _ => false
/-- The A types of mma and mmas (R205). -/
def isA (t : Ty) : Bool := t.isBlock || t == .bf || t == .h
/-- The integer types of an atomic (R259). -/
def isAtomic : Ty → Bool
  | .i64 | .i32 | .n64 | .n32 => true
  | _ => false
/-- Width in bits (Table 3-1, Table 3-2, R139). -/
def width : Ty → Nat
  | .i64 | .n64 => 64
  | .i32 | .n32 | .f => 32
  | .i16 | .n16 | .bf | .h => 16
  | .i8 | .n8 | .e4m3 | .e5m2 | .s8 => 8
  | .e3m2 | .e2m3 => 6
  | .q4 => 4
/-- Lanes of a vector register as vcvt counts them (R168, R178). -/
def lanes : Ty → Nat
  | .q4 => 192
  | .e3m2 | .e2m3 => 96
  | t => 768 / t.width
end Ty

/-- The imm32 value of the first source that names imm32. -/
def immOf : List SSrc → Option W32
  | [] => none
  | .imm v :: _ => some v
  | .reg _ :: l => immOf l

/-- Every source that names imm32 reads the same value (R74). -/
def immAgree (l : List SSrc) : Bool :=
  l.all fun s => match s with | .imm v => some v == immOf l | .reg _ => true

/-- A port destination requires the mask none (R169). -/
def portMask (d : VDst) (m : Mask) : Bool := match d with | .q _ => m == none | _ => true

/-- At an integer type the round field must be .rne (R172). -/
def intRne (t : Ty) (r : Rnd) : Bool := !t.isInt || r == .rne

def loadOrd (o : Ord) : Bool := o == .rlx || o == .acq
def storeOrd (o : Ord) : Bool := o == .rlx || o == .rel

/-- Reduction rules of R176: an integer reduction carries .sat, .acc needs a w or g register, a port takes no mask. -/
def redOk (acc : Bool) (t : Ty) (sat : Bool) (d : RDst) (m : Mask) : Bool :=
  t.isArith && (!t.isInt || sat) &&
    match d with
    | .s (.w _) | .s (.g _) => true
    | .s _ => !acc
    | .q _ => !acc && m == none

/-- A format attribute without a reserved code (R109, R205): fmt at most 0x10 and scale not 3. -/
def attrCodes (a : BitVec 11) : Bool := (a.extractLsb' 6 5).toNat ≤ 0x10 && (a.extractLsb' 0 2) != 3

def mmaOk (f : MmaF) : Bool :=
  f.t.isA && f.kb.val + f.n1.val + 1 ≤ 8 && f.rg.val + f.ng1.val + 1 ≤ 32

/-- The parts of vcvt (R178): fn below max(lanes T, lanes U) / min. -/
def vcvtParts (t u : Ty) : Nat := max t.lanes u.lanes / min t.lanes u.lanes

/-- The syntactic conditions of each instruction; an event of the machine has none. -/
def Instr.wf : Instr → Bool
  | .add t _ _ a b => t.isInt && immAgree [a, b]
  | .sub t _ _ a b => t.isInt && immAgree [a, b]
  | .mul t _ _ a b => t.isInt && immAgree [a, b]
  | .mulh t _ a b => t.isInt && immAgree [a, b]
  | .madd t _ _ a b c => t.isInt && immAgree [a, b, c]
  | .div t _ _ a b => t.isInt && immAgree [a, b]
  | .rem t _ a b => t.isInt && immAgree [a, b]
  | .abs t _ _ _ => t.isSigned
  | .min t _ a b => t.isInt && immAgree [a, b]
  | .max t _ a b => t.isInt && immAgree [a, b]
  | .and t _ a b => t.isInt && immAgree [a, b]
  | .or t _ a b => t.isInt && immAgree [a, b]
  | .xor t _ a b => t.isInt && immAgree [a, b]
  | .andn t _ a b => t.isInt && immAgree [a, b]
  | .shl t _ _ a b => t.isInt && immAgree [a, b]
  | .shr t _ a b => t.isInt && immAgree [a, b]
  | .sar t _ a b => t.isInt && immAgree [a, b]
  | .rot t _ a b => t.isInt && immAgree [a, b]
  | .clz t _ _ => t.isInt
  | .ctz t _ _ => t.isInt
  | .popc t _ _ => t.isInt
  | .brev t _ _ => t.isInt
  | .bswap t _ _ => t.isInt
  | .bext t _ a b => (t == .i64 || t == .n64) && immAgree [a, b]
  | .bins _ a b c => immAgree [a, b, c]
  | .sext t _ _ => t == .i32 || t == .i16 || t == .i8
  | .zext t _ _ => t == .n32 || t == .n16 || t == .n8
  | .mov t _ _ => t.isInt
  | .movi _ _ => true
  | .lea t _ _ _ => t.isInt
  | .setc cnd t _ a b => t.isInt && cnd != .un && immAgree [a, b]
  | .cvt t u _ _ _ a => t != .s8 && (match a with | .imm _ => u.isInt || u == .f | .reg _ => true)
  | .cmp cnd t _ a b => t.isArith && (cnd != .un || t.isFlt) && immAgree [a, b]
  | .pand _ _ _ _ _ _ => true
  | .por _ _ _ _ _ _ => true
  | .pxor _ _ _ _ _ _ => true
  | .pmov _ _ => true
  | .sel _ _ a b _ => immAgree [a, b]
  | .br _ => true
  | .brc cnd t _ _ _ => t.isInt && cnd != .un
  | .bri _ => true
  | .call _ => true
  | .calli _ => true
  | .tcall _ => true
  | .ret => true
  | .loop _ _ _ => true
  | .lbrk _ => true
  | .wspill _ => true
  | .wfill _ => true
  | .exit => true
  | .nop => true
  | .yield => true
  | .vadd t rnd _ d _ _ m => t.isArith && intRne t rnd && portMask d m
  | .vsub t rnd _ d _ _ m => t.isArith && intRne t rnd && portMask d m
  | .vmul t rnd _ d _ _ m => t.isArith && intRne t rnd && portMask d m
  | .vfma t rnd _ _ _ _ _ => t.isArith && intRne t rnd
  | .vfms t rnd _ _ _ _ _ => t.isArith && intRne t rnd
  | .vdiv t _ _ d _ _ m => t.isFlt && portMask d m
  | .vsqrt t _ _ d _ m => t.isFlt && portMask d m
  | .vmin t d _ _ m => t.isArith && portMask d m
  | .vmax t d _ _ m => t.isArith && portMask d m
  | .vabs t _ d _ m => t.isArith && portMask d m
  | .vneg t _ d _ m => t.isArith && portMask d m
  | .vand t d _ _ m => t.isInt && portMask d m
  | .vor t d _ _ m => t.isInt && portMask d m
  | .vxor t d _ _ m => t.isInt && portMask d m
  | .vshl t _ d _ _ m => t.isInt && portMask d m
  | .vshr t d _ _ m => t.isInt && portMask d m
  | .vsar t d _ _ m => t.isInt && portMask d m
  | .vrcp t _ _ d _ m => t.isFlt && portMask d m
  | .vrsq t _ _ d _ m => t.isFlt && portMask d m
  | .vexp2 t _ _ d _ m => t.isFlt && portMask d m
  | .vlog2 t _ _ d _ m => t.isFlt && portMask d m
  | .vcmp cnd t _ _ _ _ => t.isArith && (cnd != .un || t.isFlt)
  | .vsel t d _ _ m => t.isMove && portMask d (some m)
  | .vshuf t d _ _ m => t.isMove && portMask d m
  | .vbcast t d _ m => t.isMove && portMask d m
  | .vlaneGet t _ _ _ => t.isMove
  | .vlanePut t _ a b => t.isMove && immAgree [a, b]
  | .vmov t d _ m => t.isMove && portMask d m
  | .vsum acc t _ sat d _ m => redOk acc t sat d m
  | .vrmax acc t _ sat d _ m => redOk acc t sat d m
  | .vrmin acc t _ sat d _ m => redOk acc t sat d m
  | .vdot acc t _ sat d _ _ m => redOk acc t sat d m
  | .vpack _ _ _ _ _ => true
  | .vunpk _ _ _ => true
  | .vcvt part t u _ _ _ _ => t != .s8 && u != .s8 && part.val < vcvtParts t u
  | .vquant pos t _ _ _ _ _ => t.isBlock && (t == .q4 || pos.val < 4)
  | .ld t _ _ _ ord _ _ _ => t.isMove && loadOrd ord
  | .st t _ _ _ ord _ _ _ => t.isMove && storeOrd ord
  | .vld t _ _ _ ord d _ _ k => t.isMove && loadOrd ord && portMask d k
  | .vst t _ _ _ ord _ _ _ => t.isMove && storeOrd ord
  | .vqst _ _ ord _ _ _ => storeOrd ord
  | .vgath t _ _ _ ord d _ _ k => t.isMove && loadOrd ord && portMask d k
  | .vscat t _ _ _ ord _ _ _ _ => t.isMove && storeOrd ord
  | .sbind _ t _ _ _ _ a b c => t.isMove && immAgree [a, b, c]
  | .sfree _ => true
  | .sseek _ b c => immAgree [b, c]
  | .sstatPos _ _ => true
  | .sstatCfg _ _ => true
  | .sstatBase _ _ => true
  | .sflush _ _ _ => true
  | .tlook _ _ => true
  | .tset a b c => immAgree [a, b, c]
  | .tinvEnt _ => true
  | .tinvTag _ => true
  | .tinvAll => true
  | .mrow _ _ _ _ _ _ => true
  | .mgeom _ attr _ _ _ _ => attrCodes attr
  | .mslab attr _ _ _ _ _ => attrCodes attr
  | .mma _ f _ _ => mmaOk f
  | .mmas _ f _ _ => mmaOk f
  | .mzero _ _ _ _ => true
  | .mread _ _ _ _ _ => true
  | .mwrite _ _ _ _ _ _ => true
  | .mquant t _ _ _ sbexp _ _ _ _ => t.isMove && sbexp != -128#8 && sbexp != -127#8
  | .skeep _ _ _ => true
  | .mscale _ _ _ => true
  | .mmerge _ _ _ => true
  | .mtrans _ _ _ _ _ => true
  | .mlink _ _ => true
  | .mstatEng _ => true
  | .mstatTile _ _ => true
  | .mwait => true
  | .cpyMem _ _ _ _ _ _ => true
  | .cpyRing _ _ _ _ _ => true
  | .cpy2d out comb _ _ _ _ _ _ _ => !(out && comb)
  | .cpyg _ _ _ _ _ _ _ => true
  | .cpys _ _ _ _ _ _ _ => true
  | .cpyf _ _ _ _ _ _ => true
  | .fwait _ _ => true
  | .ftest _ _ => true
  | .fcancel _ => true
  | .fpass _ _ => true
  | .fany _ _ => true
  | .kinitOwn _ a b => immAgree [a, b]
  | .kinitPeer _ a b => immAgree [a, b]
  | .kwaitFill _ _ _ => true
  | .kwaitFree _ _ _ => true
  | .kfree _ => true
  | .kadvFill _ _ => true
  | .kadvDrain _ _ => true
  | .hread _ _ _ _ _ _ => true
  | .hret => true
  | .msendQ _ ord _ _ _ => storeOrd ord
  | .msendDep _ ord _ _ _ _ => storeOrd ord
  | .msendSpec _ ord _ _ _ => storeOrd ord
  | .mcommit => true
  | .mabort => true
  | .mrecvPop _ ord _ => loadOrd ord
  | .mrecvCnt _ => true
  | .amoAdd t _ _ _ _ _ => t.isAtomic
  | .amoAnd t _ _ _ _ _ => t.isAtomic
  | .amoOr t _ _ _ _ _ => t.isAtomic
  | .amoXor t _ _ _ _ _ => t.isAtomic
  | .amoMin t _ _ _ _ _ => t.isAtomic
  | .amoMax t _ _ _ _ _ => t.isAtomic
  | .amoSwap t _ _ _ _ _ => t.isAtomic
  | .amoFadd _ _ _ _ _ _ => true
  | .cas t _ _ _ _ _ _ => t.isAtomic
  | .fence _ ord => ord != .rlx
  | .barm _ _ => true
  | .barr _ _ _ => true
  | .barw _ _ => true
  | .wfe => true
  | .sevCore => true
  | .sevThr _ => true
  | .gang _ _ _ => true
  | .gdetach => true
  | .gjoin => true
  | .rld t _ ord _ _ _ => t.isArith && loadOrd ord
  | .rst t _ ord _ _ _ => t.isArith && storeOrd ord
  | .nsend _ _ _ _ _ => true
  | .nput ord _ _ _ _ _ _ => storeOrd ord
  | .nget ord _ _ _ _ _ _ => loadOrd ord
  | .ncoll _ _ _ _ _ => true
  | .nstatPkts _ _ => true
  | .nstatMarks _ _ => true
  | .nstatRetx _ _ => true
  | .nstatRtt _ _ => true
  | .sysr _ _ => true
  | .sysw a b => immAgree [a, b]
  | .tret => true
  | .trap _ => true
  | .phintPt _ => true
  | .phintTest _ => true
  | .heatAck => true
  | .heatCap _ => true
  | .heatUncap => true
  | .wpres _ a b => immAgree [a, b]
  | .wsplit _ a b => immAgree [a, b]
  | .wdeleg _ a b => immAgree [a, b]
  | .wsurr _ _ => true
  | .wqryState _ _ => true
  | .wqryAmt _ _ => true
  | .wqryUsed _ _ => true
  | .wqrySerial _ _ => true
  | .wqryCtx _ _ => true
  | .wqryArg _ _ => true
  | .wtimeLo _ => true
  | .wtimeHi _ => true
  | .wtimeAge _ => true
  | .xinv _ a b => immAgree [a, b]
  | .xprobe _ _ => true
  | .xmapNew _ a b c => immAgree [a, b, c]
  | .xmapAttr _ a b c => immAgree [a, b, c]
  | .xunmap _ a b => immAgree [a, b]
  | .svsave _ a b => immAgree [a, b]
  | .svload _ a b => immAgree [a, b]
  | .svsize _ _ => true
  | .dbrk => true
  | .dstep => true
  | .cmark _ _ => true
  | .hnote _ => true
  | .idle => true
  | .heatNoticeInterrupt _ _ _ => true
  | .warrantEventInterrupt _ _ _ => true
  | .copyExecution _ _ => true
  | .copyCompletion _ _ => true
  | .ringCopySlotClaim _ _ => true
  | .matrixCommandExecution _ => true
  | .matrixStep _ => true
  | .matrixCommandCompletion _ => true
  | .laneBlockTransfer _ => true
  | .burstDelivery _ _ _ _ => true
  | .eddyBirth _ => true
  | .lastBurstEvent _ _ _ => true
  | .combiningGroupClose _ _ => true
  | .multicast _ _ => true
  | .message _ => true
  | .refuse _ => true
  | .mailboxDelivery _ => true
  | .readReq _ => true
  | .writeReq _ => true
  | .atomicReq _ => true
  | .probeReq _ => true
  | .echoReq _ => true
  | .dataReq _ => true
  | .ackReq _ => true
  | .linkWord _ => true
  | .barrierArrival _ => true
  | .barrierRelease _ => true
  | .gangForward _ => true
  | .windowUpdate _ => true
  | .walkCompletion _ => true
  | .retryLatchReissue _ _ _ => true
  | .storageReadCompletion _ _ => true
  | .storageEviction => true
  | .storageLost _ => true
  | .swapOut _ _ => true
  | .preemptionDeadline _ _ => true
  | .taskCompletion _ _ => true
  | .coreGoesDark _ _ => true
  | .launchEnd _ => true
  | .taskPlacement _ _ _ => true
  | .contextEnd _ => true
  | .retirement _ => true
  | .boundUnproved _ => true
  | .present _ => true
  | .timeNonce _ => true
  | .timeNote _ => true
  | .receiptNonce _ => true
  | .receiptRequest _ => true
  | .graphStatus _ => true
  | .slotBindingLapse _ => true
  | .receiptNonceExpiry => true
  | .commitNote _ _ _ _ => true
  | .commitAcknowledgement _ _ => true
  | .commitTimeout _ => true
  | .releaseNote _ _ _ _ => true
  | .warrantOperationCompletion _ => true
  | .bindStart _ => true
  | .bindResume _ => true
  | .bindUnbind _ => true
  | .bindRecordApply _ => true
  | .registerWrite _ _ => true
  | .pwake _ _ => true
  | .sensorReading _ _ => true
  | .heatAction _ => true
  | .drift _ => true
  | .modulePowerSense _ => true
  | .coldPlateAlarm _ _ => true
  | .rowVoltageReached _ => true
  | .ratioChange _ => true
  | .wake _ => true
  | .switchOnComplete _ => true
  | .holdExpiry _ => true
  | .leeBankRetention _ _ => true
  | .wakeWrite _ _ _ _ _ => true
  | .queueBind _ _ _ => true
  | .queueUnmap _ _ => true
  | .lookAhead _ _ => true
  | .launch _ _ => true
  | .map _ _ => true
  | .unmap _ _ => true
  | .callPacket _ _ => true
  | .join _ _ => true
  | .signal _ _ => true
  | .packetCompletion _ _ => true
  | .atsTranslationResponse _ _ _ _ _ => true
  | .prgResponse _ _ _ _ => true
  | .pageRequestTimeout _ _ _ => true
  | .invalidateRequest _ _ _ _ => true
  | .tdiLeavesRun _ => true
  | .conventionalReset => true
  | .functionLevelReset _ => true
  | .spdmMeasurements _ => true
  | .putPlacement _ _ _ _ _ _ => true
  | .sendPlacement _ _ _ _ _ => true
  | .getService _ _ _ _ _ _ => true
  | .networkAcknowledgement _ _ _ _ _ _ _ => true
  | .packetLoss _ _ _ => true
  | .collectivePartial _ _ _ _ => true
  | .networkCommandCompletion _ _ => true
  | .frame _ _ _ _ _ => true
  | .rekey _ => true
  | .claim _ _ _ => true
  | .electionClose => true
  | .handover _ _ => true
  | .handoverTimeout => true
  | .sessionTimeout _ => true
  | .release _ => true
  | .keyLoad _ _ _ => true
  | .keyUnload _ _ => true
  | .ownerSet _ _ => true
  | .config _ _ _ _ _ _ _ => true
  | .drive _ _ => true
  | .fwLoad _ _ _ _ _ => true
  | .fwCommit _ => true
  | .capture _ _ _ => true
  | .captureRead _ _ => true
  | .replay _ _ _ => true
  | .status _ => true
  | .powerGood => true
  | .moduleReset => true
  | .storageWriteCompletion _ => true
  | .rotationPeriod => true
  | .tdispRequest _ _ => true
  | .ideKmMessage _ => true
  | .spdmSession _ _ => true
  | .presentationSlotWrite _ _ _ _ => true
  | .replayInput _ => true

end Sys2Proof
end

