-- ==== Sys2Proof/Decode.lean ====
section
/-! DEFINITION. The instruction word (R72 to R85): its fields, the decoder, total on every 96-bit word and rejecting by the
name of the check that fails, in the order of R85 steps 4 to 7, and the encoder, written from the same tables. -/
namespace Sys2Proof

/-- The fields of an instruction word (Table 2-4). -/
structure Raw where
  op : BitVec 8
  fn : BitVec 4
  pn : Bool
  pr : Fin 8
  d : BitVec 8
  a : BitVec 8
  b : BitVec 8
  c : BitVec 8
  x : BitVec 48
  deriving DecidableEq, Repr

def Raw.ofWord (w : IWord) : Raw where
  op := w.extractLsb' 88 8
  fn := w.extractLsb' 84 4
  pn := w.getLsbD 83
  pr := (w.extractLsb' 80 3).toFin
  d := w.extractLsb' 72 8
  a := w.extractLsb' 64 8
  b := w.extractLsb' 56 8
  c := w.extractLsb' 48 8
  x := w.extractLsb' 0 48

def Raw.toWord (r : Raw) : IWord :=
  r.op ++ r.fn ++ BitVec.ofBool r.pn ++ BitVec.ofFin (w := 3) r.pr ++ r.d ++ r.a ++ r.b ++ r.c ++ r.x

/-- The check of R85 that a word fails: steps 4 (op), 5 (fn), 6 (specifier at a position) and 7 (x). -/
inductive DecErr where
  | opcode (op : BitVec 8)
  | function (op : BitVec 8) (fn : BitVec 4)
  | operand (pos : Fin 4) (spec : BitVec 8)
  | field (x : BitVec 48)
  deriving DecidableEq, Repr

/-- Trap cause codes of Table 2-10. -/
def DecErr.cause : DecErr → BitVec 16
  | .opcode _ => 0x0013
  | .function _ _ => 0x0014
  | .operand _ _ => 0x0015
  | .field _ => 0x0016

/-- tval of Table 2-10. -/
def DecErr.tval : DecErr → Word
  | .opcode op => op.setWidth 64
  | .function op fn => (op.setWidth 64 <<< 8) ||| fn.setWidth 64
  | .operand p s => (BitVec.ofNat 64 p.val <<< 8) ||| s.setWidth 64
  | .field x => x.setWidth 64

abbrev Dec := Except DecErr

/-- The unit classes of Table 2-3. -/
inductive UClass where
  | int | ctl | vec | mem | mat | asy | sys
  deriving DecidableEq, Repr

/-- The unit class of a major opcode; none where Table 2-9 leaves it unassigned. -/
def uclass (op : BitVec 8) : Option UClass :=
  let n := op.toNat
  if 0x01 ≤ n ∧ n ≤ 0x26 then some .int
  else if 0x28 ≤ n ∧ n ≤ 0x35 then some .ctl
  else if 0x40 ≤ n ∧ n ≤ 0x62 then some .vec
  else if 0x63 ≤ n ∧ n ≤ 0x71 then some .mem
  else if 0x80 ≤ n ∧ n ≤ 0x8F then some .mat
  else if 0x90 ≤ n ∧ n ≤ 0xB5 then some .asy
  else if 0xC0 ≤ n ∧ n ≤ 0xD7 then some .sys
  else none

/-! ### Codes of the qualifier word (Table 2-6) -/

def Ty.code : Ty → BitVec 5
  | .i64 => 0 | .i32 => 1 | .i16 => 2 | .i8 => 3 | .n64 => 4 | .n32 => 5 | .n16 => 6 | .n8 => 7
  | .f => 8 | .bf => 9 | .h => 10 | .e4m3 => 11 | .e5m2 => 12 | .e3m2 => 13 | .e2m3 => 14 | .q4 => 15 | .s8 => 16

def Ty.ofCode (c : Nat) : Option Ty :=
  match c with
  | 0 => some .i64 | 1 => some .i32 | 2 => some .i16 | 3 => some .i8
  | 4 => some .n64 | 5 => some .n32 | 6 => some .n16 | 7 => some .n8
  | 8 => some .f | 9 => some .bf | 10 => some .h | 11 => some .e4m3 | 12 => some .e5m2
  | 13 => some .e3m2 | 14 => some .e2m3 | 15 => some .q4 | 16 => some .s8
  | _ => none

def Rnd.code : Rnd → BitVec 3
  | .rne => 0 | .rtz => 1 | .rdn => 2 | .rup => 3 | .rna => 4

def Rnd.ofCode (c : Nat) : Option Rnd :=
  match c with
  | 0 => some .rne | 1 => some .rtz | 2 => some .rdn | 3 => some .rup | 4 => some .rna
  | _ => none

def Scope.code : Scope → BitVec 3
  | .core => 0 | .row => 1 | .die => 2 | .dev => 3 | .sys => 4

def Scope.ofCode (c : Nat) : Option Scope :=
  match c with
  | 0 => some .core | 1 => some .row | 2 => some .die | 3 => some .dev | 4 => some .sys
  | _ => none

def Ord.code : Ord → BitVec 2
  | .rlx => 0 | .acq => 1 | .rel => 2 | .ar => 3

def Ord.ofCode (c : BitVec 2) : Ord :=
  match c.toNat with
  | 0 => .rlx | 1 => .acq | 2 => .rel | _ => .ar

def Cond.code : Cond → BitVec 4
  | .eq => 0 | .ne => 1 | .lt => 2 | .le => 3 | .gt => 4 | .ge => 5 | .un => 6

def Cond.ofCode (c : Nat) : Option Cond :=
  match c with
  | 0 => some .eq | 1 => some .ne | 2 => some .lt | 3 => some .le | 4 => some .gt | 5 => some .ge | 6 => some .un
  | _ => none

def Role.code : Role → BitVec 4
  | .loc => 0 | .src => 1 | .fwd => 2 | .fin => 3

def Role.ofCode (c : Nat) : Option Role :=
  match c with
  | 0 => some .loc | 1 => some .src | 2 => some .fwd | 3 => some .fin
  | _ => none

/-! ### Specifiers (Table 2-5) -/

/-- The number of a specifier within a range of `k` specifiers from `lo`. -/
def inRange (lo k : Nat) (s : BitVec 8) : Option (Fin k) :=
  if h : lo ≤ s.toNat ∧ s.toNat - lo < k then some ⟨s.toNat - lo, h.2⟩ else none

def specOf {k : Nat} (lo : Nat) (n : Fin k) : BitVec 8 := BitVec.ofNat 8 (lo + n.val)

def zeroSpec : BitVec 8 := 0x38
def immSpec : BitVec 8 := 0x39
def noneSpec : BitVec 8 := 0xFF

def SReg.of (s : BitVec 8) : Option SReg :=
  (inRange 0 32 s).map .w <|> (inRange 0x20 8 s).map .g <|> (inRange 0x28 4 s).map .bc
    <|> (inRange 0x2C 2 s).map .lc <|> (if s = zeroSpec then some .zero else none)

def SReg.spec : SReg → BitVec 8
  | .w n => specOf 0 n | .g n => specOf 0x20 n | .bc n => specOf 0x28 n | .lc n => specOf 0x2C n | .zero => zeroSpec

def SSrc.of (imm : W32) (s : BitVec 8) : Option SSrc :=
  if s = immSpec then some (.imm imm) else (SReg.of s).map .reg

def SSrc.spec : SSrc → BitVec 8
  | .reg r => r.spec | .imm _ => immSpec

def SDst.of (s : BitVec 8) : Option SDst :=
  (inRange 0 32 s).map .w <|> (inRange 0x20 8 s).map .g <|> (inRange 0x28 4 s).map .bc
    <|> (inRange 0x2C 2 s).map .lc <|> (if s = zeroSpec then some .zero else none)

def SDst.spec : SDst → BitVec 8
  | .w n => specOf 0 n | .g n => specOf 0x20 n | .bc n => specOf 0x28 n | .lc n => specOf 0x2C n | .zero => zeroSpec

def MovSrc.of (imm : W32) (s : BitVec 8) : Option MovSrc :=
  if s = 0xA8 then some .lnkw else if s = 0xA9 then some .lnke else (SSrc.of imm s).map .s

def MovSrc.spec : MovSrc → BitVec 8
  | .s a => a.spec | .lnkw => 0xA8 | .lnke => 0xA9

def MovDst.of (s : BitVec 8) : Option MovDst :=
  if s = 0xA8 then some .lnkw else if s = 0xA9 then some .lnke else (SDst.of s).map .s

def MovDst.spec : MovDst → BitVec 8
  | .s d => d.spec | .lnkw => 0xA8 | .lnke => 0xA9

def FReg.of (s : BitVec 8) : Option FReg := (inRange 0 32 s).map .w <|> (inRange 0x20 8 s).map .g

def FReg.spec : FReg → BitVec 8
  | .w n => specOf 0 n | .g n => specOf 0x20 n

def FDst.of (s : BitVec 8) : Option FDst :=
  (inRange 0 32 s).map .w <|> (inRange 0x20 8 s).map .g <|> (inRange 0x28 4 s).map .bc
    <|> (if s = zeroSpec then some .zero else none)

def FDst.spec : FDst → BitVec 8
  | .w n => specOf 0 n | .g n => specOf 0x20 n | .bc n => specOf 0x28 n | .zero => zeroSpec

def vReg (s : BitVec 8) : Option (Fin 64) := inRange 0x40 64 s
def qReg (s : BitVec 8) : Option (Fin 8) := inRange 0x80 8 s
def kReg (s : BitVec 8) : Option (Fin 16) := inRange 0x90 16 s
def tReg (s : BitVec 8) : Option (Fin 4) := inRange 0xA0 4 s
def mReg (s : BitVec 8) : Option (Fin 8) := inRange 0xB0 8 s
def pReg (s : BitVec 8) : Option (Fin 8) := inRange 0xB8 8 s

def VSrc.of (s : BitVec 8) : Option VSrc :=
  (vReg s).map .v <|> (qReg s).map .q <|> (if s = zeroSpec then some .zero else none)

def VSrc.spec : VSrc → BitVec 8
  | .v n => specOf 0x40 n | .q n => specOf 0x80 n | .zero => zeroSpec

def BSrc.of (imm : W32) (s : BitVec 8) : Option BSrc :=
  (vReg s).map .v <|> (qReg s).map .q <|> (SSrc.of imm s).map .s

def BSrc.spec : BSrc → BitVec 8
  | .v n => specOf 0x40 n | .q n => specOf 0x80 n | .s a => a.spec

def VDst.of (s : BitVec 8) : Option VDst :=
  (vReg s).map .v <|> (qReg s).map .q <|> (if s = zeroSpec then some .zero else none)

def VDst.spec : VDst → BitVec 8
  | .v n => specOf 0x40 n | .q n => specOf 0x80 n | .zero => zeroSpec

def RDst.of (s : BitVec 8) : Option RDst := (qReg s).map .q <|> (SDst.of s).map .s

def RDst.spec : RDst → BitVec 8
  | .s d => d.spec | .q n => specOf 0x80 n

def maskOf (s : BitVec 8) : Option Mask := if s = noneSpec then some none else (mReg s).map some

def maskSpec : Mask → BitVec 8
  | none => noneSpec | some n => specOf 0xB0 n

def optSRegOf (s : BitVec 8) : Option (Option SReg) := if s = noneSpec then some none else (SReg.of s).map some

def optSRegSpec : Option SReg → BitVec 8
  | none => noneSpec | some r => r.spec

def isNone (s : BitVec 8) : Option Unit := if s = noneSpec then some () else none

/-! ### Reading the fields of one word -/

/-- x[31:0]: imm32 of the register form, disp32 of the memory form. -/
def Raw.low (r : Raw) : W32 := r.x.extractLsb' 0 32

/-- Step 6 of R85 at one operand position. -/
def at_ {α : Type} (p : Fin 4) (s : BitVec 8) (f : BitVec 8 → Option α) : Dec α :=
  match f s with
  | some v => .ok v
  | none => .error (.operand p s)

def badField {α : Type} (r : Raw) : Dec α := .error (.field r.x)
def badFn {α : Type} (r : Raw) : Dec α := .error (.function r.op r.fn)

/-- Step 7: a condition on the x field. -/
def xOk (r : Raw) (b : Bool) : Dec Unit := if b then .ok () else badField r

/-- fn below `k` (R83). -/
def fnOf (k : Nat) (r : Raw) : Dec (Fin k) :=
  if h : r.fn.toNat < k then .ok ⟨r.fn.toNat, h⟩ else badFn r

/-- fn names a condition of Table 4-3 below code `k`. -/
def condOf (k : Nat) (r : Raw) : Dec Cond :=
  match Cond.ofCode r.fn.toNat with
  | some c => if r.fn.toNat < k then .ok c else badFn r
  | none => badFn r

/-- What an entry lets stand in the qualifier word; an unused field allows its zero code alone (R76). -/
structure QUse where
  ty : Ty → Bool := (· == .i64)
  rnd : Bool := false
  sat : Bool := false
  sc : Bool := false
  ord : Ord → Bool := (· == .rlx)

/-- A qualifier word read by Table 2-6. -/
structure Qual where
  t : Ty
  rnd : Rnd
  sat : Bool
  sc : Scope
  ord : Ord
  deriving DecidableEq, Repr

/-- The qualifier word with x[31:0] (R75). -/
def Qual.x (q : Qual) (low : W32) : BitVec 48 :=
  q.t.code ++ q.rnd.code ++ BitVec.ofBool q.sat ++ q.sc.code ++ q.ord.code ++ 0#2 ++ low

/-- The qualifier word under an entry's use of it; none is an illegal field (R76). -/
def readQual (x : BitVec 48) (u : QUse) : Option Qual :=
  match Ty.ofCode (x.extractLsb' 43 5).toNat, Rnd.ofCode (x.extractLsb' 40 3).toNat,
      Scope.ofCode (x.extractLsb' 36 3).toNat with
  | some t, some r, some sc =>
    let sat := x.getLsbD 39
    let o := Ord.ofCode (x.extractLsb' 34 2)
    if u.ty t && (u.rnd || r == .rne) && (u.sat || !sat) && (u.sc || sc == .core) && u.ord o
        && x.extractLsb' 32 2 == 0 then some ⟨t, r, sat, sc, o⟩ else none
  | _, _, _ => none

/-- Step 7 of the register form: the qualifier word, and x[31:0] zero unless a source names imm32 (R77). -/
def regX (r : Raw) (u : QUse) : Dec Qual :=
  match readQual r.x u with
  | some q =>
    if r.a = immSpec ∨ r.b = immSpec ∨ r.c = immSpec ∨ r.low = 0 then .ok q else badField r
  | none => badField r

/-- Step 7 of the memory form: the qualifier word; x[31:0] is disp32 (R79). -/
def memX (r : Raw) (u : QUse) : Dec Qual :=
  match readQual r.x u with
  | some q => .ok q
  | none => badField r

/-- Step 7 of the branch form (R80). -/
def branchX (r : Raw) (ty : Ty → Bool) : Dec (Ty × Tgt) :=
  match Ty.ofCode (r.x.extractLsb' 43 5).toNat with
  | some t =>
    if h : (r.x.extractLsb' 0 3).toNat < 5 then
      if ty t && r.x.extractLsb' 40 3 == 0 then .ok (t, ⟨r.x.extractLsb' 3 37, ⟨_, h⟩⟩) else badField r
    else badField r
  | none => badField r

def Tgt.x (t : Ty) (g : Tgt) : BitVec 48 := t.code ++ 0#3 ++ g.off ++ BitVec.ofNat 3 g.slot.val

/-- The bits of x from `lo`, `k` of them, as a number. -/
def xf (r : Raw) (lo k : Nat) : Nat := (r.x.extractLsb' lo k).toNat

def xFin (r : Raw) (lo k n : Nat) : Dec (Fin n) :=
  if h : xf r lo k < n then .ok ⟨xf r lo k, h⟩ else badField r

/-- Engine form: bits of x outside `m` must be zero (R81). -/
def engX (r : Raw) (m : BitVec 48) : Dec Unit := xOk r (r.x &&& ~~~m == 0)

def scopeX (r : Raw) : Dec Scope :=
  match Scope.ofCode (xf r 36 3) with
  | some s => .ok s
  | none => badField r

def ordX (r : Raw) (ok : Ord → Bool) : Dec Ord :=
  let o := Ord.ofCode (r.x.extractLsb' 34 2)
  if ok o then .ok o else badField r

def tyX (r : Raw) (ok : Ty → Bool) : Dec Ty :=
  match Ty.ofCode (xf r 43 5) with
  | some t => if ok t then .ok t else badField r
  | none => badField r

/-- A mask at position c; a port in d requires none (R169). -/
def maskC (r : Raw) (d : VDst) : Dec Mask := do
  let m ← at_ 3 r.c maskOf
  if portMask d m then pure m else .error (.operand 3 r.c)

/-! ### Shapes shared by several entries -/

section shapes
variable (r : Raw)

/-- D ← S, S with a type and, where used, sat (Table 4-2). -/
def dss (u : QUse) (mk : Qual → SDst → SSrc → SSrc → Instr) : Dec Instr := do
  let _ ← fnOf 1 r
  let d ← at_ 0 r.d SDst.of
  let a ← at_ 1 r.a (SSrc.of r.low)
  let b ← at_ 2 r.b (SSrc.of r.low)
  let _ ← at_ 3 r.c isNone
  let q ← regX r u
  pure (mk q d a b)

/-- D ← S, S, S. -/
def dsss (u : QUse) (mk : Qual → SDst → SSrc → SSrc → SSrc → Instr) : Dec Instr := do
  let _ ← fnOf 1 r
  let d ← at_ 0 r.d SDst.of
  let a ← at_ 1 r.a (SSrc.of r.low)
  let b ← at_ 2 r.b (SSrc.of r.low)
  let c ← at_ 3 r.c (SSrc.of r.low)
  let q ← regX r u
  pure (mk q d a b c)

/-- D ← S. -/
def ds (k : Nat) (u : QUse) (mk : Qual → SDst → SSrc → Instr) : Dec Instr := do
  let _ ← fnOf k r
  let d ← at_ 0 r.d SDst.of
  let a ← at_ 1 r.a (SSrc.of r.low)
  let _ ← at_ 2 r.b isNone
  let _ ← at_ 3 r.c isNone
  let q ← regX r u
  pure (mk q d a)

/-- No operand and no qualifier. -/
def bare (i : Instr) : Dec Instr := do
  let _ ← fnOf 1 r
  let _ ← at_ 0 r.d isNone
  let _ ← at_ 1 r.a isNone
  let _ ← at_ 2 r.b isNone
  let _ ← at_ 3 r.c isNone
  let _ ← regX r {}
  pure i

/-- Predicate logic (R142). -/
def ppp (mk : Bool → Bool → Bool → Fin 8 → Fin 8 → Fin 8 → Instr) : Dec Instr := do
  let _ ← fnOf 8 r
  let d ← at_ 0 r.d pReg
  let a ← at_ 1 r.a pReg
  let b ← at_ 2 r.b pReg
  let _ ← at_ 3 r.c isNone
  let _ ← regX r {}
  pure (mk (r.fn.getLsbD 0) (r.fn.getLsbD 1) (r.fn.getLsbD 2) d a b)

/-- Branch form without operands. -/
def jump (mk : Tgt → Instr) : Dec Instr := do
  let _ ← fnOf 1 r
  let _ ← at_ 0 r.d isNone
  let _ ← at_ 1 r.a isNone
  let _ ← at_ 2 r.b isNone
  let _ ← at_ 3 r.c isNone
  let (_, g) ← branchX r (· == .i64)
  pure (mk g)

/-- Register form with one register source in a that is not imm32 (R145). -/
def oneA (mk : SReg → Instr) : Dec Instr := do
  let _ ← fnOf 1 r
  let _ ← at_ 0 r.d isNone
  let a ← at_ 1 r.a SReg.of
  let _ ← at_ 2 r.b isNone
  let _ ← at_ 3 r.c isNone
  let _ ← regX r {}
  pure (mk a)

/-- Lane-wise with a broadcast source b (Table 5-1). -/
def laneB (u : QUse) (mk : Qual → VDst → VSrc → BSrc → Mask → Instr) : Dec Instr := do
  let _ ← fnOf 1 r
  let d ← at_ 0 r.d VDst.of
  let a ← at_ 1 r.a VSrc.of
  let b ← at_ 2 r.b (BSrc.of r.low)
  let m ← maskC r d
  let q ← regX r u
  let _ ← xOk r (intRne q.t q.rnd)
  pure (mk q d a b m)

/-- Lane-wise without b. -/
def laneA (u : QUse) (mk : Qual → VDst → VSrc → Mask → Instr) : Dec Instr := do
  let _ ← fnOf 1 r
  let d ← at_ 0 r.d VDst.of
  let a ← at_ 1 r.a VSrc.of
  let _ ← at_ 2 r.b isNone
  let m ← maskC r d
  let q ← regX r u
  pure (mk q d a m)

/-- vfma and vfms: d a vector register (R172). -/
def laneF (mk : Qual → Fin 64 → VSrc → BSrc → Mask → Instr) : Dec Instr := do
  let _ ← fnOf 1 r
  let d ← at_ 0 r.d vReg
  let a ← at_ 1 r.a VSrc.of
  let b ← at_ 2 r.b (BSrc.of r.low)
  let m ← at_ 3 r.c maskOf
  let q ← regX r { ty := Ty.isArith, rnd := true, sat := true }
  let _ ← xOk r (intRne q.t q.rnd)
  pure (mk q d a b m)

/-- Destination and mask of a reduction (R169, R176): .acc needs a w or g register. -/
def redDst : Dec RDst := do
  let d ← at_ 0 r.d RDst.of
  if r.fn = 1 ∧ !(match d with | .s (.w _) | .s (.g _) => true | _ => false) then .error (.operand 0 r.d)
  pure d

def redMask (d : RDst) : Dec Mask := do
  let m ← at_ 3 r.c maskOf
  match d, m with
  | .q _, some _ => .error (.operand 3 r.c)
  | _, _ => pure m

def redX : Dec Qual := do
  let q ← regX r { ty := Ty.isArith, rnd := true, sat := true }
  let _ ← xOk r (!q.t.isInt || q.sat)
  pure q

def red1 (mk : Bool → Qual → RDst → VSrc → Mask → Instr) : Dec Instr := do
  let f ← fnOf 2 r
  let d ← redDst r
  let a ← at_ 1 r.a VSrc.of
  let _ ← at_ 2 r.b isNone
  let m ← redMask r d
  let q ← redX r
  pure (mk (f == 1) q d a m)

def red2 (mk : Bool → Qual → RDst → VSrc → VSrc → Mask → Instr) : Dec Instr := do
  let f ← fnOf 2 r
  let d ← redDst r
  let a ← at_ 1 r.a VSrc.of
  let b ← at_ 2 r.b VSrc.of
  let m ← redMask r d
  let q ← redX r
  pure (mk (f == 1) q d a b m)

/-- F ← S, S of the engine form with `m` the defined bits of x (Table 6-2). -/
def fss (m : BitVec 48) (mk : FDst → SReg → SReg → Instr) : Dec Instr := do
  let _ ← fnOf 1 r
  let d ← at_ 0 r.d FDst.of
  let a ← at_ 1 r.a SReg.of
  let b ← at_ 2 r.b SReg.of
  let _ ← at_ 3 r.c isNone
  let _ ← engX r m
  pure (mk d a b)

/-- F ← S, S, S of the register form (Table 8-1). -/
def sys2 (mk : FDst → SSrc → SSrc → Instr) : Dec Instr := do
  let _ ← fnOf 1 r
  let d ← at_ 0 r.d FDst.of
  let a ← at_ 1 r.a (SSrc.of r.low)
  let b ← at_ 2 r.b (SSrc.of r.low)
  let _ ← at_ 3 r.c isNone
  let _ ← regX r {}
  pure (mk d a b)

def sys3 (k : Nat) (mk : FDst → SSrc → SSrc → SSrc → Instr) : Dec Instr := do
  let _ ← fnOf k r
  let d ← at_ 0 r.d FDst.of
  let a ← at_ 1 r.a (SSrc.of r.low)
  let b ← at_ 2 r.b (SSrc.of r.low)
  let c ← at_ 3 r.c (SSrc.of r.low)
  let _ ← regX r {}
  pure (mk d a b c)

/-- No destination, one scalar source. -/
def sysA (mk : SSrc → Instr) : Dec Instr := do
  let _ ← at_ 0 r.d isNone
  let a ← at_ 1 r.a (SSrc.of r.low)
  let _ ← at_ 2 r.b isNone
  let _ ← at_ 3 r.c isNone
  let _ ← regX r {}
  pure (mk a)

/-- One scalar destination and no source. -/
def sysD (mk : SDst → Instr) : Dec Instr := do
  let d ← at_ 0 r.d SDst.of
  let _ ← at_ 1 r.a isNone
  let _ ← at_ 2 r.b isNone
  let _ ← at_ 3 r.c isNone
  let _ ← regX r {}
  pure (mk d)

def loadQ : QUse := { ty := Ty.isMove, rnd := true, sat := true, sc := true, ord := loadOrd }
def storeQ : QUse := { ty := Ty.isMove, rnd := true, sat := true, sc := true, ord := storeOrd }

/-- The memory-form operand (R79). -/
def memA : Dec MAddr := do
  let b ← at_ 1 r.a SReg.of
  pure ⟨b, r.low⟩

/-- amo with an integer type (Table 7-9). -/
def amoI (mk : Ty → Scope → Ord → SDst → MAddr → SReg → Instr) : Dec Instr := do
  let d ← at_ 0 r.d SDst.of
  let m ← memA r
  let b ← at_ 2 r.b SReg.of
  let _ ← at_ 3 r.c isNone
  let q ← memX r { ty := Ty.isAtomic, sc := true, ord := fun _ => true }
  pure (mk q.t q.sc q.ord d m b)

/-- Network command fields (R271): scope .sys only, an order the entry allows, spray, class. -/
def netX (ok : Ord → Bool) : Dec (Ord × BitVec 8 × Fin 8) := do
  let _ ← engX r 0x7CFFE00000
  let s ← scopeX r
  let _ ← xOk r (s == .sys)
  let o ← ordX r ok
  pure (o, r.x.extractLsb' 24 8, (r.x.extractLsb' 21 3).toFin)

def copyS (mk : FDst → SReg → SReg → SReg → Scope → Dec Instr) (m : BitVec 48) : Dec Instr := do
  let d ← at_ 0 r.d FDst.of
  let a ← at_ 1 r.a SReg.of
  let b ← at_ 2 r.b SReg.of
  let c ← at_ 3 r.c SReg.of
  let _ ← engX r m
  let s ← scopeX r
  mk d a b c s

def mmaD (mk : MmaSrc → MmaF → FDst → Fin 4 → Instr) : Dec Instr := do
  let f ← fnOf 3 r
  let d ← at_ 0 r.d FDst.of
  let a ← at_ 1 r.a tReg
  let src ← (if f = 0 then do
      let _ ← at_ 2 r.b isNone
      let _ ← at_ 3 r.c isNone
      pure MmaSrc.feed
    else if f = 1 then do
      let v ← at_ 2 r.b vReg
      let _ ← at_ 3 r.c isNone
      pure (MmaSrc.reg v)
    else do
      let v ← at_ 2 r.b vReg
      let w ← at_ 3 r.c vReg
      pure (MmaSrc.regs v w))
  let _ ← engX r 0xFFFFFF000000
  let t ← tyX r Ty.isA
  let g : MmaF := ⟨t, (r.x.extractLsb' 42 1).toFin, r.x.getLsbD 41, (r.x.extractLsb' 38 3).toFin,
    (r.x.extractLsb' 35 3).toFin, (r.x.extractLsb' 30 5).toFin, (r.x.extractLsb' 25 5).toFin, r.x.getLsbD 24⟩
  let _ ← xOk r (mmaOk g)
  pure (mk src g d a)

end shapes

def intTS : QUse := { ty := Ty.isInt, sat := true }
def intT : QUse := { ty := Ty.isInt }
def arithQ : QUse := { ty := Ty.isArith, rnd := true, sat := true }
def fltQ : QUse := { ty := Ty.isFlt, rnd := true, sat := true }

/-! ### The entries, by unit class -/

/-- 0x01 to 0x26 (Tables 4-2 and 4-4). -/
def decodeInt (r : Raw) : Dec Instr :=
  match r.op.toNat with
  | 0x01 => dss r intTS fun q => .add q.t q.sat
  | 0x02 => dss r intTS fun q => .sub q.t q.sat
  | 0x03 => dss r intTS fun q => .mul q.t q.sat
  | 0x04 => dss r intT fun q => .mulh q.t
  | 0x05 => dsss r intTS fun q => .madd q.t q.sat
  | 0x06 => dss r intTS fun q => .div q.t q.sat
  | 0x07 => dss r intT fun q => .rem q.t
  | 0x08 => ds r 1 { ty := Ty.isSigned, sat := true } fun q => .abs q.t q.sat
  | 0x09 => dss r intT fun q => .min q.t
  | 0x0A => dss r intT fun q => .max q.t
  | 0x0B => dss r intT fun q => .and q.t
  | 0x0C => dss r intT fun q => .or q.t
  | 0x0D => dss r intT fun q => .xor q.t
  | 0x0E => dss r intT fun q => .andn q.t
  | 0x0F => dss r intTS fun q => .shl q.t q.sat
  | 0x10 => dss r intT fun q => .shr q.t
  | 0x11 => dss r intT fun q => .sar q.t
  | 0x12 => dss r intT fun q => .rot q.t
  | 0x13 => ds r 1 intT fun q => .clz q.t
  | 0x14 => ds r 1 intT fun q => .ctz q.t
  | 0x15 => ds r 1 intT fun q => .popc q.t
  | 0x16 => ds r 1 intT fun q => .brev q.t
  | 0x17 => ds r 1 intT fun q => .bswap q.t
  | 0x18 => dss r { ty := fun t => t == .i64 || t == .n64 } fun q => .bext q.t
  | 0x19 => dsss r {} fun _ => .bins
  | 0x1A => ds r 1 { ty := fun t => t == .i32 || t == .i16 || t == .i8 } fun q => .sext q.t
  | 0x1B => ds r 1 { ty := fun t => t == .n32 || t == .n16 || t == .n8 } fun q => .zext q.t
  | 0x1C => do
    let _ ← fnOf 1 r
    let d ← at_ 0 r.d MovDst.of
    let a ← at_ 1 r.a (MovSrc.of r.low)
    let _ ← at_ 2 r.b isNone
    let _ ← at_ 3 r.c isNone
    let q ← regX r intT
    pure (.mov q.t d a)
  | 0x1D => do
    let _ ← fnOf 1 r
    let d ← at_ 0 r.d SDst.of
    let _ ← at_ 1 r.a isNone
    pure (.movi d (r.b ++ r.c ++ r.x))
  | 0x1E => do
    let _ ← fnOf 1 r
    let d ← at_ 0 r.d SDst.of
    let m ← memA r
    let i ← at_ 2 r.b optSRegOf
    let _ ← at_ 3 r.c isNone
    let q ← memX r intT
    pure (.lea q.t d m i)
  | 0x1F => do
    let c ← condOf 6 r
    let d ← at_ 0 r.d SDst.of
    let a ← at_ 1 r.a (SSrc.of r.low)
    let b ← at_ 2 r.b (SSrc.of r.low)
    let _ ← at_ 3 r.c isNone
    let q ← regX r intT
    pure (.setc c q.t d a b)
  | 0x20 => do
    let _ ← fnOf 1 r
    let d ← at_ 0 r.d SDst.of
    let a ← at_ 1 r.a (SSrc.of r.low)
    if r.a = immSpec ∧ 8 < r.c.toNat then .error (.operand 1 r.a)
    let _ ← at_ 2 r.b isNone
    match Ty.ofCode r.c.toNat with
    | some u =>
      let q ← regX r { ty := (· != .s8), rnd := true, sat := true }
      pure (.cvt q.t u q.rnd q.sat d a)
    | none => badField r
  | 0x21 => do
    let c ← condOf 7 r
    let d ← at_ 0 r.d pReg
    let a ← at_ 1 r.a (SSrc.of r.low)
    let b ← at_ 2 r.b (SSrc.of r.low)
    let _ ← at_ 3 r.c isNone
    let q ← regX r { ty := fun t => t.isArith && (c != .un || t.isFlt) }
    pure (.cmp c q.t d a b)
  | 0x22 => ppp r .pand
  | 0x23 => ppp r .por
  | 0x24 => ppp r .pxor
  | 0x25 => do
    let f ← fnOf 2 r
    let o ← (match pReg r.d with
      | some d =>
        match pReg r.a with
        | some a => pure (PmovOp.pp d a)
        | none => do
          let a ← at_ 1 r.a (SSrc.of r.low)
          pure (PmovOp.ps d a)
      | none => do
        let d ← at_ 0 r.d SDst.of
        let a ← at_ 1 r.a pReg
        pure (PmovOp.sp d a))
    let _ ← at_ 2 r.b isNone
    let _ ← at_ 3 r.c isNone
    let _ ← regX r {}
    pure (.pmov (f == 1) o)
  | 0x26 => do
    let f ← fnOf 2 r
    let d ← at_ 0 r.d SDst.of
    let a ← at_ 1 r.a (SSrc.of r.low)
    let b ← at_ 2 r.b (SSrc.of r.low)
    let p ← at_ 3 r.c pReg
    let _ ← regX r {}
    pure (.sel (f == 1) d a b p)
  | _ => .error (.opcode r.op)

/-- 0x28 to 0x35 (Table 4-5). -/
def decodeCtl (r : Raw) : Dec Instr :=
  match r.op.toNat with
  | 0x28 => jump r .br
  | 0x29 => do
    let c ← condOf 6 r
    let _ ← at_ 0 r.d isNone
    let a ← at_ 1 r.a SReg.of
    let b ← at_ 2 r.b SReg.of
    let _ ← at_ 3 r.c isNone
    let (t, g) ← branchX r Ty.isInt
    pure (.brc c t a b g)
  | 0x2A => oneA r .bri
  | 0x2B => jump r .call
  | 0x2C => oneA r .calli
  | 0x2D => jump r .tcall
  | 0x2E => bare r .ret
  | 0x2F => do
    let f ← fnOf 2 r
    let _ ← at_ 0 r.d isNone
    let a ← at_ 1 r.a SReg.of
    let _ ← at_ 2 r.b isNone
    let _ ← at_ 3 r.c isNone
    let (_, g) ← branchX r (· == .i64)
    pure (.loop f a g)
  | 0x30 => do
    let f ← fnOf 2 r
    let _ ← at_ 0 r.d isNone
    let _ ← at_ 1 r.a isNone
    let _ ← at_ 2 r.b isNone
    let _ ← at_ 3 r.c isNone
    let _ ← regX r {}
    pure (.lbrk f)
  | 0x31 => oneA r .wspill
  | 0x32 => oneA r .wfill
  | 0x33 => bare r .exit
  | 0x34 => bare r .nop
  | 0x35 => bare r .yield
  | _ => .error (.opcode r.op)

/-- 0x40 to 0x62 (Tables 5-1 to 5-3, R174 to R179). -/
def decodeVec (r : Raw) : Dec Instr :=
  match r.op.toNat with
  | 0x40 => laneB r arithQ fun q => .vadd q.t q.rnd q.sat
  | 0x41 => laneB r arithQ fun q => .vsub q.t q.rnd q.sat
  | 0x42 => laneB r arithQ fun q => .vmul q.t q.rnd q.sat
  | 0x43 => laneF r fun q => .vfma q.t q.rnd q.sat
  | 0x44 => laneF r fun q => .vfms q.t q.rnd q.sat
  | 0x45 => laneB r fltQ fun q => .vdiv q.t q.rnd q.sat
  | 0x46 => laneA r fltQ fun q => .vsqrt q.t q.rnd q.sat
  | 0x47 => laneB r { ty := Ty.isArith } fun q => .vmin q.t
  | 0x48 => laneB r { ty := Ty.isArith } fun q => .vmax q.t
  | 0x49 => laneA r { ty := Ty.isArith, sat := true } fun q => .vabs q.t q.sat
  | 0x4A => laneA r { ty := Ty.isArith, sat := true } fun q => .vneg q.t q.sat
  | 0x4B => laneB r intT fun q => .vand q.t
  | 0x4C => laneB r intT fun q => .vor q.t
  | 0x4D => laneB r intT fun q => .vxor q.t
  | 0x4E => laneB r intTS fun q => .vshl q.t q.sat
  | 0x4F => laneB r intT fun q => .vshr q.t
  | 0x50 => laneB r intT fun q => .vsar q.t
  | 0x51 => laneA r fltQ fun q => .vrcp q.t q.rnd q.sat
  | 0x52 => laneA r fltQ fun q => .vrsq q.t q.rnd q.sat
  | 0x53 => laneA r fltQ fun q => .vexp2 q.t q.rnd q.sat
  | 0x54 => laneA r fltQ fun q => .vlog2 q.t q.rnd q.sat
  | 0x55 => do
    let c ← condOf 7 r
    let d ← at_ 0 r.d mReg
    let a ← at_ 1 r.a VSrc.of
    let b ← at_ 2 r.b (BSrc.of r.low)
    let m ← at_ 3 r.c maskOf
    let q ← regX r { ty := fun t => t.isArith && (c != .un || t.isFlt) }
    pure (.vcmp c q.t d a b m)
  | 0x56 => do
    let _ ← fnOf 1 r
    let d ← at_ 0 r.d VDst.of
    let a ← at_ 1 r.a VSrc.of
    let b ← at_ 2 r.b (BSrc.of r.low)
    let m ← at_ 3 r.c mReg
    if !portMask d (some m) then .error (.operand 3 r.c)
    let q ← regX r { ty := Ty.isMove }
    pure (.vsel q.t d a b m)
  | 0x57 => do
    let _ ← fnOf 1 r
    let d ← at_ 0 r.d VDst.of
    let a ← at_ 1 r.a VSrc.of
    let b ← at_ 2 r.b VSrc.of
    let m ← maskC r d
    let q ← regX r { ty := Ty.isMove }
    pure (.vshuf q.t d a b m)
  | 0x58 => do
    let _ ← fnOf 1 r
    let d ← at_ 0 r.d VDst.of
    let a ← at_ 1 r.a (BSrc.of r.low)
    let _ ← at_ 2 r.b isNone
    let m ← maskC r d
    let q ← regX r { ty := Ty.isMove }
    pure (.vbcast q.t d a m)
  | 0x59 => do
    let f ← fnOf 2 r
    if f = 0 then do
      let d ← at_ 0 r.d SDst.of
      let a ← at_ 1 r.a VSrc.of
      let b ← at_ 2 r.b (SSrc.of r.low)
      let _ ← at_ 3 r.c isNone
      let q ← regX r { ty := Ty.isMove }
      pure (.vlaneGet q.t d a b)
    else do
      let d ← at_ 0 r.d VDst.of
      let a ← at_ 1 r.a (SSrc.of r.low)
      let b ← at_ 2 r.b (SSrc.of r.low)
      let _ ← at_ 3 r.c isNone
      let q ← regX r { ty := Ty.isMove }
      pure (.vlanePut q.t d a b)
  | 0x5A => laneA r { ty := Ty.isMove } fun q => .vmov q.t
  | 0x5B => red1 r fun acc q => .vsum acc q.t q.rnd q.sat
  | 0x5C => red1 r fun acc q => .vrmax acc q.t q.rnd q.sat
  | 0x5D => red1 r fun acc q => .vrmin acc q.t q.rnd q.sat
  | 0x5E => red2 r fun acc q => .vdot acc q.t q.rnd q.sat
  | 0x5F => do
    let f ← fnOf 8 r
    let d ← at_ 0 r.d VDst.of
    let a ← at_ 1 r.a VSrc.of
    let b ← at_ 2 r.b VSrc.of
    let _ ← at_ 3 r.c isNone
    let _ ← regX r {}
    pure (.vpack ⟨f.val % 2, Nat.mod_lt _ (by decide)⟩ ⟨f.val / 2, by have := f.isLt; omega⟩ d a b)
  | 0x60 => do
    let f ← fnOf 6 r
    let d ← at_ 0 r.d vReg
    let a ← at_ 1 r.a VSrc.of
    let _ ← at_ 2 r.b isNone
    let _ ← at_ 3 r.c isNone
    let _ ← regX r {}
    pure (.vunpk f d a)
  | 0x61 => do
    let bad : Bool := match Ty.ofCode (xf r 43 5), Ty.ofCode r.c.toNat with
      | some t, some u => t != .s8 && u != .s8 && !(r.fn.toNat < vcvtParts t u)
      | _, _ => false
    if bad then badFn r
    let d ← at_ 0 r.d VDst.of
    let a ← at_ 1 r.a VSrc.of
    let _ ← at_ 2 r.b isNone
    match Ty.ofCode r.c.toNat with
    | some u =>
      let q ← regX r { ty := fun t => t != .s8 && u != .s8, rnd := true, sat := true }
      pure (.vcvt r.fn.toFin q.t u q.rnd q.sat d a)
    | none => badField r
  | 0x62 => do
    let f ← fnOf 8 r
    if !(xf r 43 5 == 15) && !(decide (f.val < 4)) then badFn r
    let d ← at_ 0 r.d vReg
    let a ← at_ 1 r.a VSrc.of
    let b ← at_ 2 r.b (SSrc.of r.low)
    let c ← at_ 3 r.c FReg.of
    let q ← regX r { ty := Ty.isBlock, rnd := true }
    pure (.vquant f q.t q.rnd d a b c)
  | _ => .error (.opcode r.op)

/-- 0x63 to 0x71 (Tables 5-4 to 5-6, R187). -/
def decodeMem (r : Raw) : Dec Instr :=
  match r.op.toNat with
  | 0x63 => do
    let _ ← fnOf 1 r
    let d ← at_ 0 r.d SDst.of
    let m ← memA r
    let i ← at_ 2 r.b optSRegOf
    let _ ← at_ 3 r.c isNone
    let q ← memX r loadQ
    pure (.ld q.t q.rnd q.sat q.sc q.ord d m i)
  | 0x64 => do
    let _ ← fnOf 1 r
    let _ ← at_ 0 r.d isNone
    let m ← memA r
    let i ← at_ 2 r.b optSRegOf
    let c ← at_ 3 r.c SReg.of
    let q ← memX r storeQ
    pure (.st q.t q.rnd q.sat q.sc q.ord m i c)
  | 0x65 => do
    let _ ← fnOf 1 r
    let d ← at_ 0 r.d VDst.of
    let m ← memA r
    let i ← at_ 2 r.b optSRegOf
    let k ← maskC r d
    let q ← memX r loadQ
    pure (.vld q.t q.rnd q.sat q.sc q.ord d m i k)
  | 0x66 => do
    let _ ← fnOf 1 r
    let _ ← at_ 0 r.d isNone
    let m ← memA r
    let i ← at_ 2 r.b optSRegOf
    let c ← at_ 3 r.c VSrc.of
    let q ← memX r storeQ
    pure (.vst q.t q.rnd q.sat q.sc q.ord m i c)
  | 0x67 => do
    let _ ← fnOf 1 r
    let _ ← at_ 0 r.d isNone
    let m ← memA r
    let b ← at_ 2 r.b VSrc.of
    let c ← at_ 3 r.c SReg.of
    let q ← memX r { ty := (· == .f), rnd := true, sc := true, ord := storeOrd }
    pure (.vqst q.rnd q.sc q.ord m b c)
  | 0x68 => do
    let _ ← fnOf 1 r
    let d ← at_ 0 r.d VDst.of
    let m ← memA r
    let b ← at_ 2 r.b VSrc.of
    let k ← maskC r d
    let q ← memX r loadQ
    pure (.vgath q.t q.rnd q.sat q.sc q.ord d m b k)
  | 0x69 => do
    let _ ← fnOf 1 r
    let k ← at_ 0 r.d maskOf
    let m ← memA r
    let b ← at_ 2 r.b VSrc.of
    let c ← at_ 3 r.c VSrc.of
    let q ← memX r storeQ
    pure (.vscat q.t q.rnd q.sat q.sc q.ord k m b c)
  | 0x6A => do
    let f ← fnOf 2 r
    let d ← at_ 0 r.d qReg
    let a ← at_ 1 r.a (SSrc.of r.low)
    let b ← at_ 2 r.b (SSrc.of r.low)
    let c ← at_ 3 r.c (SSrc.of r.low)
    let q ← regX r { ty := Ty.isMove, rnd := true, sat := true, sc := true }
    pure (.sbind (f == 1) q.t q.rnd q.sat q.sc d a b c)
  | 0x6B => do
    let _ ← fnOf 1 r
    let _ ← at_ 0 r.d isNone
    let q ← at_ 1 r.a qReg
    let _ ← at_ 2 r.b isNone
    let _ ← at_ 3 r.c isNone
    let _ ← regX r {}
    pure (.sfree q)
  | 0x6C => do
    let _ ← fnOf 1 r
    let _ ← at_ 0 r.d isNone
    let q ← at_ 1 r.a qReg
    let b ← at_ 2 r.b (SSrc.of r.low)
    let c ← at_ 3 r.c (SSrc.of r.low)
    let _ ← regX r {}
    pure (.sseek q b c)
  | 0x6D => do
    let f ← fnOf 3 r
    let d ← at_ 0 r.d SDst.of
    let q ← at_ 1 r.a qReg
    let _ ← at_ 2 r.b isNone
    let _ ← at_ 3 r.c isNone
    let _ ← regX r {}
    pure (if f = 0 then .sstatPos d q else if f = 1 then .sstatCfg d q else .sstatBase d q)
  | 0x6E => do
    let _ ← fnOf 1 r
    let _ ← at_ 0 r.d isNone
    let p ← at_ 1 r.a qReg
    let _ ← at_ 2 r.b isNone
    let _ ← at_ 3 r.c isNone
    let q ← regX r { sc := true, ord := fun _ => true }
    pure (.sflush q.sc q.ord p)
  | 0x6F => ds r 1 {} fun _ => .tlook
  | 0x70 => do
    let _ ← fnOf 1 r
    let _ ← at_ 0 r.d isNone
    let a ← at_ 1 r.a (SSrc.of r.low)
    let b ← at_ 2 r.b (SSrc.of r.low)
    let c ← at_ 3 r.c (SSrc.of r.low)
    let _ ← regX r {}
    pure (.tset a b c)
  | 0x71 => do
    let f ← fnOf 3 r
    if f = 2 then do
      let _ ← at_ 0 r.d isNone
      let _ ← at_ 1 r.a isNone
      let _ ← at_ 2 r.b isNone
      let _ ← at_ 3 r.c isNone
      let _ ← regX r {}
      pure .tinvAll
    else sysA r (if f = 0 then .tinvEnt else .tinvTag)
  | _ => .error (.opcode r.op)

/-- 0x80 to 0x8F (Tables 6-2 and 6-3). DESIGN CHOICE (log 47): grp code 3 of mread and mwrite, and 6 and 7 of mtrans, for which neither R205
nor R218 names the trap, are illegal fields. -/
def decodeMat (r : Raw) : Dec Instr :=
  match r.op.toNat with
  | 0x80 => do
    let _ ← fnOf 1 r
    let d ← at_ 0 r.d FDst.of
    let a ← at_ 1 r.a SReg.of
    let b ← at_ 2 r.b SReg.of
    let _ ← at_ 3 r.c isNone
    let _ ← engX r 0x06383E000000
    let rows ← xFin r 41 2 3
    pure (.mrow rows (r.x.extractLsb' 35 3).toFin (r.x.extractLsb' 25 5).toFin d a b)
  | 0x81 => do
    let f ← fnOf 2 r
    let d ← at_ 0 r.d FDst.of
    let a ← at_ 1 r.a SReg.of
    let b ← at_ 2 r.b SReg.of
    let c ← at_ 3 r.c SReg.of
    let _ ← engX r 0x7FF
    let _ ← xOk r (attrCodes (r.x.extractLsb' 0 11))
    pure (.mgeom (f == 1) (r.x.extractLsb' 0 11) d a b c)
  | 0x82 => do
    let _ ← fnOf 1 r
    let d ← at_ 0 r.d FDst.of
    let a ← at_ 1 r.a SReg.of
    let b ← at_ 2 r.b SReg.of
    let _ ← at_ 3 r.c isNone
    let _ ← engX r 0x05F0000007FF
    let _ ← xOk r (attrCodes (r.x.extractLsb' 0 11))
    pure (.mslab (r.x.extractLsb' 0 11) (r.x.extractLsb' 42 1).toFin (r.x.extractLsb' 36 5).toFin d a b)
  | 0x83 => mmaD r .mma
  | 0x84 => mmaD r .mmas
  | 0x85 => do
    let _ ← fnOf 1 r
    let d ← at_ 0 r.d FDst.of
    let a ← at_ 1 r.a tReg
    let _ ← at_ 2 r.b isNone
    let _ ← at_ 3 r.c isNone
    let _ ← engX r 0x01FE00000000
    pure (.mzero (r.x.extractLsb' 34 7).toFin (r.x.getLsbD 33) d a)
  | 0x86 => do
    let _ ← fnOf 1 r
    let d ← at_ 0 r.d vReg
    let a ← at_ 1 r.a tReg
    let b ← at_ 2 r.b SReg.of
    let _ ← at_ 3 r.c isNone
    let _ ← engX r 0x01FCC0000000
    let g ← xFin r 30 2 3
    pure (.mread (r.x.extractLsb' 34 7).toFin g d a b)
  | 0x87 => do
    let _ ← fnOf 1 r
    let d ← at_ 0 r.d FDst.of
    let a ← at_ 1 r.a tReg
    let b ← at_ 2 r.b vReg
    let c ← at_ 3 r.c SReg.of
    let _ ← engX r 0x01FCC0000000
    let g ← xFin r 30 2 3
    pure (.mwrite (r.x.extractLsb' 34 7).toFin g d a b c)
  | 0x88 => do
    let _ ← fnOf 1 r
    let d ← at_ 0 r.d FDst.of
    let a ← at_ 1 r.a tReg
    let b ← at_ 2 r.b SReg.of
    let c ← at_ 3 r.c SReg.of
    let _ ← engX r 0xFFF3FC000000
    let t ← tyX r Ty.isMove
    let s ← scopeX r
    let e := r.x.extractLsb' 26 8
    let _ ← xOk r (e != -128#8 && e != -127#8)
    match Rnd.ofCode (xf r 40 3) with
    | some m => pure (.mquant t m (r.x.getLsbD 39) s e d a b c)
    | none => badField r
  | 0x89 => fss r 0 .skeep
  | 0x8A => fss r 0 .mscale
  | 0x8B => do
    let _ ← fnOf 1 r
    let d ← at_ 0 r.d FDst.of
    let a ← at_ 1 r.a tReg
    let b ← at_ 2 r.b tReg
    let _ ← at_ 3 r.c isNone
    let _ ← engX r 0
    pure (.mmerge d a b)
  | 0x8C => do
    let _ ← fnOf 1 r
    let d ← at_ 0 r.d vReg
    let a ← at_ 1 r.a tReg
    let b ← at_ 2 r.b SReg.of
    let _ ← at_ 3 r.c isNone
    let _ ← engX r 0x00FCE0000000
    let g ← xFin r 29 3 6
    pure (.mtrans (r.x.extractLsb' 34 6).toFin g d a b)
  | 0x8D => do
    let f ← fnOf 4 r
    let d ← at_ 0 r.d FDst.of
    let _ ← at_ 1 r.a isNone
    let _ ← at_ 2 r.b isNone
    let _ ← at_ 3 r.c isNone
    let _ ← engX r 0
    match Role.ofCode f.val with
    | some role => pure (.mlink role d)
    | none => badFn r
  | 0x8E => do
    let f ← fnOf 2 r
    if f = 0 then sysD r .mstatEng
    else do
      let d ← at_ 0 r.d SDst.of
      let a ← at_ 1 r.a tReg
      let _ ← at_ 2 r.b isNone
      let _ ← at_ 3 r.c isNone
      let _ ← regX r {}
      pure (.mstatTile d a)
  | 0x8F => bare r .mwait
  | _ => .error (.opcode r.op)

/-- 0x90 to 0xB5 (Tables 7-2 to 7-11). -/
def decodeAsy (r : Raw) : Dec Instr :=
  match r.op.toNat with
  | 0x90 => do
    let f ← fnOf 2 r
    if f = 0 then copyS r (fun d a b c s => pure (.cpyMem (r.x.getLsbD 39) s d a b c)) 0x00F000000000
    else do
      let d ← at_ 0 r.d FDst.of
      let k ← at_ 1 r.a kReg
      let b ← at_ 2 r.b SReg.of
      let c ← at_ 3 r.c SReg.of
      let _ ← engX r 0x007000000000
      let s ← scopeX r
      pure (.cpyRing s d k b c)
  | 0x91 => do
    let f ← fnOf 2 r
    copyS r (fun d a b c s => pure (.cpy2d (f == 1) (f == 0 && r.x.getLsbD 39) s (r.x.extractLsb' 16 20)
      (r.x.extractLsb' 0 16) d a b c)) (if f = 0 then 0x00FFFFFFFFFF else 0x007FFFFFFFFF)
  | 0x92 => do
    let _ ← fnOf 1 r
    copyS r (fun d a b c s => do
      let e ← xFin r 16 4 10
      pure (.cpyg s e (r.x.extractLsb' 0 16) d a b c)) 0x0070000FFFFF
  | 0x93 => do
    let _ ← fnOf 1 r
    copyS r (fun d a b c s => do
      let e ← xFin r 16 4 10
      pure (.cpys s e (r.x.extractLsb' 0 16) d a b c)) 0x0070000FFFFF
  | 0x94 => do
    let _ ← fnOf 1 r
    copyS r (fun d a b c s => pure (.cpyf s (r.x.extractLsb' 0 2).toFin d a b c)) 0x007000000003
  | 0x95 => do
    let _ ← fnOf 1 r
    let d ← at_ 0 r.d SDst.of
    let a ← at_ 1 r.a FReg.of
    let _ ← at_ 2 r.b isNone
    let _ ← at_ 3 r.c isNone
    let _ ← regX r {}
    pure (.fwait d a)
  | 0x96 => do
    let _ ← fnOf 1 r
    let d ← at_ 0 r.d pReg
    let a ← at_ 1 r.a FReg.of
    let _ ← at_ 2 r.b isNone
    let _ ← at_ 3 r.c isNone
    let _ ← regX r {}
    pure (.ftest d a)
  | 0x97 => do
    let _ ← fnOf 1 r
    let _ ← at_ 0 r.d isNone
    let a ← at_ 1 r.a FReg.of
    let _ ← at_ 2 r.b isNone
    let _ ← at_ 3 r.c isNone
    let _ ← regX r {}
    pure (.fcancel a)
  | 0x98 => do
    let _ ← fnOf 1 r
    let d ← at_ 0 r.d FDst.of
    let a ← at_ 1 r.a FReg.of
    let _ ← at_ 2 r.b isNone
    let _ ← at_ 3 r.c isNone
    let _ ← regX r {}
    pure (.fpass d a)
  | 0x99 => ds r 1 {} fun _ => .fany
  | 0x9A => do
    let f ← fnOf 2 r
    let k ← at_ 0 r.d kReg
    let a ← at_ 1 r.a (SSrc.of r.low)
    let b ← at_ 2 r.b (SSrc.of r.low)
    let _ ← at_ 3 r.c isNone
    let _ ← regX r {}
    pure (if f = 0 then .kinitOwn k a b else .kinitPeer k a b)
  | 0x9B => do
    let f ← fnOf 2 r
    let d ← at_ 0 r.d SDst.of
    let k ← at_ 1 r.a kReg
    let b ← at_ 2 r.b (SSrc.of r.low)
    let _ ← at_ 3 r.c isNone
    let _ ← regX r {}
    pure (if f = 0 then .kwaitFill d k b else .kwaitFree d k b)
  | 0x9C => do
    let _ ← fnOf 1 r
    let _ ← at_ 0 r.d isNone
    let k ← at_ 1 r.a kReg
    let _ ← at_ 2 r.b isNone
    let _ ← at_ 3 r.c isNone
    let _ ← regX r {}
    pure (.kfree k)
  | 0x9D => do
    let f ← fnOf 2 r
    let _ ← at_ 0 r.d isNone
    let k ← at_ 1 r.a kReg
    let b ← at_ 2 r.b (SSrc.of r.low)
    let _ ← at_ 3 r.c isNone
    let _ ← regX r {}
    pure (if f = 0 then .kadvFill k b else .kadvDrain k b)
  | 0x9E => do
    let f ← fnOf 2 r
    copyS r (fun d a b c s => pure (.hread (if f = 0 then .one else .two (r.x.extractLsb' 0 36)) s d a b c))
      (if f = 0 then 0x007000000000 else 0x007FFFFFFFFF)
  | 0x9F => bare r .hret
  | 0xA0 => do
    let f ← fnOf 3 r
    let d ← at_ 0 r.d FDst.of
    let a ← at_ 1 r.a SReg.of
    if f = 1 then do
      let b ← at_ 2 r.b SReg.of
      let _ ← at_ 3 r.c isNone
      let _ ← engX r 0x007C00000007
      let s ← scopeX r
      let o ← ordX r storeOrd
      pure (.msendDep s o (r.x.extractLsb' 0 3).toFin d a b)
    else do
      let b ← at_ 2 r.b vReg
      let _ ← at_ 3 r.c isNone
      let _ ← engX r 0x007C00000000
      let s ← scopeX r
      let o ← ordX r storeOrd
      pure (if f = 0 then .msendQ s o d a b else .msendSpec s o d a b)
  | 0xA1 => bare r .mcommit
  | 0xA2 => bare r .mabort
  | 0xA3 => do
    let f ← fnOf 2 r
    if f = 0 then do
      let d ← at_ 0 r.d vReg
      let _ ← at_ 1 r.a isNone
      let _ ← at_ 2 r.b isNone
      let _ ← at_ 3 r.c isNone
      let q ← regX r { sc := true, ord := loadOrd }
      pure (.mrecvPop q.sc q.ord d)
    else sysD r .mrecvCnt
  | 0xA4 => do
    let f ← fnOf 8 r
    match f with
    | 0 => amoI r .amoAdd
    | 1 => amoI r .amoAnd
    | 2 => amoI r .amoOr
    | 3 => amoI r .amoXor
    | 4 => amoI r .amoMin
    | 5 => amoI r .amoMax
    | 6 => amoI r .amoSwap
    | 7 => do
      let d ← at_ 0 r.d SDst.of
      let m ← memA r
      let b ← at_ 2 r.b SReg.of
      let _ ← at_ 3 r.c isNone
      let q ← memX r { ty := (· == .f), rnd := true, sc := true, ord := fun _ => true }
      pure (.amoFadd q.rnd q.sc q.ord d m b)
  | 0xA5 => do
    let _ ← fnOf 1 r
    let d ← at_ 0 r.d SDst.of
    let m ← memA r
    let b ← at_ 2 r.b SReg.of
    let c ← at_ 3 r.c SReg.of
    let q ← memX r { ty := Ty.isAtomic, sc := true, ord := fun _ => true }
    pure (.cas q.t q.sc q.ord d m b c)
  | 0xA6 => do
    let _ ← fnOf 1 r
    let _ ← at_ 0 r.d isNone
    let _ ← at_ 1 r.a isNone
    let _ ← at_ 2 r.b isNone
    let _ ← at_ 3 r.c isNone
    let q ← regX r { sc := true, ord := (· != .rlx) }
    pure (.fence q.sc q.ord)
  | 0xA7 => do
    let f ← fnOf 4 r
    sysA r (.barm f)
  | 0xA8 => do
    let f ← fnOf 4 r
    let d ← at_ 0 r.d FDst.of
    let _ ← at_ 1 r.a isNone
    let _ ← at_ 2 r.b isNone
    let _ ← at_ 3 r.c isNone
    let q ← regX r { sc := true }
    pure (.barr f q.sc d)
  | 0xA9 => do
    let f ← fnOf 4 r
    let _ ← at_ 0 r.d isNone
    let _ ← at_ 1 r.a isNone
    let _ ← at_ 2 r.b isNone
    let _ ← at_ 3 r.c isNone
    let q ← regX r { sc := true }
    pure (.barw f q.sc)
  | 0xAA => bare r .wfe
  | 0xAB => do
    let f ← fnOf 2 r
    if f = 0 then do
      let _ ← at_ 0 r.d isNone
      let _ ← at_ 1 r.a isNone
      let _ ← at_ 2 r.b isNone
      let _ ← at_ 3 r.c isNone
      let _ ← regX r {}
      pure .sevCore
    else sysA r .sevThr
  | 0xAC => fss r 0 .gang
  | 0xAD => bare r .gdetach
  | 0xAE => bare r .gjoin
  | 0xAF => do
    let _ ← fnOf 1 r
    let d ← at_ 0 r.d SDst.of
    let m ← memA r
    let b ← at_ 2 r.b SReg.of
    let _ ← at_ 3 r.c isNone
    let q ← memX r { ty := Ty.isArith, sc := true, ord := loadOrd }
    pure (.rld q.t q.sc q.ord d m b)
  | 0xB0 => do
    let _ ← fnOf 1 r
    let _ ← at_ 0 r.d isNone
    let m ← memA r
    let b ← at_ 2 r.b SReg.of
    let c ← at_ 3 r.c SReg.of
    let q ← memX r { ty := Ty.isArith, sc := true, ord := storeOrd }
    pure (.rst q.t q.sc q.ord m b c)
  | 0xB1 => do
    let _ ← fnOf 1 r
    let d ← at_ 0 r.d FDst.of
    let a ← at_ 1 r.a SReg.of
    let b ← at_ 2 r.b SReg.of
    let _ ← at_ 3 r.c isNone
    let (_, sp, cl) ← netX r (· == .rlx)
    pure (.nsend sp cl d a b)
  | 0xB2 => do
    let _ ← fnOf 1 r
    let d ← at_ 0 r.d FDst.of
    let a ← at_ 1 r.a SReg.of
    let b ← at_ 2 r.b SReg.of
    let c ← at_ 3 r.c SReg.of
    let (o, sp, cl) ← netX r storeOrd
    pure (.nput o sp cl d a b c)
  | 0xB3 => do
    let _ ← fnOf 1 r
    let d ← at_ 0 r.d FDst.of
    let a ← at_ 1 r.a SReg.of
    let b ← at_ 2 r.b SReg.of
    let c ← at_ 3 r.c SReg.of
    let (o, sp, cl) ← netX r loadOrd
    pure (.nget o sp cl d a b c)
  | 0xB4 => do
    let _ ← fnOf 1 r
    let d ← at_ 0 r.d FDst.of
    let a ← at_ 1 r.a SReg.of
    let b ← at_ 2 r.b SReg.of
    let _ ← at_ 3 r.c isNone
    let (_, sp, cl) ← netX r (· == .rlx)
    pure (.ncoll sp cl d a b)
  | 0xB5 => do
    let f ← fnOf 4 r
    ds r 4 {} fun _ d a =>
      if f = 0 then .nstatPkts d a else if f = 1 then .nstatMarks d a
      else if f = 2 then .nstatRetx d a else .nstatRtt d a
  | _ => .error (.opcode r.op)

/-- 0xC0 to 0xD7 (Table 8-1). -/
def decodeSys (r : Raw) : Dec Instr :=
  match r.op.toNat with
  | 0xC0 => ds r 1 {} fun _ => .sysr
  | 0xC1 => do
    let _ ← fnOf 1 r
    let _ ← at_ 0 r.d isNone
    let a ← at_ 1 r.a (SSrc.of r.low)
    let b ← at_ 2 r.b (SSrc.of r.low)
    let _ ← at_ 3 r.c isNone
    let _ ← regX r {}
    pure (.sysw a b)
  | 0xC2 => bare r .tret
  | 0xC3 => do
    let _ ← fnOf 1 r
    sysA r .trap
  | 0xC4 => do
    let f ← fnOf 2 r
    if f = 0 then do
      let _ ← at_ 0 r.d isNone
      let _ ← at_ 1 r.a fun s => if s = immSpec then some () else none
      let _ ← at_ 2 r.b isNone
      let _ ← at_ 3 r.c isNone
      let _ ← regX r {}
      pure (.phintPt r.low)
    else do
      let d ← at_ 0 r.d pReg
      let _ ← at_ 1 r.a isNone
      let _ ← at_ 2 r.b isNone
      let _ ← at_ 3 r.c isNone
      let _ ← regX r {}
      pure (.phintTest d)
  | 0xC5 => do
    let f ← fnOf 3 r
    if f = 1 then sysA r .heatCap
    else do
      let _ ← at_ 0 r.d isNone
      let _ ← at_ 1 r.a isNone
      let _ ← at_ 2 r.b isNone
      let _ ← at_ 3 r.c isNone
      let _ ← regX r {}
      pure (if f = 0 then .heatAck else .heatUncap)
  | 0xC6 => sys2 r .wpres
  | 0xC7 => sys2 r .wsplit
  | 0xC8 => sys2 r .wdeleg
  | 0xC9 => do
    let _ ← fnOf 1 r
    let d ← at_ 0 r.d FDst.of
    let a ← at_ 1 r.a (SSrc.of r.low)
    let _ ← at_ 2 r.b isNone
    let _ ← at_ 3 r.c isNone
    let _ ← regX r {}
    pure (.wsurr d a)
  | 0xCA => do
    let f ← fnOf 6 r
    ds r 6 {} fun _ d a =>
      if f = 0 then .wqryState d a else if f = 1 then .wqryAmt d a else if f = 2 then .wqryUsed d a
      else if f = 3 then .wqrySerial d a else if f = 4 then .wqryCtx d a else .wqryArg d a
  | 0xCB => do
    let f ← fnOf 3 r
    sysD r (if f = 0 then .wtimeLo else if f = 1 then .wtimeHi else .wtimeAge)
  | 0xCC => sys2 r .xinv
  | 0xCD => ds r 1 {} fun _ => .xprobe
  | 0xCE => do
    let f ← fnOf 2 r
    sys3 r 2 (if f = 0 then .xmapNew else .xmapAttr)
  | 0xCF => sys2 r .xunmap
  | 0xD0 => sys2 r .svsave
  | 0xD1 => sys2 r .svload
  | 0xD2 => ds r 1 {} fun _ => .svsize
  | 0xD3 => bare r .dbrk
  | 0xD4 => bare r .dstep
  | 0xD5 => ds r 1 {} fun _ => .cmark
  | 0xD6 => do
    let _ ← fnOf 1 r
    sysD r .hnote
  | 0xD7 => bare r .idle
  | _ => .error (.opcode r.op)

/-- Steps 4 to 7 of R85 on the fields of a word. -/
def decodeRaw (r : Raw) : Dec Instr :=
  match uclass r.op with
  | some .int => decodeInt r
  | some .ctl => decodeCtl r
  | some .vec => decodeVec r
  | some .mem => decodeMem r
  | some .mat => decodeMat r
  | some .asy => decodeAsy r
  | some .sys => decodeSys r
  | none => .error (.opcode r.op)

/-- A decoded slot: the predicate of R72 and the instruction it guards. -/
structure Slot where
  pn : Bool
  pr : Fin 8
  instr : Instr
  deriving DecidableEq, Repr

/-- The decoder. -/
def decode (w : IWord) : Dec Slot :=
  let r := Raw.ofWord w
  match decodeRaw r with
  | .ok i => .ok ⟨r.pn, r.pr, i⟩
  | .error e => .error e

/-! ### The encoder, from the same tables -/

/-- A word with predicate ?p0. -/
def enc (op fn : Nat) (d a b c : BitVec 8) (x : BitVec 48) : Option Raw :=
  some ⟨BitVec.ofNat 8 op, BitVec.ofNat 4 fn, false, 0, d, a, b, c, x⟩

/-- x of the register form: the qualifier word and the imm32 its sources share. -/
def regF (q : Qual) (l : List SSrc) : BitVec 48 := q.x ((immOf l).getD 0)

def q0 : Qual := ⟨.i64, .rne, false, .core, .rlx⟩
def qT (t : Ty) : Qual := { q0 with t := t }
def qTS (t : Ty) (s : Bool) : Qual := { q0 with t := t, sat := s }
def qTRS (t : Ty) (r : Rnd) (s : Bool) : Qual := { q0 with t := t, rnd := r, sat := s }

def bsrcImm : BSrc → List SSrc
  | .s a => [a] | _ => []

def movImm : MovSrc → List SSrc
  | .s a => [a] | _ => []

def ff : BitVec 8 := noneSpec

/-- A field of x: `v`, `k` bits wide, at bit `lo`. -/
def xAt {k : Nat} (lo : Nat) (v : BitVec k) : BitVec 48 := v.setWidth 48 <<< lo

def finBits {n : Nat} (k : Nat) (v : Fin n) : BitVec k := BitVec.ofNat k v.val

def scF (s : Scope) : BitVec 48 := xAt 36 s.code
def ordF (o : Ord) : BitVec 48 := xAt 34 o.code

def MmaF.x (f : MmaF) : BitVec 48 :=
  xAt 43 f.t.code ||| xAt 42 (finBits 1 f.slot) ||| xAt 41 (BitVec.ofBool f.half) ||| xAt 38 (finBits 3 f.kb)
    ||| xAt 35 (finBits 3 f.n1) ||| xAt 30 (finBits 5 f.rg) ||| xAt 25 (finBits 5 f.ng1) ||| xAt 24 (BitVec.ofBool f.both)

def netF (o : Ord) (sp : BitVec 8) (cl : Fin 8) : BitVec 48 :=
  scF .sys ||| ordF o ||| xAt 24 sp ||| xAt 21 (finBits 3 cl)

def accFn (acc : Bool) : Nat := if acc then 1 else 0
def negFn (na nb nr : Bool) : Nat := na.toNat + 2 * nb.toNat + 4 * nr.toNat

def encMma (op : Nat) (s : MmaSrc) (f : MmaF) (d : FDst) (a : Fin 4) : Option Raw :=
  match s with
  | .feed => enc op 0 d.spec (specOf 0xA0 a) ff ff f.x
  | .reg v => enc op 1 d.spec (specOf 0xA0 a) (specOf 0x40 v) ff f.x
  | .regs v c => enc op 2 d.spec (specOf 0xA0 a) (specOf 0x40 v) (specOf 0x40 c) f.x

/-- The fields of the word of an instruction under ?p0; none for an event of the machine. -/
def encRaw : Instr → Option Raw
  | .add t sat d a b => enc 1 0 d.spec a.spec b.spec ff (regF (qTS t sat) [a, b])
  | .sub t sat d a b => enc 2 0 d.spec a.spec b.spec ff (regF (qTS t sat) [a, b])
  | .mul t sat d a b => enc 3 0 d.spec a.spec b.spec ff (regF (qTS t sat) [a, b])
  | .mulh t d a b => enc 4 0 d.spec a.spec b.spec ff (regF (qT t) [a, b])
  | .madd t sat d a b c => enc 5 0 d.spec a.spec b.spec c.spec (regF (qTS t sat) [a, b, c])
  | .div t sat d a b => enc 6 0 d.spec a.spec b.spec ff (regF (qTS t sat) [a, b])
  | .rem t d a b => enc 7 0 d.spec a.spec b.spec ff (regF (qT t) [a, b])
  | .abs t sat d a => enc 8 0 d.spec a.spec ff ff (regF (qTS t sat) [a])
  | .min t d a b => enc 9 0 d.spec a.spec b.spec ff (regF (qT t) [a, b])
  | .max t d a b => enc 10 0 d.spec a.spec b.spec ff (regF (qT t) [a, b])
  | .and t d a b => enc 11 0 d.spec a.spec b.spec ff (regF (qT t) [a, b])
  | .or t d a b => enc 12 0 d.spec a.spec b.spec ff (regF (qT t) [a, b])
  | .xor t d a b => enc 13 0 d.spec a.spec b.spec ff (regF (qT t) [a, b])
  | .andn t d a b => enc 14 0 d.spec a.spec b.spec ff (regF (qT t) [a, b])
  | .shl t sat d a b => enc 15 0 d.spec a.spec b.spec ff (regF (qTS t sat) [a, b])
  | .shr t d a b => enc 16 0 d.spec a.spec b.spec ff (regF (qT t) [a, b])
  | .sar t d a b => enc 17 0 d.spec a.spec b.spec ff (regF (qT t) [a, b])
  | .rot t d a b => enc 18 0 d.spec a.spec b.spec ff (regF (qT t) [a, b])
  | .clz t d a => enc 19 0 d.spec a.spec ff ff (regF (qT t) [a])
  | .ctz t d a => enc 20 0 d.spec a.spec ff ff (regF (qT t) [a])
  | .popc t d a => enc 21 0 d.spec a.spec ff ff (regF (qT t) [a])
  | .brev t d a => enc 22 0 d.spec a.spec ff ff (regF (qT t) [a])
  | .bswap t d a => enc 23 0 d.spec a.spec ff ff (regF (qT t) [a])
  | .bext t d a b => enc 24 0 d.spec a.spec b.spec ff (regF (qT t) [a, b])
  | .bins d a b c => enc 0x19 0 d.spec a.spec b.spec c.spec (regF q0 [a, b, c])
  | .sext t d a => enc 26 0 d.spec a.spec ff ff (regF (qT t) [a])
  | .zext t d a => enc 27 0 d.spec a.spec ff ff (regF (qT t) [a])
  | .mov t d a => enc 0x1C 0 d.spec a.spec ff ff (regF (qT t) (movImm a))
  | .movi d imm => enc 0x1D 0 d.spec ff (imm.extractLsb' 56 8) (imm.extractLsb' 48 8) (imm.extractLsb' 0 48)
  | .lea t d m idx => enc 0x1E 0 d.spec m.base.spec (optSRegSpec idx) ff ((qT t).x m.disp)
  | .setc cnd t d a b => enc 0x1F cnd.code.toNat d.spec a.spec b.spec ff (regF (qT t) [a, b])
  | .cvt t u rnd sat d a => enc 0x20 0 d.spec a.spec ff (u.code.setWidth 8) (regF (qTRS t rnd sat) [a])
  | .cmp cnd t d a b => enc 0x21 cnd.code.toNat (specOf 0xB8 d) a.spec b.spec ff (regF (qT t) [a, b])
  | .pand na nb nr d a b => enc 34 (negFn na nb nr) (specOf 0xB8 d) (specOf 0xB8 a) (specOf 0xB8 b) ff 0
  | .por na nb nr d a b => enc 35 (negFn na nb nr) (specOf 0xB8 d) (specOf 0xB8 a) (specOf 0xB8 b) ff 0
  | .pxor na nb nr d a b => enc 36 (negFn na nb nr) (specOf 0xB8 d) (specOf 0xB8 a) (specOf 0xB8 b) ff 0
  | .pmov neg (.pp d a) => enc 0x25 (accFn neg) (specOf 0xB8 d) (specOf 0xB8 a) ff ff 0
  | .pmov neg (.ps d a) => enc 0x25 (accFn neg) (specOf 0xB8 d) a.spec ff ff (regF q0 [a])
  | .pmov neg (.sp d a) => enc 0x25 (accFn neg) d.spec (specOf 0xB8 a) ff ff 0
  | .sel neg d a b p => enc 0x26 (accFn neg) d.spec a.spec b.spec (specOf 0xB8 p) (regF q0 [a, b])
  | .br tgt => enc 0x28 0 ff ff ff ff (tgt.x .i64)
  | .brc cnd t a b tgt => enc 0x29 cnd.code.toNat ff a.spec b.spec ff (tgt.x t)
  | .bri a => enc 0x2A 0 ff a.spec ff ff 0
  | .call tgt => enc 0x2B 0 ff ff ff ff (tgt.x .i64)
  | .calli a => enc 0x2C 0 ff a.spec ff ff 0
  | .tcall tgt => enc 0x2D 0 ff ff ff ff (tgt.x .i64)
  | .ret => enc 46 0 ff ff ff ff 0
  | .loop n a tgt => enc 0x2F n.val ff a.spec ff ff (tgt.x .i64)
  | .lbrk n => enc 0x30 n.val ff ff ff ff 0
  | .wspill a => enc 0x31 0 ff a.spec ff ff 0
  | .wfill a => enc 0x32 0 ff a.spec ff ff 0
  | .exit => enc 51 0 ff ff ff ff 0
  | .nop => enc 52 0 ff ff ff ff 0
  | .yield => enc 53 0 ff ff ff ff 0
  | .vadd t rnd sat d a b m => enc 64 0 d.spec a.spec b.spec (maskSpec m) (regF (qTRS t rnd sat) (bsrcImm b))
  | .vsub t rnd sat d a b m => enc 65 0 d.spec a.spec b.spec (maskSpec m) (regF (qTRS t rnd sat) (bsrcImm b))
  | .vmul t rnd sat d a b m => enc 66 0 d.spec a.spec b.spec (maskSpec m) (regF (qTRS t rnd sat) (bsrcImm b))
  | .vfma t rnd sat d a b m => enc 67 0 (specOf 0x40 d) a.spec b.spec (maskSpec m) (regF (qTRS t rnd sat) (bsrcImm b))
  | .vfms t rnd sat d a b m => enc 68 0 (specOf 0x40 d) a.spec b.spec (maskSpec m) (regF (qTRS t rnd sat) (bsrcImm b))
  | .vdiv t rnd sat d a b m => enc 69 0 d.spec a.spec b.spec (maskSpec m) (regF (qTRS t rnd sat) (bsrcImm b))
  | .vsqrt t rnd sat d a m => enc 70 0 d.spec a.spec ff (maskSpec m) (regF (qTRS t rnd sat) [])
  | .vmin t d a b m => enc 71 0 d.spec a.spec b.spec (maskSpec m) (regF (qT t) (bsrcImm b))
  | .vmax t d a b m => enc 72 0 d.spec a.spec b.spec (maskSpec m) (regF (qT t) (bsrcImm b))
  | .vabs t sat d a m => enc 73 0 d.spec a.spec ff (maskSpec m) (regF (qTS t sat) [])
  | .vneg t sat d a m => enc 74 0 d.spec a.spec ff (maskSpec m) (regF (qTS t sat) [])
  | .vand t d a b m => enc 75 0 d.spec a.spec b.spec (maskSpec m) (regF (qT t) (bsrcImm b))
  | .vor t d a b m => enc 76 0 d.spec a.spec b.spec (maskSpec m) (regF (qT t) (bsrcImm b))
  | .vxor t d a b m => enc 77 0 d.spec a.spec b.spec (maskSpec m) (regF (qT t) (bsrcImm b))
  | .vshl t sat d a b m => enc 78 0 d.spec a.spec b.spec (maskSpec m) (regF (qTS t sat) (bsrcImm b))
  | .vshr t d a b m => enc 79 0 d.spec a.spec b.spec (maskSpec m) (regF (qT t) (bsrcImm b))
  | .vsar t d a b m => enc 80 0 d.spec a.spec b.spec (maskSpec m) (regF (qT t) (bsrcImm b))
  | .vrcp t rnd sat d a m => enc 81 0 d.spec a.spec ff (maskSpec m) (regF (qTRS t rnd sat) [])
  | .vrsq t rnd sat d a m => enc 82 0 d.spec a.spec ff (maskSpec m) (regF (qTRS t rnd sat) [])
  | .vexp2 t rnd sat d a m => enc 83 0 d.spec a.spec ff (maskSpec m) (regF (qTRS t rnd sat) [])
  | .vlog2 t rnd sat d a m => enc 84 0 d.spec a.spec ff (maskSpec m) (regF (qTRS t rnd sat) [])
  | .vcmp cnd t d a b m => enc 0x55 cnd.code.toNat (specOf 0xB0 d) a.spec b.spec (maskSpec m) (regF (qT t) (bsrcImm b))
  | .vsel t d a b m => enc 0x56 0 d.spec a.spec b.spec (specOf 0xB0 m) (regF (qT t) (bsrcImm b))
  | .vshuf t d a b m => enc 0x57 0 d.spec a.spec b.spec (maskSpec m) (regF (qT t) [])
  | .vbcast t d a m => enc 0x58 0 d.spec a.spec ff (maskSpec m) (regF (qT t) (bsrcImm a))
  | .vlaneGet t d a b => enc 0x59 0 d.spec a.spec b.spec ff (regF (qT t) [b])
  | .vlanePut t d a b => enc 0x59 1 d.spec a.spec b.spec ff (regF (qT t) [a, b])
  | .vmov t d a m => enc 90 0 d.spec a.spec ff (maskSpec m) (regF (qT t) [])
  | .vsum acc t rnd sat d a m => enc 91 (accFn acc) d.spec a.spec ff (maskSpec m) (regF (qTRS t rnd sat) [])
  | .vrmax acc t rnd sat d a m => enc 92 (accFn acc) d.spec a.spec ff (maskSpec m) (regF (qTRS t rnd sat) [])
  | .vrmin acc t rnd sat d a m => enc 93 (accFn acc) d.spec a.spec ff (maskSpec m) (regF (qTRS t rnd sat) [])
  | .vdot acc t rnd sat d a b m => enc 0x5E (accFn acc) d.spec a.spec b.spec (maskSpec m) (regF (qTRS t rnd sat) [])
  | .vpack lo hi d a b => enc 0x5F (lo.val + 2 * hi.val) d.spec a.spec b.spec ff 0
  | .vunpk part d a => enc 0x60 part.val (specOf 0x40 d) a.spec ff ff 0
  | .vcvt part t u rnd sat d a => enc 0x61 part.val d.spec a.spec ff (u.code.setWidth 8) (regF (qTRS t rnd sat) [])
  | .vquant pos t rnd d a b c => enc 0x62 pos.val (specOf 0x40 d) a.spec b.spec c.spec (regF (qTRS t rnd false) [b])
  | .ld t rnd sat sc ord d m idx => enc 0x63 0 d.spec m.base.spec (optSRegSpec idx) ff ((⟨t, rnd, sat, sc, ord⟩ : Qual).x m.disp)
  | .st t rnd sat sc ord m idx c => enc 0x64 0 ff m.base.spec (optSRegSpec idx) c.spec ((⟨t, rnd, sat, sc, ord⟩ : Qual).x m.disp)
  | .vld t rnd sat sc ord d m idx k => enc 0x65 0 d.spec m.base.spec (optSRegSpec idx) (maskSpec k) ((⟨t, rnd, sat, sc, ord⟩ : Qual).x m.disp)
  | .vst t rnd sat sc ord m idx c => enc 0x66 0 ff m.base.spec (optSRegSpec idx) c.spec ((⟨t, rnd, sat, sc, ord⟩ : Qual).x m.disp)
  | .vqst rnd sc ord m b c => enc 0x67 0 ff m.base.spec b.spec c.spec ((⟨.f, rnd, false, sc, ord⟩ : Qual).x m.disp)
  | .vgath t rnd sat sc ord d m b k => enc 0x68 0 d.spec m.base.spec b.spec (maskSpec k) ((⟨t, rnd, sat, sc, ord⟩ : Qual).x m.disp)
  | .vscat t rnd sat sc ord k m b c => enc 0x69 0 (maskSpec k) m.base.spec b.spec c.spec ((⟨t, rnd, sat, sc, ord⟩ : Qual).x m.disp)
  | .sbind wr t rnd sat sc d a b c => enc 0x6A (accFn wr) (specOf 0x80 d) a.spec b.spec c.spec (regF ⟨t, rnd, sat, sc, .rlx⟩ [a, b, c])
  | .sfree q => enc 0x6B 0 ff (specOf 0x80 q) ff ff 0
  | .sseek q b c => enc 0x6C 0 ff (specOf 0x80 q) b.spec c.spec (regF q0 [b, c])
  | .sstatPos d q => enc 0x6D 0 d.spec (specOf 0x80 q) ff ff 0
  | .sstatCfg d q => enc 0x6D 1 d.spec (specOf 0x80 q) ff ff 0
  | .sstatBase d q => enc 0x6D 2 d.spec (specOf 0x80 q) ff ff 0
  | .sflush sc ord q => enc 0x6E 0 ff (specOf 0x80 q) ff ff (regF { q0 with sc := sc, ord := ord } [])
  | .tlook d a => enc 111 0 d.spec a.spec ff ff (regF (q0) [a])
  | .tset a b c => enc 0x70 0 ff a.spec b.spec c.spec (regF q0 [a, b, c])
  | .tinvEnt a => enc 113 0 ff a.spec ff ff (regF q0 [a])
  | .tinvTag a => enc 113 1 ff a.spec ff ff (regF q0 [a])
  | .tinvAll => enc 0x71 2 ff ff ff ff 0
  | .mrow rows n1 ng1 d a b => enc 0x80 0 d.spec a.spec b.spec ff (xAt 41 (finBits 2 rows) ||| xAt 35 (finBits 3 n1) ||| xAt 25 (finBits 5 ng1))
  | .mgeom unf attr d a b c => enc 0x81 (accFn unf) d.spec a.spec b.spec c.spec (xAt 0 attr)
  | .mslab attr slot cols1 d a b => enc 0x82 0 d.spec a.spec b.spec ff (xAt 42 (finBits 1 slot) ||| xAt 36 (finBits 5 cols1) ||| xAt 0 attr)
  | .mma src f d a => encMma 0x83 src f d a
  | .mmas src f d a => encMma 0x84 src f d a
  | .mzero rows1 wide d a => enc 0x85 0 d.spec (specOf 0xA0 a) ff ff (xAt 34 (finBits 7 rows1) ||| xAt 33 (BitVec.ofBool wide))
  | .mread row grp d a b => enc 0x86 0 (specOf 0x40 d) (specOf 0xA0 a) b.spec ff (xAt 34 (finBits 7 row) ||| xAt 30 (finBits 2 grp))
  | .mwrite row grp d a b c => enc 0x87 0 d.spec (specOf 0xA0 a) (specOf 0x40 b) c.spec (xAt 34 (finBits 7 row) ||| xAt 30 (finBits 2 grp))
  | .mquant t rnd sat sc sbexp d a b c => enc 0x88 0 d.spec (specOf 0xA0 a) b.spec c.spec (xAt 43 t.code ||| xAt 40 rnd.code ||| xAt 39 (BitVec.ofBool sat) ||| scF sc ||| xAt 26 sbexp)
  | .skeep d a b => enc 137 0 d.spec a.spec b.spec ff 0
  | .mscale d a b => enc 138 0 d.spec a.spec b.spec ff 0
  | .mmerge d a b => enc 0x8B 0 d.spec (specOf 0xA0 a) (specOf 0xA0 b) ff 0
  | .mtrans col grp d a b => enc 0x8C 0 (specOf 0x40 d) (specOf 0xA0 a) b.spec ff (xAt 34 (finBits 6 col) ||| xAt 29 (finBits 3 grp))
  | .mlink role d => enc 0x8D role.code.toNat d.spec ff ff ff 0
  | .mstatEng d => enc 0x8E 0 d.spec ff ff ff 0
  | .mstatTile d a => enc 0x8E 1 d.spec (specOf 0xA0 a) ff ff 0
  | .mwait => enc 143 0 ff ff ff ff 0
  | .cpyMem comb sc d a b c => enc 0x90 0 d.spec a.spec b.spec c.spec (xAt 39 (BitVec.ofBool comb) ||| scF sc)
  | .cpyRing sc d k b c => enc 0x90 1 d.spec (specOf 0x90 k) b.spec c.spec (scF sc)
  | .cpy2d out comb sc rb1 rows1 d a b c => enc 0x91 (accFn out) d.spec a.spec b.spec c.spec (xAt 39 (BitVec.ofBool comb) ||| scF sc ||| xAt 16 rb1 ||| xAt 0 rows1)
  | .cpyg sc e n1 d a b c => enc 146 0 d.spec a.spec b.spec c.spec (scF sc ||| xAt 16 (finBits 4 e) ||| xAt 0 n1)
  | .cpys sc e n1 d a b c => enc 147 0 d.spec a.spec b.spec c.spec (scF sc ||| xAt 16 (finBits 4 e) ||| xAt 0 n1)
  | .cpyf sc w d a b c => enc 0x94 0 d.spec a.spec b.spec c.spec (scF sc ||| xAt 0 (finBits 2 w))
  | .fwait d a => enc 0x95 0 d.spec a.spec ff ff 0
  | .ftest d a => enc 0x96 0 (specOf 0xB8 d) a.spec ff ff 0
  | .fcancel a => enc 0x97 0 ff a.spec ff ff 0
  | .fpass d a => enc 0x98 0 d.spec a.spec ff ff 0
  | .fany d a => enc 153 0 d.spec a.spec ff ff (regF (q0) [a])
  | .kinitOwn k a b => enc 0x9A 0 (specOf 0x90 k) a.spec b.spec ff (regF q0 [a, b])
  | .kinitPeer k a b => enc 0x9A 1 (specOf 0x90 k) a.spec b.spec ff (regF q0 [a, b])
  | .kwaitFill d k b => enc 0x9B 0 d.spec (specOf 0x90 k) b.spec ff (regF q0 [b])
  | .kwaitFree d k b => enc 0x9B 1 d.spec (specOf 0x90 k) b.spec ff (regF q0 [b])
  | .kfree k => enc 0x9C 0 ff (specOf 0x90 k) ff ff 0
  | .kadvFill k b => enc 0x9D 0 ff (specOf 0x90 k) b.spec ff (regF q0 [b])
  | .kadvDrain k b => enc 0x9D 1 ff (specOf 0x90 k) b.spec ff (regF q0 [b])
  | .hread v sc d a b c => (match v with | .one => enc 0x9E 0 d.spec a.spec b.spec c.spec (scF sc) | .two p => enc 0x9E 1 d.spec a.spec b.spec c.spec (scF sc ||| xAt 0 p))
  | .hret => enc 159 0 ff ff ff ff 0
  | .msendQ sc ord d a b => enc 0xA0 0 d.spec a.spec (specOf 0x40 b) ff (scF sc ||| ordF ord)
  | .msendDep sc ord g d a b => enc 0xA0 1 d.spec a.spec b.spec ff (scF sc ||| ordF ord ||| xAt 0 (finBits 3 g))
  | .msendSpec sc ord d a b => enc 0xA0 2 d.spec a.spec (specOf 0x40 b) ff (scF sc ||| ordF ord)
  | .mcommit => enc 161 0 ff ff ff ff 0
  | .mabort => enc 162 0 ff ff ff ff 0
  | .mrecvPop sc ord d => enc 0xA3 0 (specOf 0x40 d) ff ff ff (regF { q0 with sc := sc, ord := ord } [])
  | .mrecvCnt d => enc 0xA3 1 d.spec ff ff ff 0
  | .amoAdd t sc ord d m b => enc 0xA4 0 d.spec m.base.spec b.spec ff ((⟨t, .rne, false, sc, ord⟩ : Qual).x m.disp)
  | .amoAnd t sc ord d m b => enc 0xA4 1 d.spec m.base.spec b.spec ff ((⟨t, .rne, false, sc, ord⟩ : Qual).x m.disp)
  | .amoOr t sc ord d m b => enc 0xA4 2 d.spec m.base.spec b.spec ff ((⟨t, .rne, false, sc, ord⟩ : Qual).x m.disp)
  | .amoXor t sc ord d m b => enc 0xA4 3 d.spec m.base.spec b.spec ff ((⟨t, .rne, false, sc, ord⟩ : Qual).x m.disp)
  | .amoMin t sc ord d m b => enc 0xA4 4 d.spec m.base.spec b.spec ff ((⟨t, .rne, false, sc, ord⟩ : Qual).x m.disp)
  | .amoMax t sc ord d m b => enc 0xA4 5 d.spec m.base.spec b.spec ff ((⟨t, .rne, false, sc, ord⟩ : Qual).x m.disp)
  | .amoSwap t sc ord d m b => enc 0xA4 6 d.spec m.base.spec b.spec ff ((⟨t, .rne, false, sc, ord⟩ : Qual).x m.disp)
  | .amoFadd rnd sc ord d m b => enc 0xA4 7 d.spec m.base.spec b.spec ff ((⟨.f, rnd, false, sc, ord⟩ : Qual).x m.disp)
  | .cas t sc ord d m b c => enc 0xA5 0 d.spec m.base.spec b.spec c.spec ((⟨t, .rne, false, sc, ord⟩ : Qual).x m.disp)
  | .fence sc ord => enc 0xA6 0 ff ff ff ff (regF { q0 with sc := sc, ord := ord } [])
  | .barm n a => enc 0xA7 n.val ff a.spec ff ff (regF q0 [a])
  | .barr n sc d => enc 0xA8 n.val d.spec ff ff ff (regF { q0 with sc := sc } [])
  | .barw n sc => enc 0xA9 n.val ff ff ff ff (regF { q0 with sc := sc } [])
  | .wfe => enc 170 0 ff ff ff ff 0
  | .sevCore => enc 0xAB 0 ff ff ff ff 0
  | .sevThr a => enc 171 1 ff a.spec ff ff (regF q0 [a])
  | .gang d a b => enc 0xAC 0 d.spec a.spec b.spec ff 0
  | .gdetach => enc 173 0 ff ff ff ff 0
  | .gjoin => enc 174 0 ff ff ff ff 0
  | .rld t sc ord d m b => enc 0xAF 0 d.spec m.base.spec b.spec ff ((⟨t, .rne, false, sc, ord⟩ : Qual).x m.disp)
  | .rst t sc ord m b c => enc 0xB0 0 ff m.base.spec b.spec c.spec ((⟨t, .rne, false, sc, ord⟩ : Qual).x m.disp)
  | .nsend spray cls d a b => enc 0xB1 0 d.spec a.spec b.spec ff (netF .rlx spray cls)
  | .nput ord spray cls d a b c => enc 0xB2 0 d.spec a.spec b.spec c.spec (netF ord spray cls)
  | .nget ord spray cls d a b c => enc 0xB3 0 d.spec a.spec b.spec c.spec (netF ord spray cls)
  | .ncoll spray cls d a b => enc 0xB4 0 d.spec a.spec b.spec ff (netF .rlx spray cls)
  | .nstatPkts d a => enc 181 0 d.spec a.spec ff ff (regF (q0) [a])
  | .nstatMarks d a => enc 181 1 d.spec a.spec ff ff (regF (q0) [a])
  | .nstatRetx d a => enc 181 2 d.spec a.spec ff ff (regF (q0) [a])
  | .nstatRtt d a => enc 181 3 d.spec a.spec ff ff (regF (q0) [a])
  | .sysr d a => enc 192 0 d.spec a.spec ff ff (regF (q0) [a])
  | .sysw a b => enc 0xC1 0 ff a.spec b.spec ff (regF q0 [a, b])
  | .tret => enc 194 0 ff ff ff ff 0
  | .trap a => enc 195 0 ff a.spec ff ff (regF q0 [a])
  | .phintPt off => enc 0xC4 0 ff immSpec ff ff (q0.x off)
  | .phintTest d => enc 0xC4 1 (specOf 0xB8 d) ff ff ff 0
  | .heatAck => enc 0xC5 0 ff ff ff ff 0
  | .heatCap a => enc 197 1 ff a.spec ff ff (regF q0 [a])
  | .heatUncap => enc 0xC5 2 ff ff ff ff 0
  | .wpres d a b => enc 198 0 d.spec a.spec b.spec ff (regF q0 [a, b])
  | .wsplit d a b => enc 199 0 d.spec a.spec b.spec ff (regF q0 [a, b])
  | .wdeleg d a b => enc 200 0 d.spec a.spec b.spec ff (regF q0 [a, b])
  | .wsurr d a => enc 201 0 d.spec a.spec ff ff (regF (q0) [a])
  | .wqryState d a => enc 202 0 d.spec a.spec ff ff (regF (q0) [a])
  | .wqryAmt d a => enc 202 1 d.spec a.spec ff ff (regF (q0) [a])
  | .wqryUsed d a => enc 202 2 d.spec a.spec ff ff (regF (q0) [a])
  | .wqrySerial d a => enc 202 3 d.spec a.spec ff ff (regF (q0) [a])
  | .wqryCtx d a => enc 202 4 d.spec a.spec ff ff (regF (q0) [a])
  | .wqryArg d a => enc 202 5 d.spec a.spec ff ff (regF (q0) [a])
  | .wtimeLo d => enc 0xCB 0 d.spec ff ff ff 0
  | .wtimeHi d => enc 0xCB 1 d.spec ff ff ff 0
  | .wtimeAge d => enc 0xCB 2 d.spec ff ff ff 0
  | .xinv d a b => enc 204 0 d.spec a.spec b.spec ff (regF q0 [a, b])
  | .xprobe d a => enc 205 0 d.spec a.spec ff ff (regF (q0) [a])
  | .xmapNew d a b c => enc 0xCE 0 d.spec a.spec b.spec c.spec (regF q0 [a, b, c])
  | .xmapAttr d a b c => enc 0xCE 1 d.spec a.spec b.spec c.spec (regF q0 [a, b, c])
  | .xunmap d a b => enc 207 0 d.spec a.spec b.spec ff (regF q0 [a, b])
  | .svsave d a b => enc 208 0 d.spec a.spec b.spec ff (regF q0 [a, b])
  | .svload d a b => enc 209 0 d.spec a.spec b.spec ff (regF q0 [a, b])
  | .svsize d a => enc 210 0 d.spec a.spec ff ff (regF (q0) [a])
  | .dbrk => enc 211 0 ff ff ff ff 0
  | .dstep => enc 212 0 ff ff ff ff 0
  | .cmark d a => enc 213 0 d.spec a.spec ff ff (regF (q0) [a])
  | .hnote d => enc 0xD6 0 d.spec ff ff ff 0
  | .idle => enc 215 0 ff ff ff ff 0
  | .heatNoticeInterrupt _ _ _ => none
  | .warrantEventInterrupt _ _ _ => none
  | .copyExecution _ _ => none
  | .copyCompletion _ _ => none
  | .ringCopySlotClaim _ _ => none
  | .matrixCommandExecution _ => none
  | .matrixStep _ => none
  | .matrixCommandCompletion _ => none
  | .laneBlockTransfer _ => none
  | .burstDelivery _ _ _ _ => none
  | .eddyBirth _ => none
  | .lastBurstEvent _ _ _ => none
  | .combiningGroupClose _ _ => none
  | .multicast _ _ => none
  | .message _ => none
  | .refuse _ => none
  | .mailboxDelivery _ => none
  | .readReq _ => none
  | .writeReq _ => none
  | .atomicReq _ => none
  | .probeReq _ => none
  | .echoReq _ => none
  | .dataReq _ => none
  | .ackReq _ => none
  | .linkWord _ => none
  | .barrierArrival _ => none
  | .barrierRelease _ => none
  | .gangForward _ => none
  | .windowUpdate _ => none
  | .walkCompletion _ => none
  | .retryLatchReissue _ _ _ => none
  | .storageReadCompletion _ _ => none
  | .storageEviction => none
  | .storageLost _ => none
  | .swapOut _ _ => none
  | .preemptionDeadline _ _ => none
  | .taskCompletion _ _ => none
  | .coreGoesDark _ _ => none
  | .launchEnd _ => none
  | .taskPlacement _ _ _ => none
  | .contextEnd _ => none
  | .retirement _ => none
  | .boundUnproved _ => none
  | .present _ => none
  | .timeNonce _ => none
  | .timeNote _ => none
  | .receiptNonce _ => none
  | .receiptRequest _ => none
  | .graphStatus _ => none
  | .slotBindingLapse _ => none
  | .receiptNonceExpiry => none
  | .commitNote _ _ _ _ => none
  | .commitAcknowledgement _ _ => none
  | .commitTimeout _ => none
  | .releaseNote _ _ _ _ => none
  | .warrantOperationCompletion _ => none
  | .bindStart _ => none
  | .bindResume _ => none
  | .bindUnbind _ => none
  | .bindRecordApply _ => none
  | .registerWrite _ _ => none
  | .pwake _ _ => none
  | .sensorReading _ _ => none
  | .heatAction _ => none
  | .drift _ => none
  | .modulePowerSense _ => none
  | .coldPlateAlarm _ _ => none
  | .rowVoltageReached _ => none
  | .ratioChange _ => none
  | .wake _ => none
  | .switchOnComplete _ => none
  | .holdExpiry _ => none
  | .leeBankRetention _ _ => none
  | .wakeWrite _ _ _ _ _ => none
  | .queueBind _ _ _ => none
  | .queueUnmap _ _ => none
  | .lookAhead _ _ => none
  | .launch _ _ => none
  | .map _ _ => none
  | .unmap _ _ => none
  | .callPacket _ _ => none
  | .join _ _ => none
  | .signal _ _ => none
  | .packetCompletion _ _ => none
  | .atsTranslationResponse _ _ _ _ _ => none
  | .prgResponse _ _ _ _ => none
  | .pageRequestTimeout _ _ _ => none
  | .invalidateRequest _ _ _ _ => none
  | .tdiLeavesRun _ => none
  | .conventionalReset => none
  | .functionLevelReset _ => none
  | .spdmMeasurements _ => none
  | .putPlacement _ _ _ _ _ _ => none
  | .sendPlacement _ _ _ _ _ => none
  | .getService _ _ _ _ _ _ => none
  | .networkAcknowledgement _ _ _ _ _ _ _ => none
  | .packetLoss _ _ _ => none
  | .collectivePartial _ _ _ _ => none
  | .networkCommandCompletion _ _ => none
  | .frame _ _ _ _ _ => none
  | .rekey _ => none
  | .claim _ _ _ => none
  | .electionClose => none
  | .handover _ _ => none
  | .handoverTimeout => none
  | .sessionTimeout _ => none
  | .release _ => none
  | .keyLoad _ _ _ => none
  | .keyUnload _ _ => none
  | .ownerSet _ _ => none
  | .config _ _ _ _ _ _ _ => none
  | .drive _ _ => none
  | .fwLoad _ _ _ _ _ => none
  | .fwCommit _ => none
  | .capture _ _ _ => none
  | .captureRead _ _ => none
  | .replay _ _ _ => none
  | .status _ => none
  | .powerGood => none
  | .moduleReset => none
  | .storageWriteCompletion _ => none
  | .rotationPeriod => none
  | .tdispRequest _ _ => none
  | .ideKmMessage _ => none
  | .spdmSession _ _ => none
  | .presentationSlotWrite _ _ _ _ => none
  | .replayInput _ => none

/-- The word of a slot. -/
def encode (s : Slot) : Option IWord :=
  (encRaw s.instr).map fun r => { r with pn := s.pn, pr := s.pr }.toWord

/-- The host's reading of one table row: the decoder on a word given by its bits; bits at and above `nbits` are zero. The
slot's predicate is no part of the answer. -/
def decodeTableWord (nbits w : Nat) : Option Instr :=
  match decode (BitVec.ofNat 96 (w % 2 ^ nbits)) with
  | .ok s => some s.instr
  | .error _ => none

end Sys2Proof
end

