-- ==== Sys2Proof/Config.lean ====
section
/-! DEFINITION. What one implementation fixes and the manual leaves open: the free values (no body, so nothing can lean on
them) and the standard functions the manual names without defining. -/
namespace Sys2Proof.Config

/-- A 64-bit value the manual leaves undefined, the n-th asked for in a run (log 12). -/
opaque freeWord : Nat → Word
/-- A nonce, key or other secret drawn by the device, the n-th asked for (log 13). -/
opaque freeSecret : Nat → Nat
/-- SHAKE256 with a 32-byte output, over bytes (FIPS 202; log 14). -/
opaque shake256 : List Byte → List Byte
/-- ML-DSA-65 verification: key, message, signature (FIPS 204; log 14). -/
opaque mldsaVerify : List Byte → List Byte → List Byte → Bool
/-- A signature made with the device's own key (log 14). -/
opaque mldsaSign : List Byte → List Byte
/-- AES-XTS-256 encryption of a 64-byte line: key, tweak, plaintext (R474; log 14). -/
opaque aesXts : BitVec 512 → Nat → List Byte → List Byte
/-- Scr of R473: the word that masks an array location under a scrambler key (log 14). -/
opaque scramble : BitVec 128 → Nat → BitVec 64
/-- The sealing of a chunk of a capture stream to an operator key (R494; log 14). -/
opaque sealChunk : Nat → List Byte → List Byte
/-- The public key of this device's own key pair (R485; log 13). -/
opaque deviceKey : List Byte
/-- The digests of the boot ROM and of the image the module left the factory with (R487; log 13). -/
opaque bootDigest : List Byte
opaque firmwareDigest : List Byte
/-- The digest of the firmware authority key fused into the device (R485, R486; log 13). -/
opaque firmwareKeyDigest : List Byte

end Sys2Proof.Config
end

