-- ==== Sys2Proof/Machine/Num.lean ====
section
/-! DEFINITION. Numbers (R100 to R131): exact values, the formats of Tables 3-2 and 3-3, the block scale, rounding once
(R116 to R118), conversions (R120 to R123), the quantiser (R124, R125, R511), the arithmetic of floating lanes, the correctly
rounded functions of R119, and the reduction tree of R127. -/
namespace Sys2Proof.Machine

/-! ### The sticky flags (Table 1-6), as bits of flags 7:0 -/

abbrev Fl := BitVec 8
def Fl.nx : Fl := 0x01
def Fl.uf : Fl := 0x02
def Fl.of : Fl := 0x04
def Fl.dz : Fl := 0x08
def Fl.nv : Fl := 0x10
def Fl.qs : Fl := 0x20
def Fl.is : Fl := 0x40
def Fl.gt : Fl := 0x80
def Fl.when (b : Bool) (f : Fl) : Fl := if b then f else 0

/-! ### Exact values -/

/-- What a code denotes: NaN, an infinity, a signed zero, or a nonzero rational (R102). -/
inductive Val where
  | nan | inf (neg : Bool) | zero (neg : Bool) | num (q : Rat)
  deriving DecidableEq, Repr

/-- 2^e for an integer e. -/
def pow2 : Int → Rat
  | .ofNat n => mkRat (2 ^ n) 1
  | .negSucc n => mkRat 1 (2 ^ (n + 1))

def ratAbs (q : Rat) : Rat := if q < 0 then -q else q

/-- The value of a rational, zero taken as +0.0. -/
def Val.ofRat (q : Rat) : Val := if q = 0 then .zero false else .num q

def Val.ofInt (n : Int) : Val := .ofRat (mkRat n 1)

def Val.neg? : Val → Bool
  | .nan => false | .inf s => s | .zero s => s | .num q => q < 0

def Val.neg : Val → Val
  | .nan => .nan | .inf s => .inf (!s) | .zero s => .zero (!s) | .num q => .num (-q)

def Val.isNan : Val → Bool
  | .nan => true | _ => false

/-- ⌊log₂ a⌋ of a positive rational. -/
def ratLog2 (a : Rat) : Int :=
  let e := (a.num.natAbs.log2 : Int) - (a.den.log2 : Int)
  if a < pow2 e then e - 1 else e

/-- A non-negative rational rounded to an integer as the magnitude of a value of sign `neg` (R116). -/
def roundMag (rm : Rnd) (neg : Bool) (s : Rat) : Nat :=
  let n := s.floor.toNat
  let r := s - mkRat n 1
  let up := match rm with
    | .rne => mkRat 1 2 < r || (r == mkRat 1 2 && n % 2 == 1)
    | .rna => !(r < mkRat 1 2)
    | .rtz => false
    | .rdn => neg && r != 0
    | .rup => !neg && r != 0
  if up then n + 1 else n

/-! ### Floating formats (Table 3-2) -/

/-- Exponent and mantissa widths, bias, whether there is an infinity, and the largest finite code. -/
structure Fmt where
  eb : Nat
  mb : Nat
  bias : Nat
  hasInf : Bool
  maxCode : Nat

def Fmt.of : Ty → Fmt
  | .f => ⟨8, 23, 127, true, 0x7F7FFFFF⟩
  | .bf => ⟨8, 7, 127, true, 0x7F7F⟩
  | .h => ⟨5, 10, 15, true, 0x7BFF⟩
  | .e4m3 => ⟨4, 3, 7, false, 0x7E⟩
  | .e5m2 => ⟨5, 2, 15, true, 0x7B⟩
  | .e3m2 => ⟨3, 2, 3, false, 0x1F⟩
  | .e2m3 => ⟨2, 3, 1, false, 0x1F⟩
  | _ => ⟨8, 23, 127, true, 0x7F7FFFFF⟩

def Fmt.width (f : Fmt) : Nat := 1 + f.eb + f.mb

/-- The magnitude of a code without its sign bit (R102). -/
def Fmt.mag (f : Fmt) (c : Nat) : Rat :=
  let e := c / 2 ^ f.mb
  let m := c % 2 ^ f.mb
  if e = 0 then mkRat m 1 * pow2 (1 - (f.bias : Int) - f.mb)
  else mkRat (2 ^ f.mb + m) 1 * pow2 ((e : Int) - f.bias - f.mb)

def Fmt.maxMag (f : Fmt) : Rat := f.mag f.maxCode

/-- Canonical NaN of a format (R103); of a format without NaN, +0.0 (R121). -/
def canonNan : Ty → Nat
  | .f => 0x7FC00000 | .bf => 0x7FC0 | .h => 0x7E00 | .e4m3 => 0x7F | .e5m2 => 0x7E | _ => 0

/-- The QN4 codebook (Table 3-3) in units of 2⁻⁶. -/
def cb : Nat → Int
  | 0 => -64 | 1 => -44 | 2 => -32 | 3 => -24 | 4 => -18 | 5 => -12 | 6 => -6 | 7 => 0
  | 8 => 5 | 9 => 10 | 10 => 16 | 11 => 22 | 12 => 28 | 13 => 36 | 14 => 48 | _ => 64

/-- The value of a UE5M3 block scale (R106). -/
def s8Val (c : Nat) : Val :=
  if c = 0xFF then .nan
  else if c / 8 = 0 then .ofRat (mkRat (c % 8) 1 * pow2 (-17))
  else .num (mkRat (8 + c % 8) 1 * pow2 ((c / 8 : Nat) - 18))

/-- The value of the low width(t) bits of a code (R100, R102, R105, R106). -/
def valueOf (t : Ty) (code : Nat) : Val :=
  let c := code % 2 ^ t.width
  match t with
  | .i64 | .i32 | .i16 | .i8 =>
    .ofInt (if c < 2 ^ (t.width - 1) then (c : Int) else (c : Int) - 2 ^ t.width)
  | .n64 | .n32 | .n16 | .n8 => .ofInt c
  | .q4 => .ofRat (mkRat (cb c) 64)
  | .s8 => s8Val c
  | .f | .bf | .h | .e5m2 =>
    let f := Fmt.of t
    let neg := c / 2 ^ (t.width - 1) == 1
    let m := c % 2 ^ (t.width - 1)
    if m / 2 ^ f.mb = 2 ^ f.eb - 1 then (if m % 2 ^ f.mb = 0 then .inf neg else .nan)
    else if m = 0 then .zero neg
    else .num (if neg then -(f.mag m) else f.mag m)
  | .e4m3 | .e3m2 | .e2m3 =>
    let f := Fmt.of t
    let neg := c / 2 ^ (t.width - 1) == 1
    let m := c % 2 ^ (t.width - 1)
    if t = .e4m3 ∧ m = 0x7F then .nan
    else if m = 0 then .zero neg
    else .num (if neg then -(f.mag m) else f.mag m)

/-- A signalling NaN: FP32, BF16 or FP16 with the top fraction bit clear (R103). -/
def isSnan (t : Ty) (code : Nat) : Bool :=
  match t with
  | .f | .bf | .h => (valueOf t code).isNan && (code / 2 ^ ((Fmt.of t).mb - 1)) % 2 == 0
  | _ => false

/-- flags.nv of an input pattern (R103). -/
def snanFl (t : Ty) (code : Nat) : Fl := Fl.when (isSnan t code) Fl.nv

/-! ### Rounding into a floating format (R116 to R118, R121) -/

def signBit (t : Ty) (neg : Bool) : Nat := if neg then 2 ^ (t.width - 1) else 0

/-- The result of an overflow (R117). -/
def overflowCode (t : Ty) (rm : Rnd) (sat neg : Bool) : Nat :=
  let f := Fmt.of t
  let infCode := (2 ^ f.eb - 1) * 2 ^ f.mb
  let mag :=
    if t = .e4m3 then (if sat then f.maxCode else 0x7F)
    else if !f.hasInf || sat then f.maxCode
    else match rm with
      | .rne | .rna => infCode
      | .rtz => f.maxCode
      | .rdn => if neg then infCode else f.maxCode
      | .rup => if neg then f.maxCode else infCode
  signBit t neg + mag

/-- A nonzero exact value rounded once into a floating format. -/
def roundNum (t : Ty) (rm : Rnd) (sat : Bool) (q : Rat) : Nat × Fl :=
  let f := Fmt.of t
  let neg := decide (q < 0)
  let a := ratAbs q
  let e := ratLog2 a
  let emin : Int := 1 - (f.bias : Int)
  let e' := max e emin
  let n := roundMag rm neg (a * pow2 ((f.mb : Int) - e'))
  let r := mkRat n 1 * pow2 (e' - f.mb)
  let nu := roundMag rm neg (a * pow2 ((f.mb : Int) - e))
  let ru := mkRat nu 1 * pow2 (e - f.mb)
  if f.maxMag < ru && f.maxMag < r then (overflowCode t rm sat neg, Fl.of ||| Fl.nx)
  else
    let inexact := r != a
    let tiny := ru < pow2 emin
    (signBit t neg + (n + (e' - emin).toNat * 2 ^ f.mb), Fl.when inexact Fl.nx ||| Fl.when (inexact && tiny) Fl.uf)

/-- A value written in a floating format (R116 to R118, R121). -/
def roundF (t : Ty) (rm : Rnd) (sat : Bool) : Val → Nat × Fl
  | .nan => (canonNan t, Fl.when (t == .e3m2 || t == .e2m3) Fl.nv)
  | .inf neg =>
    let f := Fmt.of t
    if f.hasInf then (signBit t neg + (2 ^ f.eb - 1) * 2 ^ f.mb, 0)
    else (signBit t neg + (if t = .e4m3 ∧ !sat then 0x7F else f.maxCode), Fl.of ||| Fl.nx)
  | .zero neg => (signBit t neg, 0)
  | .num q => roundNum t rm sat q

/-! ### Integers (R101, R120, R122) -/

def intMin (t : Ty) : Int := if t.isSigned then -(2 ^ (t.width - 1) : Int) else 0
def intMax (t : Ty) : Int := if t.isSigned then (2 ^ (t.width - 1) : Int) - 1 else (2 ^ t.width : Int) - 1

/-- The pattern of an integer modulo 2^width. -/
def wrapInt (t : Ty) (n : Int) : Nat := (n % (2 ^ t.width : Int)).toNat

/-- An exact integer fitted to a type (R101): its pattern of width(t) bits and flags.is. -/
def fitInt (t : Ty) (sat : Bool) (n : Int) : Nat × Fl :=
  if sat then
    if n < intMin t then (wrapInt t (intMin t), Fl.is)
    else if intMax t < n then (wrapInt t (intMax t), Fl.is)
    else (wrapInt t n, 0)
  else (wrapInt t n, 0)

/-- The integer a pattern of type t denotes. -/
def intOf (t : Ty) (code : Nat) : Int :=
  let c := code % 2 ^ t.width
  if t.isSigned && !(decide (c < 2 ^ (t.width - 1))) then (c : Int) - 2 ^ t.width else c

/-- A pattern of type t extended to 64 bits by its signedness (R101). -/
def extend (t : Ty) (code : Nat) : Word := BitVec.ofInt 64 (intOf t code)

/-- A rational rounded to an integer. -/
def roundInt (rm : Rnd) (q : Rat) : Int :=
  let neg := decide (q < 0)
  let n := roundMag rm neg (ratAbs q)
  if neg then -(n : Int) else n

/-- A floating value converted to an integer type (R122). -/
def convInt (t : Ty) (rm : Rnd) (sat : Bool) : Val → Nat × Fl
  | .nan => (0, Fl.nv)
  | .inf neg => (if sat then wrapInt t (if neg then intMin t else intMax t) else 0, Fl.nv)
  | .zero _ => (0, 0)
  | .num q =>
    let n := roundInt rm q
    if n < intMin t then (if sat then wrapInt t (intMin t) else wrapInt t n, Fl.nv ||| Fl.when sat Fl.is)
    else if intMax t < n then (if sat then wrapInt t (intMax t) else wrapInt t n, Fl.nv ||| Fl.when sat Fl.is)
    else (wrapInt t n, Fl.when (mkRat n 1 != q) Fl.nx)

/-! ### QN4 (R123) -/

def cbVal (j : Nat) : Rat := mkRat (cb j) 64

/-- The codebook index a mode chooses for a value within [-1, 1]. -/
def q4Choose (rm : Rnd) (q : Rat) : Nat :=
  let below := (List.range 16).foldl (fun b j => if cbVal j ≤ q then j else b) 0
  let above := if cbVal below = q then below else below + 1
  match rm with
  | .rdn => below
  | .rup => above
  | .rtz => if q < 0 then above else below
  | .rne | .rna =>
    let dl := q - cbVal below
    let du := cbVal above - q
    if dl < du then below
    else if du < dl then above
    else if above = below then below
    else if rm = .rne then (if below % 2 = 0 then below else above)
    else if ratAbs (cbVal below) < ratAbs (cbVal above) then above else below

def convQ4 (rm : Rnd) : Val → Nat × Fl
  | .nan => (7, Fl.nv)
  | .inf neg => (if neg then 0 else 15, Fl.of ||| Fl.nx)
  | .zero _ => (7, 0)
  | .num q =>
    if 1 < q then (15, Fl.of ||| Fl.nx)
    else if q < -1 then (0, Fl.of ||| Fl.nx)
    else
      let j := q4Choose rm q
      (j, Fl.when (cbVal j != q) Fl.nx)

/-- `Convert(T, v, rm, sat)` of a value that is not an integer of an integer type (R121 to R123). -/
def convert (t : Ty) (rm : Rnd) (sat : Bool) (v : Val) : Nat × Fl :=
  if t.isInt then convInt t rm sat v
  else if t = .q4 then convQ4 rm v
  else roundF t rm sat v

/-- A code of type u converted to type t (R120 to R123); a signalling NaN sets nv. -/
def convCode (t : Ty) (rm : Rnd) (sat : Bool) (u : Ty) (code : Nat) : Nat × Fl :=
  if u.isInt && t.isInt then fitInt t sat (intOf u code)
  else
    let r := convert t rm sat (valueOf u code)
    (r.1, r.2 ||| snanFl u code)

/-! ### Exact arithmetic of values -/

/-- Sum (R104): the exact value, and nv for infinities of both signs. -/
def Val.add (rm : Rnd) : Val → Val → Val × Fl
  | .nan, _ => (.nan, 0)
  | _, .nan => (.nan, 0)
  | .inf a, .inf b => if a = b then (.inf a, 0) else (.nan, Fl.nv)
  | .inf a, _ => (.inf a, 0)
  | _, .inf b => (.inf b, 0)
  | .zero a, .zero b => if a = b then (.zero a, 0) else (.zero (rm == .rdn), 0)
  | .zero _, .num q => (.num q, 0)
  | .num q, .zero _ => (.num q, 0)
  | .num p, .num q => if p + q = 0 then (.zero (rm == .rdn), 0) else (.num (p + q), 0)

/-- Product: the exact value, and nv for zero times infinity. -/
def Val.mul : Val → Val → Val × Fl
  | .nan, _ => (.nan, 0)
  | _, .nan => (.nan, 0)
  | .inf a, .zero _ => (.nan, Fl.nv)
  | .zero _, .inf b => (.nan, Fl.nv)
  | .inf a, b => (.inf (a != b.neg?), 0)
  | a, .inf b => (.inf (a.neg? != b), 0)
  | .zero a, b => (.zero (a != b.neg?), 0)
  | a, .zero b => (.zero (a.neg? != b), 0)
  | .num p, .num q => (.num (p * q), 0)

/-- Quotient (R118, R511): nv for 0/0 and ∞/∞, dz for a finite nonzero number over zero. -/
def Val.div : Val → Val → Val × Fl
  | .nan, _ => (.nan, 0)
  | _, .nan => (.nan, 0)
  | .inf _, .inf _ => (.nan, Fl.nv)
  | .zero _, .zero _ => (.nan, Fl.nv)
  | .inf a, b => (.inf (a != b.neg?), 0)
  | a, .inf b => (.zero (a.neg? != b), 0)
  | .zero a, b => (.zero (a != b.neg?), 0)
  | .num p, .zero b => (.inf ((p < 0 : Bool) != b), Fl.dz)
  | .num p, .num q => (.num (p / q), 0)

/-- Comparison of ordered values; none when unordered. -/
def Val.cmp : Val → Val → Option Ordering
  | .nan, _ => none
  | _, .nan => none
  | a, b =>
    let key : Val → Int × Rat
      | .inf s => (if s then -1 else 1, 0)
      | .num q => (0, q)
      | _ => (0, 0)
    let x := key a
    let y := key b
    some (if x.1 < y.1 then .lt else if y.1 < x.1 then .gt
      else if x.2 < y.2 then .lt else if y.2 < x.2 then .gt else .eq)

/-! ### Square roots and the functions of R119

An irrational result is stood for by a rational that lies strictly between the same two neighbours of every grid the result
can be rounded to: the floor at a precision far below any unit in the last place, plus half of that unit. -/

/-- ⌊√n⌋ by trial of the bits below `k`. -/
def isqrtBits (n : Nat) : Nat → Nat → Nat
  | 0, r => r
  | k + 1, r =>
    let t := r + 2 ^ k
    isqrtBits n k (if t * t ≤ n then t else r)

def isqrt (n : Nat) : Nat := isqrtBits n (n.log2 / 2 + 1) 0

/-- The half-open cell of width 2⁻ᵏ with floor `n`, as a value for rounding. -/
def sticky (n : Int) (k : Nat) (exact : Bool) : Rat :=
  if exact then mkRat n (2 ^ k) else mkRat (2 * n + 1) (2 ^ (k + 1))

def sqrtBits : Nat := 256

/-- √q of a positive rational. -/
def sqrtRat (q : Rat) : Rat :=
  let m := q.num.natAbs * 2 ^ (2 * sqrtBits)
  let r := isqrt (m / q.den)
  sticky r sqrtBits (r * r * q.den == m)

def Val.sqrt : Val → Val × Fl
  | .nan => (.nan, 0)
  | .inf false => (.inf false, 0)
  | .inf true => (.nan, Fl.nv)
  | .zero s => (.zero s, 0)
  | .num q => if q < 0 then (.nan, Fl.nv) else (.num (sqrtRat q), 0)

def Val.rcp : Val → Val × Fl
  | .nan => (.nan, 0)
  | .inf s => (.zero s, 0)
  | .zero s => (.inf s, Fl.dz)
  | .num q => (.num (1 / q), 0)

def Val.rsq : Val → Val × Fl
  | .nan => (.nan, 0)
  | .inf false => (.zero false, 0)
  | .inf true => (.nan, Fl.nv)
  | .zero s => (.inf s, Fl.dz)
  | .num q => if q < 0 then (.nan, Fl.nv) else (.num (sqrtRat (1 / q)), 0)

/-- Bits of the fixed-point arithmetic of exp2 and log2. -/
def fixBits : Nat := 320

/-- ln 2 by the series Σ 1/(k·2ᵏ), in fixed point. -/
def ln2Fix : Nat := (List.range 330).foldl (fun s k => s + 2 ^ fixBits / ((k + 1) * 2 ^ (k + 1))) 0

/-- Σ xᵏ/k! in fixed point, `n` terms. -/
def expSeries (x : Nat) : Nat → Nat → Nat → Nat → Nat
  | 0, _, _, s => s
  | n + 1, k, t, s =>
    let t' := t * x / 2 ^ fixBits / k
    expSeries x n (k + 1) t' (s + t')

/-- Σ z^(2k+1)/(2k+1) in fixed point. -/
def atanhSeries (z2 : Nat) : Nat → Nat → Nat → Nat → Nat
  | 0, _, _, s => s
  | n + 1, k, p, s => atanhSeries z2 n (k + 2) (p * z2 / 2 ^ fixBits) (s + p / k)

/-- 2^q for a rational q that is no integer, as a value for rounding: 300 fractional bits above the fixed-point error. -/
def exp2Rat (q : Rat) : Rat :=
  if 400 < q then pow2 400
  else if q < -400 then pow2 (-400)
  else
    let i := q.floor
    let fr := q - mkRat i 1
    let x := (fr * mkRat (2 ^ fixBits) 1).floor.toNat
    let y := expSeries (x * ln2Fix / 2 ^ fixBits) 90 1 (2 ^ fixBits) (2 ^ fixBits)
    sticky (y / 2 ^ 20) (fixBits - 20) false * pow2 i

def Val.exp2 : Val → Val × Fl
  | .nan => (.nan, 0)
  | .inf true => (.zero false, 0)
  | .inf false => (.inf false, 0)
  | .zero _ => (.num 1, 0)
  | .num q =>
    if q.den = 1 then (.num (pow2 (if 400 < q.num then 400 else if q.num < -400 then -400 else q.num)), 0)
    else if ratAbs q < pow2 (-200) then (.num (if q < 0 then 1 - pow2 (-201) else 1 + pow2 (-201)), 0)
    else (.num (exp2Rat q), 0)

/-- log₂ of a positive rational that is no power of two. -/
def log2Rat (q : Rat) : Rat :=
  let e := ratLog2 q
  let m := q * pow2 (-e)
  let z := ((m - 1) / (m + 1) * mkRat (2 ^ fixBits) 1).floor.toNat
  let s := atanhSeries (z * z / 2 ^ fixBits) 120 1 z 0
  let l := 2 * s * 2 ^ fixBits / ln2Fix
  mkRat e 1 + sticky (l / 2 ^ 20) (fixBits - 20) false

def Val.log2 : Val → Val × Fl
  | .nan => (.nan, 0)
  | .inf false => (.inf false, 0)
  | .inf true => (.nan, Fl.nv)
  | .zero _ => (.inf true, Fl.dz)
  | .num q =>
    if q < 0 then (.nan, Fl.nv)
    else if q = pow2 (ratLog2 q) then (.ofInt (ratLog2 q), 0)
    else (.num (log2Rat q), 0)

/-! ### Floating lanes: patterns in, pattern and flags out -/

def fUn (t : Ty) (rm : Rnd) (sat : Bool) (op : Val → Val × Fl) (a : Nat) : Nat × Fl :=
  let v := op (valueOf t a)
  let r := roundF t rm sat v.1
  (r.1, r.2 ||| v.2 ||| snanFl t a)

def fBin (t : Ty) (rm : Rnd) (sat : Bool) (op : Val → Val → Val × Fl) (a b : Nat) : Nat × Fl :=
  let v := op (valueOf t a) (valueOf t b)
  let r := roundF t rm sat v.1
  (r.1, r.2 ||| v.2 ||| snanFl t a ||| snanFl t b)

/-- a × b + c, exact and rounded once (R126). -/
def fFma (t : Ty) (rm : Rnd) (sat : Bool) (negC : Bool) (a b c : Nat) : Nat × Fl :=
  let p := (valueOf t a).mul (valueOf t b)
  let cv := valueOf t c
  let s := p.1.add rm (if negC then cv.neg else cv)
  let r := roundF t rm sat s.1
  (r.1, r.2 ||| p.2 ||| s.2 ||| snanFl t a ||| snanFl t b ||| snanFl t c)

/-- Lesser or greater (R173): a NaN gives the canonical NaN, −0.0 orders below +0.0. -/
def fMinMax (t : Ty) (isMax : Bool) (a b : Nat) : Nat × Fl :=
  let va := valueOf t a
  let vb := valueOf t b
  let fl := snanFl t a ||| snanFl t b
  match va.cmp vb with
  | none => (canonNan t, fl)
  | some .lt => (if isMax then b else a, fl)
  | some .gt => (if isMax then a else b, fl)
  | some .eq => (if va.neg? = isMax then b else a, fl)

/-- Sign changes that keep the other bits (R173). -/
def fSign (t : Ty) (flip : Bool) (a : Nat) : Nat × Fl :=
  if (valueOf t a).isNan then (canonNan t, snanFl t a)
  else
    let m := a % 2 ^ (t.width - 1)
    let s := a / 2 ^ (t.width - 1) % 2
    (if flip then m + (1 - s) * 2 ^ (t.width - 1) else m, 0)

/-- The conditions of Table 4-3 on two patterns of type t. -/
def condHolds (c : Cond) (t : Ty) (a b : Nat) : Bool :=
  let o := if t.isInt then some (compare (intOf t a) (intOf t b)) else (valueOf t a).cmp (valueOf t b)
  match c with
  | .eq => o == some .eq
  | .ne => o != some .eq
  | .lt => o == some .lt
  | .le => o == some .lt || o == some .eq
  | .gt => o == some .gt
  | .ge => o == some .gt || o == some .eq
  | .un => o == none

/-- flags.nv of a comparison: a signalling NaN operand (R140). -/
def condFl (t : Ty) (a b : Nat) : Fl := snanFl t a ||| snanFl t b

/-! ### The quantiser (R124, R125, R511) -/

def maxF (t : Ty) : Rat := if t = .q4 then 1 else (Fmt.of t).maxMag

/-- Magnitude of a value as an extended rational: none is infinite. -/
def Val.mag : Val → Option Rat
  | .num q => some (ratAbs q)
  | .inf _ => none
  | _ => some 0

/-- |v| > m. -/
def Val.above (v : Val) (m : Rat) : Bool :=
  match v with
  | .nan => false
  | _ => match v.mag with | none => true | some q => m < q

/-- The code of a saturated element. -/
def satCode (t : Ty) (neg : Bool) : Nat :=
  if t = .q4 then (if neg then 0 else 15) else signBit t neg + (Fmt.of t).maxCode

/-- Codes and flags of one pass at scale `s`; with `final`, overflowing elements saturate and set of and nx (R511). -/
def quantPass (t : Ty) (rm : Rnd) (y : List Val) (s : Rat) (final : Bool) : List Nat × Fl :=
  y.foldr (fun v r =>
    let z := match v with | .num q => .num (q / s) | v => v
    let c := if final && z.above (maxF t) then (satCode t z.neg?, Fl.of ||| Fl.nx) else convert t rm false z
    (c.1 :: r.1, c.2 ||| r.2)) ([], 0)

def quantOver (t : Ty) (y : List Val) (s : Rat) : Bool :=
  y.any fun v => (match v with | .num q => Val.num (q / s) | v => v).above (maxF t)

def s8Mag (c : Nat) : Rat := match s8Val c with | .num q => q | _ => 0

/-- The largest code in 0x01 to 0xFE whose value is at most `m`, else 0x01. -/
def s8Floor (m : Rat) : Nat :=
  (List.range 0xFE).foldl (fun b k => if s8Mag (k + 1) ≤ m then k + 1 else b) 1

/-- The raises of R124: at most three, none past 0xFE. -/
def quantLoop (t : Ty) (rm : Rnd) (y : List Val) : Nat → Nat → Nat × List Nat × Fl
  | fuel, s =>
    if !quantOver t y (s8Mag s) then
      let r := quantPass t rm y (s8Mag s) false
      (s, r.1, r.2)
    else match fuel with
      | 0 =>
        let r := quantPass t rm y (s8Mag s) true
        (s, r.1, r.2 ||| Fl.qs)
      | k + 1 =>
        if s = 0xFE then
          let r := quantPass t rm y (s8Mag s) true
          (s, r.1, r.2 ||| Fl.qs)
        else quantLoop t rm y k (s + 1)

/-- x[j] / SB with the flags of R511. -/
def quantDiv (x : List Val) (sb : Val) : List Val × Fl :=
  x.foldr (fun v r => let d := v.div sb; (d.1 :: r.1, d.2 ||| r.2)) ([], 0)

/-- Codes of a block whose every element is zero or NaN (R124). -/
def quantZero (t : Ty) (rm : Rnd) (y : List Val) : List Nat × Fl :=
  y.foldr (fun v r =>
    let c := convert t rm false (if v.isNan then .nan else .zero false)
    (c.1 :: r.1, c.2 ||| r.2)) ([], 0)

/-- `QuantBlock(F, x, SB, rm)`: the block scale, the codes and the flags. -/
def quantBlock (t : Ty) (x : List Val) (sb : Val) (rm : Rnd) : Nat × List Nat × Fl :=
  let d := quantDiv x sb
  let y := d.1
  let infinite := y.any fun v => match v with | .inf _ => true | _ => false
  let m := y.foldl (fun b v => match v with | .num q => if b < ratAbs q then ratAbs q else b | _ => b) 0
  if !infinite && m = 0 then
    let r := quantZero t rm y
    (0, r.1, r.2 ||| d.2)
  else
    let s := if infinite then 0xFE else s8Floor (m / maxF t)
    let r := quantLoop t rm y 3 s
    (r.1, r.2.1, r.2.2 ||| d.2)

/-- The block of R125: no block scale, overflow saturates at once and sets qs. DESIGN CHOICE (log 47): R125 does not say whether R124's
branch for an all-zero block applies here; the model converts each element, so a -0.0 keeps its sign. -/
def quantFlat (t : Ty) (x : List Val) (sb : Val) (rm : Rnd) : List Nat × Fl :=
  let d := quantDiv x sb
  let r := quantPass t rm d.1 1 true
  (r.1, r.2 ||| d.2 ||| Fl.when (quantOver t d.1 1) Fl.qs)

/-! ### The order of sums (R127, R129) -/

/-- One level of the tree: neighbours combined, an odd last element passed up. -/
def treeLevel {α : Type} (op : α → α → α) : List α → List α
  | a :: b :: l => op a b :: treeLevel op l
  | l => l

/-- `Reduce(op, t)`, with fuel for the levels. -/
def treeReduce {α : Type} (op : α → α → α) (z : α) : Nat → List α → α
  | 0, l => l.headD z
  | _ + 1, [a] => a
  | k + 1, l => treeReduce op z k (treeLevel op l)

/-- The exact sum of values without rounding; a zero sum is +0.0 (R129). DESIGN CHOICE (log 47): nv is set where infinities of both signs
stand among the terms, in any order and beside a NaN too. -/
def sumExact (l : List Val) : Val × Fl :=
  (l.foldl (fun s v => (s.add .rne v).1) (.zero false), Fl.when (l.contains (.inf true) && l.contains (.inf false)) Fl.nv)

/-- One addition of the left fold of R130 and R131 (`RoundRNE32(a + b)`), the zero's sign by R104. -/
def merge32 (a b : Nat) : Nat × Fl := fBin .f .rne false (Val.add .rne) a b

/-- FP32 rounding of R129: .rne, an exact zero is +0.0. -/
def round32 (v : Val) : Nat × Fl :=
  match v with
  | .zero _ => (0, 0)
  | v => roundF .f .rne false v

end Sys2Proof.Machine
end

