-- ==== Sys2Proof/Machine/State.lean ====
section
/-! DEFINITION. The state of the Glaromon G3 as plain data. The machine is held as a zipper: the thread, the bind record,
the core and the context in focus stand in fields of their own (`th`, `bd`, `core`, `cx`), and all others stand in lists;
every record carries its own key. `State.reset` is the module right after bring-up (R505, log 11). -/
namespace Sys2Proof.Machine
open Sys2Proof

/-- Bytes by address, strictly rising, no byte 0: an unlisted address reads 0 (R311, R477, log 6). -/
abbrev Memory := List Host.Cell

/-- A scalar register with its pending future (R41): the tag of the operation, and, once a completion word has landed, the tag and the
home slices of the operation that wrote it, until the first observation joins it (R230). -/
structure Reg where
  val : Word := 0
  fut : Option Nat := none
  jn : BitVec 64 := 0
  tag : Nat := 0
  deriving DecidableEq, Repr

/-- The name of a thread: logical core, context, and number 0 to 7, or 8 + e for the eddy in eddy context e. -/
structure TKey where
  core : Nat
  ctx : Nat
  slot : Nat
  deriving DecidableEq, Repr

/-- A bound stream port (R33, R187). -/
structure Port where
  wr : Bool
  t : Ty
  rnd : Rnd
  sat : Bool
  sc : Scope
  base : Word
  n0 : Nat
  n1 : Nat
  s1 : Int
  row : Nat
  elem : Nat
  deriving DecidableEq, Repr

/-- A ring handle (R34, R244): uninitialised, a ring with the thread and handle of its peer view, or a view of another
thread's ring. -/
inductive Ring where
  | none
  | own (off lines n fill drain : Nat) (peer : Option (Nat × Nat))
  | view (thr k : Nat)
  deriving DecidableEq, Repr

/-- One range of the scoreboard: first and last virtual byte, and the operation that holds it (R313). -/
structure Rng where
  first : Nat
  last : Nat
  tag : Nat
  deriving DecidableEq, Repr

/-- What a parked thread waits for, where the issue already has had an effect (R383). -/
inductive Wait where
  /-- The echoes of a fence, or of the fence of a barrier arrival (R261). -/
  | echoes (left : Nat)
  /-- The value of an atomic or of an IOD query, once it has come (R260, R300). -/
  | value (v : Option Word)
  /-- A barrier's release (R263). -/
  | barrier (n : Nat) (done : Option (BitVec 8))
  /-- The event latch: wfe, or idle (R266, R307). -/
  | event (idle : Bool)
  /-- A gang (R269); `left` once the thread has left it. -/
  | gjoin (left : Bool)
  /-- A gang that waits for its members, its leader's old gang being over (R268, R439). -/
  | gang
  /-- A pre-emption point reached while a swap-out is requested, with the descriptor line (R288, R290). -/
  | hint (desc : List Byte)
  /-- The stores of a wspill of n entries (R153, R162). -/
  | spill (n : Nat)
  deriving DecidableEq, Repr

/-- The retry latch: the address whose translation is awaited, for a write or not, whether the walk ended long, whether the translation
is settled, and whether it ended in an access condition (R330 to R332). -/
structure Retry where
  va : Nat
  wr : Bool
  long : Bool
  settled : Bool
  bad : Bool := false
  deriving DecidableEq, Repr

/-- A vector clock: a 40-bit count for each of CD0 to CD3, the IOD, and outside sources (R348, R428). -/
abbrev Clk := Vector (BitVec 40) 6

/-- A message in a queue, in flight or in the mailbox (R254, R413). `held` marks a message of a hold buffer, `pois` poisoned data; one that
passes to another die carries its clock (R428). -/
structure Msg where
  dst : Word
  src : TKey
  srcTask : Nat
  seq : Nat
  greg : Option Nat
  data : VWord
  rel : Bool
  sc : Scope
  tag : Option Nat
  held : Bool
  pois : Bool := false
  clk : Option Clk := none
  deriving DecidableEq, Repr

/-- A thread's part in a gang (R268, R269, R438): the leader's members and future tag; or a member's leader, next sequence and
forwarded words, each word with the second word of its pair. -/
inductive Gang where
  | none
  | leader (members : List TKey) (tag : Nat) (n : Nat) (seq : Nat)
  | member (leader : TKey) (words : List (IWord × Option IWord))
  deriving DecidableEq, Repr

/-- One path's figures of a network command (R273). -/
structure PathStat where
  path : Nat
  pkts : Nat
  marks : Nat
  retx : Nat
  rtt : Nat
  deriving DecidableEq, Repr

/-- What makes a thread an eddy (R25, R39): its read's tag, the burst coordinates, and its scope. -/
structure Eddy where
  tag : Nat
  bc : Vector Word 4
  deriving DecidableEq, Repr

/-- A thread or an eddy (R24, R25). `wait1` keeps the ended wait of a pair's first member while its second waits (R68); `halt` marks a thread
that a wait without effect has stopped for the swap-out of its task (R288); `probe` counts the echoes that the fence made on its behalf at a
save still awaits (R59); `rowOk` an instruction
that has waited for the row TLB (R330); `started` a thread whose entry point has been checked (R69); `mjn` the matrix commands of the thread that have completed and that nothing
has joined (R223). -/
structure Thread where
  core : Nat := 0
  ctx : Nat := 0
  slot : Nat := 0
  task : Nat := 0
  eddy : Option Eddy := none
  pc : Word := 0
  handler : Bool := false
  exited : Bool := false
  w : Vector Reg 256 := Vector.replicate 256 {}
  wbase : BitVec 8 := 0
  wvalid : Nat := 0
  wsp : Word := 0
  g : Vector Reg 8 := Vector.replicate 8 {}
  lc : Vector W32 2 := Vector.replicate 2 0
  lbeg : Vector Word 2 := Vector.replicate 2 0
  lend : Vector Word 2 := Vector.replicate 2 0
  v : Vector VWord 64 := Vector.replicate 64 0
  m : Vector MWord 8 := Vector.replicate 8 0
  p : Vector Bool 8 := Vector.replicate 8 false
  q : Vector (Option Port) 8 := Vector.replicate 8 none
  k : Vector Ring 16 := Vector.replicate 16 .none
  flags : Fl := 0
  tcause : Word := 0
  tval : Word := 0
  tepc : Word := 0
  tscratch : Word := 0
  tvec : Word := 0
  tpair : Bool := false
  tmem : Bool := false
  tstep : Bool := false
  icount : Word := 0
  tid : Word := 0
  tsm : BitVec 64 := 0
  rsm : BitVec 64 := 0
  mjn : List (Nat × BitVec 64) := []
  latch : Bool := false
  retry : Option Retry := none
  wait : Option Wait := none
  wait1 : Option Wait := none
  rowOk : Bool := false
  started : Bool := false
  busy : Nat := 0
  declined : Bool := false
  halt : Bool := false
  probe : Option Nat := none
  rngs : List Rng := []
  msgs : List Msg := []
  held : List Msg := []
  seq : Nat := 0
  gang : Gang := .none
  net : List PathStat := []
  irqs : List Word := []
  deriving DecidableEq, Repr

def Thread.key (t : Thread) : TKey := ⟨t.core, t.ctx, t.slot⟩

/-- The copy commands of Table 7-2, with their sources read at issue. -/
inductive CopyOp where
  | mem (dst src n : Nat)
  | ring (k src n : Nat)
  | into (dst src : Nat) (pitch : Int) (rb rows : Nat)
  | out (dst src : Nat) (pitch : Int) (rb rows : Nat)
  | gath (dst src idx e n : Nat)
  | scat (dst src idx e n : Nat)
  | fill (dst : Nat) (pat : Word) (w n : Nat)
  deriving DecidableEq, Repr

/-- A copy command in its queue (R233). `pos` counts the bytes written; `host` says that it has met a host page (R493). -/
structure CopyCmd where
  tag : Nat
  thr : Nat
  op : CopyOp
  sc : Scope
  comb : Bool := false
  begun : Bool := false
  claim : Option Nat := none
  group : Option Nat := none
  pos : Nat := 0
  access : Bool := false
  error : Bool := false
  gated : Bool := false
  cancelled : Bool := false
  ended : Bool := false
  host : Bool := false
  slices : BitVec 64 := 0
  deriving DecidableEq, Repr

/-- A handler read in progress (R248, R250). `rows` rows of `rb` bytes, `pitch` apart; `asked` once its read requests are sent, and its cell of
the copy queue is free (R408). -/
structure HRead where
  tag : Nat
  thr : Nat
  src : Nat
  rb : Nat
  rows : Nat
  pitch : Nat
  two : Bool
  handler : Word
  sc : Scope
  g : Vector Reg 8
  asked : Bool := false
  delivered : List Nat := []
  live : Nat := 0
  rets : Nat := 0
  cause : Nat := 0
  error : Bool := false
  access : Bool := false
  cancelled : Bool := false
  trapped : Bool := false
  gated : Bool := false
  host : Bool := false
  slices : BitVec 64 := 0
  deriving DecidableEq, Repr

/-- A burst in the eddy queue (R418). -/
structure Burst where
  tag : Nat
  n : Nat
  v0 : VWord
  v1 : VWord
  deriving DecidableEq, Repr

/-- A network command (R271, R468): its kind (0 send, 1 put, 2 get, 3 collective), its peers, and its progress. `buf` holds the packets in
flight with their offsets and paths; `got` a collective's partials by slice; `folded` that its fold is written; `slices` the home slices it wrote. -/
structure NetCmd where
  tag : Nat
  thr : Nat
  core : Nat
  ctx : Nat
  kind : Nat
  peers : List Nat
  q : Nat := 0
  len : Nat := 0
  remote : Nat := 0
  loc : Nat := 0
  rel : Bool := false
  spray : Nat := 255
  cls : Nat := 0
  slice : Nat := 0
  op : Nat := 0
  begun : Bool := false
  sent : Nat := 0
  acked : Nat := 0
  turn : Nat := 0
  retx : Nat := 0
  paths : List PathStat := []
  status : Option (BitVec 8) := none
  cancelled : Bool := false
  buf : List (Nat × Nat × List Byte) := []
  got : List (Nat × List Byte) := []
  folded : Bool := false
  slices : BitVec 64 := 0
  deriving DecidableEq, Repr

/-- The bind record's lasting part, for one context on one logical core (R384), with the queues the context has there. `lent` holds at a
gale core while its lee lends to it (R402), `went` once the core has gone dark (R401). -/
structure Bind where
  core : Nat := 0
  ctx : Nat := 0
  task : Nat := 0
  nthr : Nat := 0
  base : Nat := 0
  lines : Nat := 0
  lee : Bool := false
  dark : Bool := false
  lent : Bool := false
  went : Bool := false
  gone : Bool := false
  eng : Bool := false
  heat : Heat := .still
  mask : Word := 0
  mins : Word := 0
  caps : Word := 0
  save : Nat := 0
  ep : Nat := 0
  ccount : Word := 0
  notice : Word := 0
  due : Nat := 0
  irq : Option Word := none
  cap : Nat := 8
  copies : List CopyCmd := []
  reads : List HRead := []
  bursts : List Burst := []
  sends : List Msg := []
  deriving DecidableEq, Repr

/-- A tile of the accumulators (R36): its shape is kept by the issue side, its data and poison by the engine (R202). -/
structure Tile where
  valid : Bool := false
  rows : Nat := 0
  wide : Bool := false
  poison : Bool := false
  data : List W32 := []
  deriving DecidableEq, Repr

/-- A block's mark (R198). -/
inductive Mark where
  | good | void | poisoned | shape | scale
  deriving DecidableEq, Repr

/-- An A block: G rows of 24 decoded values, with its header (R198). -/
structure Blk where
  ctx : Nat
  g : Nat
  t : Ty
  sum : Int
  mark : Mark
  data : List Val
  deriving DecidableEq, Repr

/-- A slab slot: 32 columns of 192 decoded values (R198). -/
structure Slab where
  t : Ty := .q4
  loaded : Bool := false
  poison : Bool := false
  data : List Val := []
  deriving DecidableEq, Repr

/-- The row-former geometry (R207): mode, attribute, and the three source words. -/
structure Geom where
  unf : Bool
  attr : BitVec 11
  a : Word
  b : Word
  c : Word
  deriving DecidableEq, Repr

/-- A matrix command with its sources read at issue (R200), and the shape its tile had then (R202). -/
inductive MOp where
  | row (g m0 kb0 n ng : Nat)
  | geom (g : Geom)
  | slab (s : Fin 2) (cols : Nat) (attr : BitVec 11) (base pitch : Nat)
  | mma (fresh : Bool) (t : Fin 4) (rows : Nat) (wide : Bool) (f : MmaF) (blk : Option Blk)
  | zero (t : Fin 4) (rows : Nat) (wide : Bool)
  | write (t : Fin 4) (wide : Bool) (row grp : Nat) (v : VWord)
  | quant (t : Fin 4) (rows : Nat) (wide : Bool) (ty : Ty) (rnd : Rnd) (sat : Bool) (sc : Scope) (sb : Int) (base pitch : Nat)
  | keep (a b : W32)
  | scale (a b : W32)
  | merge (a b : Fin 4)
  | link (r : Role)
  deriving DecidableEq, Repr

/-- A matrix command in the queue, with its extents (R203), and its progress once it executes: blocks or elements done, steps done, flags, the
status that ends it, and whether what an mslab loaded is poisoned. -/
structure MCmd where
  tag : Nat
  thr : Nat
  op : MOp
  exts : List (Nat × Nat) := []
  begun : Bool := false
  blk : Nat := 0
  count : Nat := 0
  flags : Fl := 0
  stop : Option (BitVec 8) := none
  pois : Bool := false
  ended : Bool := false
  host : Bool := false
  slices : BitVec 64 := 0
  deriving DecidableEq, Repr

/-- What mstat shows of the engine: the state that the commands completed so far have left (R222). -/
structure EngView where
  tpois : Vector Bool 4 := Vector.replicate 4 false
  spois : Vector Bool 2 := Vector.replicate 2 false
  sload : Vector Bool 2 := Vector.replicate 2 false
  ksum : Int := 0
  kval : Bool := true
  rsum : Int := 0
  rval : Bool := true
  role : Role := .loc
  deriving DecidableEq, Repr

/-- The matrix engine (Table 6-1). -/
structure Engine where
  acc : Vector Tile 4 := Vector.replicate 4 {}
  slab : Vector Slab 2 := Vector.replicate 2 {}
  slabIssued : Vector (Option Ty) 2 := Vector.replicate 2 none
  geom : Option Geom := none
  geomIssued : Option Geom := none
  ksum : Int := 0
  kval : Bool := true
  rsum : Int := 0
  rval : Bool := true
  role : Role := .loc
  feed : List Blk := []
  lane : List Blk := []
  queue : List MCmd := []
  clk : Nat := 0
  view : EngView := {}
  deriving DecidableEq, Repr

/-- A tag-table entry (R192). -/
structure TagEnt where
  entry : Nat
  tag : Nat
  line : Nat
  deriving DecidableEq, Repr

/-- A page table entry as its two words, with the virtual address and level of its leaf (R322), a host page's function and PASID (R444),
and a backed page's trusted version (R478). -/
structure Pte where
  va : Nat
  lvl : Nat
  ctl : Word
  loc : Word
  func : Nat := 0
  pasid : Nat := 0
  ver : Nat := 0
  deriving DecidableEq, Repr

/-- A TLB entry, tagged with its context (R327). -/
structure Tlb where
  ctx : Nat
  e : Pte
  deriving DecidableEq, Repr

/-- An entry of the TLB that a row's cores share (R327). -/
structure RowTlb where
  row : Nat
  ctx : Nat
  e : Pte
  deriving DecidableEq, Repr

/-- A page table (R321): its level, 1 at the root, the first virtual address it covers, and its own physical address. -/
structure Ptab where
  lvl : Nat
  va : Nat
  pa : Nat
  deriving DecidableEq, Repr

/-- A barrier register (Table 1-2), with the core's arrivals in the sweep (R437): the threads counted, whether the core's own
arrival was sent on, the arrivals received with their word and phase, and the futures to complete. -/
structure Bar where
  armed : Bool := false
  phase : BitVec 2 := 0
  rect : BitVec 23 := 0
  arrived : List Nat := []
  sent : Bool := false
  got : List (Nat × Option (BitVec 25)) := []
  futs : List Nat := []
  deriving DecidableEq, Repr

/-- The state of a lee bank (R61, R400). -/
inductive Bank where
  | gated | retention | awake
  deriving DecidableEq, Repr

/-- A logical core that carries contexts. Its scratchpad's addresses are physical bytes of its own 256 KiB, and from 0x40000
upward the lent lines of its lee (R309). -/
structure Core where
  id : Nat := 0
  clk : Nat := 0
  slots : Vector (Option (Nat × Nat)) 64 := Vector.replicate 64 none
  holder : Option Nat := none
  eng : Engine := {}
  lnkw : Option Word := none
  lnke : Option Word := none
  bar : Vector Bar 4 := Vector.replicate 4 {}
  tags : List TagEnt := []
  spad : Memory := []
  spadPoison : List Nat := []
  banks : Vector Bank 20 := Vector.replicate 20 .gated
  tlb : List Tlb := []
  lastServed : Nat := 0
  deriving DecidableEq, Repr

/-- The states of a warrant slot (R292). -/
inductive WState where
  | empty | funding | held | delegated (ctx : Nat)
  deriving DecidableEq, Repr

/-- A warrant slot: state, busy, amounts, and the thread that delegated it with its task (R292, R306). -/
structure WSlot where
  st : WState := .empty
  busy : Bool := false
  amt : Vector Nat 8 := Vector.replicate 8 0
  by_ : Option (TKey × Nat) := none
  deriving DecidableEq, Repr

/-- The life of a tile task within a launch (R23, R288, R332). -/
inductive TaskSt where
  | waiting
  | placed
  | saving
  | saved
  | done (status : BitVec 8)
  deriving DecidableEq, Repr

/-- A tile task of the context's graph (R357) with its state. `asked` is when its swap-out was requested (R288), `outAt` when it was
saved (R510), `pages` the pages it waits for (R332). -/
structure Task where
  num : Nat
  entry : Word
  rows : Nat
  cols : Nat
  thr : Nat
  heat : Heat
  kslice : Nat := 0
  spad : Nat
  preds : List Nat
  st : TaskSt := .waiting
  die : Nat := 0
  lrow : Nat := 0
  lcol : Nat := 0
  deadline : Bool := false
  asked : Nat := 0
  outAt : Nat := 0
  pages : List Nat := []
  deriving DecidableEq, Repr

/-- A saved core of a swapped-out task: its bind record, its own part of the core, and its threads (R393). -/
structure Saved where
  bd : Bind
  core : Core
  ths : List Thread
  deriving DecidableEq, Repr

/-- A context (R22, R363). `prov` marks one whose presentation has not ended, `retired` one that ends as soon as its cancelled operations
have (R370); `parent` names the delegating context by its `uid`; `served` counts the clk its cores have given it in this period (R379). -/
structure Context where
  id : Nat := 0
  uid : Nat := 0
  key : Nat := 0
  dead : Bool := false
  prov : Bool := false
  aw : Vector Nat 8 := Vector.replicate 8 0
  ws : Vector WSlot 8 := Vector.replicate 8 {}
  quota : Vector Nat 8 := Vector.replicate 8 0
  use : Vector Nat 8 := Vector.replicate 8 0
  surr : Bool := false
  retired : Bool := false
  served : Nat := 0
  parked : Bool := false
  holder : List Byte := []
  cls : Nat := 0
  weight : Nat := 0
  slots : Nat := 0
  nb : Nat := 0
  na : Nat := 0
  kslot : Nat := 0
  serial : Nat := 0
  arg : Word := 0
  parent : Option Nat := none
  src : Option Src := none
  root : Nat := 0
  tabs : List Ptab := []
  ptes : List Pte := []
  tasks : List Task := []
  img : List Byte := []
  running : Bool := false
  ended : Nat := 0
  status : BitVec 8 := 0
  failTask : Nat := 0xFFFF
  failCause : Word := 0
  failVal : Word := 0
  failTid : Word := 0
  launchQ : Option Nat := none
  mail : List Msg := []
  saved : List Saved := []
  capture : Bool := false
  replay : Option (List CapRec) := none
  replayBad : Option CapRec := none
  capRecs : List CapRec := []
  capFull : Bool := false
  deriving DecidableEq, Repr

/-- Who asked a home slice, and gets its answer (R412): a thread, the context-save engine on a thread's behalf (R59), or a peer. -/
inductive Who where
  | thr (k : TKey)
  | save (k : TKey)
  | peer (addr off : Nat)
  deriving DecidableEq, Repr

/-- A request to a home slice, or its answer (Table 13-3). A written byte carries the bits it changes (R184); an answer carries a status of
Table 1-6: error for data that is poisoned or an address that is not populated (R18), access for a key ID that is refused (R412). -/
inductive ReqBody where
  | read (len : Nat)
  | write (cells : List (Nat × Byte × Byte))
  | amo (fn : Nat) (t : Ty) (rnd : Rnd) (b c : Word) (ret : Bool)
  | probe
  | data (bytes : List Byte) (st : BitVec 8)
  | echo
  | ack (pos : Nat) (st : BitVec 8)
  deriving DecidableEq, Repr

/-- A request or answer in flight: the party, context and key ID, the address (a device address, or a host address as `Ops` forms
it), release or not, its scope, the port of an append, and the body. `seen` marks a store whose bytes its own thread has read before
they were performed, `ord` one issued after such a read (R344), `acq` an atomic that later accesses wait for; an answer says whether its
atomic `wrote` (R260); `clk` is the clock of one that passes to another die, and `pois` marks
data that a flit error has poisoned (R428, R429). -/
structure Req where
  who : Who
  ctx : Nat
  key : Nat
  pa : Nat
  rel : Bool
  sc : Scope
  port : Option Nat
  body : ReqBody
  seen : Bool := false
  ord : Bool := false
  acq : Bool := false
  wrote : Bool := false
  clk : Option Clk := none
  pois : Bool := false
  deriving DecidableEq, Repr

/-- The other packets of the fabric (Table 14-2). -/
inductive Pkt where
  | link (dst : Nat) (ctx : Nat) (east : Bool) (w : Word) (left : Nat)
  | arrival (ctx dst n src : Nat) (wp : Option (BitVec 25))
  | release (ctx dst n : Nat) (phase : BitVec 2) (status : BitVec 8) (corner : Nat) (rect : BitVec 23)
  | gang (dst : TKey) (w : IWord) (w2 : Option IWord)
  | msg (m : Msg)
  | refuse (m : Msg) (reason : Nat)
  | window (pcore win : Nat)
  deriving DecidableEq, Repr

/-- A walk in flight (R328): the context, the leaf it is for, whether some waiter writes, and the die. -/
structure Walk where
  ctx : Nat
  die : Nat
  va : Nat
  wr : Bool
  deriving DecidableEq, Repr

/-- A combining group (R415): its row and leader command, and its members (core and tag); once closed, the bytes read, which of them
are poisoned, the status flags, and the members still to be served. -/
structure Group where
  id : Nat
  row : Nat
  ctx : Nat
  op : CopyOp
  sc : Scope
  members : List (Nat × Nat)
  closed : Bool := false
  bytes : List Byte := []
  pois : List Nat := []
  access : Bool := false
  error : Bool := false
  host : Bool := false
  deriving DecidableEq, Repr

/-- A page on a drive (R323, R478): its slot, its bytes, the 64-byte units that are poisoned, whether its page tag holds, and its
version. -/
structure DPage where
  slot : Nat
  bytes : Memory := []
  pois : List Nat := []
  ok : Bool := true
  ver : Nat := 0
  deriving DecidableEq, Repr

/-- An NVMe queue pair of a storage queue engine (R334): the submission tail and the completion head it has written to the doorbells, and the
phase it polls for. -/
structure QPair where
  tail : Nat := 0
  head : Nat := 0
  phase : Bool := true
  deriving DecidableEq, Repr

/-- What a drive reports of itself to firmware at bring-up (Table 9-4): the bytes of a block, of metadata and protection information, the
largest transfer, I/O queue pairs, and their depth. -/
structure Nvme where
  block : Nat := 4096
  meta_ : Nat := 0
  mdts : Nat := 131072
  pairs : Nat := 64
  depth : Nat := 1024
  deriving DecidableEq, Repr

/-- A drive (R323, R334, R335): whether the seat's mask enables it (from the next idle point on), whether it lies within the limits of
Table 9-4, its queue pairs, the pair that takes the next command, and the pages on it. -/
structure Drive where
  enabled : Bool := true
  fit : Bool := true
  pairs : List QPair := List.replicate 64 {}
  depth : Nat := 1024
  next : Nat := 0
  slots : List DPage := []
  deriving DecidableEq, Repr

/-- The commands of the storage queue engines (Table 9-4). -/
inductive SKind where
  | read | write | flush
  deriving DecidableEq, Repr

/-- A command of a storage queue engine (R334, R337, R339): drive, slot, frame, page, attempts made, and, once it is outstanding, its queue
pair. -/
structure SOp where
  kind : SKind
  drive : Nat
  slot : Nat
  frame : Nat
  ctx : Nat
  va : Nat
  tries : Nat
  pair : Option Nat := none
  deriving DecidableEq, Repr

/-- A line that a home slice holds (R317): its physical address, and whether it must be written back. -/
structure HLine where
  pa : Nat
  dirty : Bool
  deriving DecidableEq, Repr

/-- A line as its tier holds it (R474 to R476): its address, key ID and version, its ciphertext, and its tag. -/
structure TLine where
  pa : Nat
  key : Nat
  ver : Nat
  cipher : List Byte
  tag : List Byte
  deriving DecidableEq, Repr

/-- A node of a key ID's integrity tree: its level and place, its counter in its parent, and whether a slice holds it changed (R476, R477). -/
structure TNode where
  key : Nat
  lvl : Nat
  ix : Nat
  ctr : Nat := 0
  dirty : Bool := false
  deriving DecidableEq, Repr

/-- What a flit carries (R426): the head, the clock, or the k-th 32 bytes of data. -/
inductive Flit where
  | head | clk | data (k : Nat)
  deriving DecidableEq, Repr

/-- A physical error that the machine meets (R224, R429, R430, R479, R482, R484). -/
inductive Err where
  /-- A flit of the k-th request or answer cannot be corrected; after `crc` failed CRCs where it crosses a bridge. -/
  | req (k : Nat) (f : Flit) (crc : Option Nat)
  /-- The same of the k-th other packet. -/
  | pkt (k : Nat) (f : Flit) (crc : Option Nat)
  /-- The k-th packet has a type that is not in the table, or another class than its type's (R427). -/
  | unknown (k : Nat)
  /-- A block on the lane of a core, or in its feed, is lost or damaged. -/
  | lane (core : Nat) (f : Flit)
  | feed (core k : Nat)
  /-- The register feed of a queued mma is damaged. -/
  | regs (core tag : Nat)
  /-- A packet of a burst, of a copy's reads or of a group's data. -/
  | burst (core ctx tag n : Nat)
  | copy (core ctx tag : Nat) (f : Flit)
  | group (id : Nat) (f : Flit)
  /-- A data line or a tree node fails its tag, or its ECC. -/
  | line (pa : Nat) (ecc : Bool)
  | node (lvl pa : Nat) (ecc : Bool)
  /-- A line of a scratchpad is lost. -/
  | spad (core u : Nat)
  /-- An error that ECC corrects. -/
  | corrected
  /-- An error in state without a poison mark, of a context's task on a core. -/
  | state (core ctx : Nat)
  /-- An error in an entry of a core's TLB, of a row's, or of the ATC. -/
  | tlb (core i : Nat)
  | row (i : Nat)
  | atc (i : Nat)
  deriving DecidableEq, Repr

/-- A frame in use: its base, its size, and the key ID it belongs to (R318, R476). -/
structure Frame where
  base : Nat
  size : Nat
  key : Nat
  deriving DecidableEq, Repr

/-- A time note in force (R367). -/
structure Note where
  t : Nat
  t0 : Nat
  t1 : Nat
  deriving DecidableEq, Repr

/-- An operator key slot (Table 11-1). -/
structure KeySlot where
  loaded : Bool := false
  key : List Byte := []
  floor : Nat := 0
  window : BitVec 4096 := 0
  note : Option Note := none
  nonce : Option (List Byte × Nat) := none
  capture : Bool := false
  deriving DecidableEq, Repr

/-- A presentation slot (R359, R360). -/
structure PSlot where
  area : Memory := []
  src : Option Src := none
  last : Nat := 0
  pgo : Option Word := none
  parkedBit : Bool := false
  ctx : Nat := 0
  op : Nat := 0
  status : BitVec 8 := 0xFF
  deriving DecidableEq, Repr

/-- A warrant or translation operation in flight at the IOD (R295, R303). -/
inductive WOp where
  | pres (a b : Word)
  | split (s t : Fin 8) (a : Word)
  | deleg (t : Fin 8) (a : Word)
  | surr (t : Fin 8)
  | xinv (a n : Word)
  | xnew (a w n : Word)
  | xattr (a w n : Word)
  | xunmap (a n : Word)
  deriving DecidableEq, Repr

structure WReq where
  tag : Nat
  key : TKey
  op : WOp
  deriving DecidableEq, Repr

/-- A presentation that the admission unit runs (R362, R365): its slot or its wpres, the record and receipt as they were read, the step it
stands before (6, 9 or 11), and, from step 9 on, its context. -/
structure Admit where
  slot : Option Nat
  req : Option WReq
  rec_ : List Byte
  rcpt : Option (List Byte)
  step : Nat := 6
  ctx : Nat := 0
  deriving DecidableEq, Repr

/-- A reservation of a serial at its home (R373, R376): key slot, serial, the target's fingerprint, and whether the home has turned it
into a commit. -/
structure Resv where
  kslot : Nat
  serial : Nat
  target : List Byte
  done : Bool := false
  deriving DecidableEq, Repr

/-- A presentation that waits for its home's acknowledgement (R376). -/
structure Commit where
  slot : Option Nat
  req : Option WReq
  kslot : Nat
  serial : Nat
  hkey : List Byte
  ctx : Nat
  since : Nat
  deriving DecidableEq, Repr

/-- A packet as the command processor reads it (R452): from the ring, or from a command buffer at a depth; `fin` marks the end of a call's
buffer. -/
structure QPkt where
  w : Vector Word 8
  ring : Bool
  depth : Nat
  fin : Bool := false
  deriving DecidableEq, Repr

/-- A bound queue in its slot (R453): the descriptor as read at the bind, and its progress. `stop` holds from an invalid header to the next
wake, `joined` from a join read ahead to its issue, `launch` while a launch the queue started runs, `leaving` from an unmap that waits for
the packet that is issuing (R458). -/
structure Queue where
  ctx : Nat
  q : Nat
  die : Nat
  slot : Nat
  w0 : Word
  base : Word
  evBase : Word
  rd : Nat
  evw : Nat
  evr : Nat
  ovf : Nat
  ovp : Bool
  code : BitVec 8
  err : Bool
  pend : Bool
  look : List QPkt
  ahead : Nat
  stop : Bool
  joined : Bool
  busy : Option QPkt
  launch : Bool
  leaving : Bool := false
  deriving DecidableEq, Repr

/-- A translation held in the ATC; a translation request, a page request with the time it was made, or a refusal not yet met by what asked
(R445). -/
structure Atc where
  func : Nat
  pasid : Nat
  iova : Nat
  rd : Bool
  wr : Bool
  since : Nat := 0
  deriving DecidableEq, Repr

/-- A packet of a peer that waits at the endpoint for a page (R469): a put, a send or a get. -/
inductive PeerPkt where
  | put (peer peerCtx : Nat) (dst : NetDst) (off : Nat) (rel : Bool) (data : List Byte)
  | send (peer peerCtx ctx q : Nat) (data : List Byte)
  | get (peer peerCtx : Nat) (dst : NetDst) (off : Nat) (acq : Bool) (len : Nat)
  deriving DecidableEq, Repr

/-- An invalidation whose completion is withheld (R446). -/
structure Inval where
  func : Nat
  pasid : Nat
  iova : Nat
  pages : Nat
  deriving DecidableEq, Repr

/-- A TDI's state (Table 15-1). -/
inductive Tdi where
  | unlocked | locked | run | error
  deriving DecidableEq, Repr

/-- An Ethernet port (R471, R472): session in place, the current and the old association, for each the highest packet number and the numbers
seen below it, the frames dropped, and when the key was agreed. -/
structure EPort where
  up : Bool := false
  assoc : Nat := 0
  old : Option Nat := none
  top : Nat := 0
  seen : List Nat := []
  oldTop : Nat := 0
  oldSeen : List Nat := []
  dropped : Nat := 0
  keyed : Nat := 0
  deriving DecidableEq, Repr

/-- A congestion window (R468): packets allowed, in flight, and acknowledged since it last grew. -/
structure Cwnd where
  ctx : Nat
  peer : Nat
  cls : Nat
  path : Nat
  win : Nat := 16
  flight : Nat := 0
  acks : Nat := 0
  deriving DecidableEq, Repr

/-- A credit hint of a peer (R468). -/
structure Credit where
  ctx : Nat
  peer : Nat
  cap : Nat
  deriving DecidableEq, Repr

/-- A seat session (R488): the candidate, its certificate, when it began and when it last spoke. -/
structure Session where
  cand : Cand
  cert : List Byte
  began : Nat
  last : Nat
  deriving DecidableEq, Repr

/-- The operator seat (R488 to R490). -/
structure Seat where
  holder : Option Cand := none
  sessions : List Session := []
  open_ : Bool := true
  opened : Nat := 0
  claims : List Cand := []
  handover : Option (List Byte × Nat) := none
  owner : Option (List Byte) := none
  deriving DecidableEq, Repr

/-- What firmware loads from the stored configuration (Table 16-4, R377). -/
structure Conf where
  v : Nat
  p : Nat
  tr : Nat
  tt : Nat
  td : Nat
  staging : Nat
  deriving DecidableEq, Repr

/-- A machine-check record of the management core's log (R479): its kind (log 48), the context with its key ID, and the address. -/
structure MCheck where
  kind : Nat
  ctx : Nat
  key : Nat
  addr : Nat
  deriving DecidableEq, Repr

/-- The power states of a core (R499). -/
inductive Pw where
  | on | hold | off | switching
  deriving DecidableEq, Repr

/-- A heat action pending on a core (R404): its kind, the target ratio, and the time it falls due. -/
structure HAct where
  kind : Nat
  ratio : Nat
  due : Nat
  deriving DecidableEq, Repr

/-- A physical core's power and heat state (R403, R404, R499). -/
structure PCore where
  id : Nat
  temp : Nat := 0
  ratio : Nat := 8
  ratioAt : Nat := 0
  want : Option Nat := none
  pw : Pw := .off
  since : Nat := 0
  acts : List HAct := []
  cool : Option Nat := none
  window : Nat := 8
  deriving DecidableEq, Repr

/-- A physical row's regulator and in-rush queue (R497, R501). -/
structure PRow where
  id : Nat
  mv : Nat := 650
  queue : List Nat := []
  deriving DecidableEq, Repr

/-- A die's power and dispatch blocks (R387, R502). -/
structure Die where
  target : BitVec 10 := 0
  rec_ : Vector Word 8 := Vector.replicate 8 0
  bstat : BitVec 8 := 0xFF
  busy : Bool := false
  pbhold : Nat := 50
  tr : Nat := 85
  tt : Nat := 95
  td : Nat := 100
  pidle : Vector Word 12 := Vector.replicate 12 0
  l2p : List (Nat × Nat) := []
  clock : Clk := Vector.replicate 6 0
  deriving DecidableEq, Repr

/-- A bind record accepted and not yet applied, with the clk of its core at go (R388). -/
structure Pend where
  core : Nat
  rec_ : Vector Word 8
  at_ : Nat := 0
  deriving DecidableEq, Repr

/-- An answer of the device to the outside: a network packet, a host message, a seat status, a chunk of a capture. -/
inductive Out where
  | seat (c : Cand) (status : BitVec 8)
  | bytes (c : Cand) (b : List Byte)
  | net (tag path off port entropy : Nat) (b : List Byte)
  | reply (peer off : Nat) (b : List Byte)
  | netStatus (peer : Nat) (status : BitVec 8)
  | note (kind serial : Nat) (sig : List Byte)
  | ats (func pasid iova : Nat)
  | pri (func pasid iova : Nat) (wr : Bool)
  | inv (func pasid iova : Nat)
  | replayEnd (ctx : Nat) (bad : Option CapRec)
  | host (addr : Nat) (b : List Byte)
  | reg (addr : Nat) (v : Word) (err : Bool)
  | driveUnused (d : Nat)
  deriving DecidableEq, Repr

/-- How an issue unit stands (R68): a single; the first member of a pair; the second, which reads the thread as it stood before
the pair, and finds behind it the requests that were on their way then. -/
inductive Mode where
  | single
  | first
  | second (before : Thread) (reqs : Nat)
  deriving DecidableEq, Repr

/-- Why an instruction does not retire now: it traps; it is blocked and has done nothing; it waits as its own effect says, with nothing done
(R383: fwait, fany, kwait, mwait, mrecv.pop, gang); its translation misses both TLBs (R330); or it hits the row TLB (R327). -/
inductive Stop where
  | trap (cause tval : Word)
  | block
  | wait
  | miss (va : Nat) (wr : Bool)
  | rowHit (e : Pte)
  deriving DecidableEq, Repr

/-- How the last member issued ended: it ran; its thread parked with part of the effect made; or it stopped. -/
inductive IssRes where
  | done
  | parked
  | stop (e : Stop)
  deriving DecidableEq, Repr

/-- The issue unit in progress: its mode, how its last member ended, the target of a taken transfer, whether the unit holds a pair,
and the word itself (for a gang, R438). -/
structure Iss where
  mode : Mode := .single
  res : IssRes := .done
  target : Option Word := none
  pair : Bool := false
  deriving DecidableEq, Repr

/-- A move the agenda holds: an event, a clk of a core, the passing of microseconds on the IOD, a wake on its way to the wake router (R456), a
physical error, the eviction of a line or of a tree node from its home slice (R477), a drive as firmware finds it at bring-up (R335), a
read of a device address by the host (R359), or a read of a management register (R387). -/
inductive Move where
  | ev (i : Instr)
  | clk (core : Nat)
  | tick (us : Nat)
  | wake (ctx q : Nat) (val : Word)
  | err (e : Err)
  | evict (pa : Nat)
  | evictNode (key lvl ix : Nat)
  | nvme (drive : Nat) (n : Nvme)
  | hostRead (src : Src) (addr n : Nat)
  | regRead (addr : Nat)
  deriving DecidableEq, Repr

/-- The machine. -/
structure State where
  th : Thread
  bd : Bind
  core : Core
  cx : Context
  ths : List Thread
  bds : List Bind
  cores : List Core
  cxs : List Context
  mem : Memory
  poison : List Nat
  host : Memory
  reqs : List Req
  pkts : List Pkt
  walks : List Walk
  groups : List Group
  nets : List NetCmd
  dies : Vector Die 4
  pends : List Pend
  frames : List Frame
  rtlb : List RowTlb
  lines : List HLine
  tier : List TLine
  tnodes : List TNode
  secrets : List (Nat × Nat)
  eccs : Nat
  eccMax : Nat
  staging : Nat
  stagingFree : Nat
  drives : Vector Drive 8
  sops : List SOp
  sweep : Nat × Nat
  evicting : Bool
  iod : Nat
  keys : Vector KeySlot 16
  pres : Vector PSlot 16
  free_ : Vector Nat 8
  kfree : Nat
  keyUse : List Nat
  cap : Vector Nat 8
  conf : Conf
  stored : Conf
  rnonces : List (List Byte × Nat)
  resv : List Resv
  period : Nat
  wops : List WReq
  admits : List Admit
  commits : List Commit
  queues : List Queue
  atc : List Atc
  atsq : List Atc
  preqs : List Atc
  refusedPg : List Atc
  invs : List Inval
  endq : List PeerPkt
  tdi : Vector Tdi 65
  ide : Vector Bool 65
  linkUp : Bool
  eports : Vector EPort 8
  cwnds : List Cwnd
  credits : List Credit
  seat : Seat
  driveMask : BitVec 8
  fwVer : Nat
  fwMin : Nat
  fwMinBoot : Nat
  fwNext : Option (Nat × List Byte)
  fwImg : Option (List Byte)
  recovery : Bool
  mchecks : List MCheck
  pcores : List PCore
  prows : List PRow
  inhibit : Bool
  overAt : Option Nat
  bring : Nat
  outs : List Out
  agenda : List Move
  turn : Nat
  free : Nat
  nextTag : Nat
  nextUid : Nat
  iss : Iss
  deriving DecidableEq, Repr

/-- Why a run stops outside the machine the manual describes. -/
inductive Fault where
  /-- Raised by no meaning of this model: every condition the manual names is a trap, a status or a discard (safe). -/
  | none
  deriving DecidableEq, Repr

/-- Why an instruction has no meaning. -/
inductive Refusal where
  /-- Raised by `exec` for an instruction that has no meaning yet (safe: nothing can be proved of its effect). -/
  | notModelled (mnemonic : String)
  deriving DecidableEq, Repr

abbrev Out1 := Host.Outcome State Fault Refusal

/-- The capacities firmware is taken to fix at bring-up (log 10). -/
def capReset : Vector Nat 8 := #v[24576, 2 ^ 38, 2 ^ 38, 2 ^ 30, 4096, 0, 0, 0]

/-- v times the capacities: the free amounts where no context lives (R377). -/
def freeReset : Vector Nat 8 := capReset.map (4 * ·)

/-- The configuration firmware is taken to load (log 10). -/
def confReset : Conf := { v := 4, p := 1000, tr := 85, tt := 95, td := 100, staging := 4096 }

/-- The module right after bring-up (R505 steps 1 to 7; log 11): no context, no thread, every core off. -/
def State.reset : State where
  th := { exited := true }
  bd := { gone := true }
  core := {}
  cx := { dead := true }
  ths := []
  bds := []
  cores := []
  cxs := []
  mem := []
  poison := []
  host := []
  reqs := []
  pkts := []
  walks := []
  groups := []
  nets := []
  dies := Vector.replicate 4 {}
  pends := []
  frames := []
  rtlb := []
  lines := []
  tier := []
  tnodes := []
  secrets := []
  eccs := 0
  eccMax := 1024
  staging := 4096
  stagingFree := 4096
  drives := Vector.replicate 8 {}
  sops := []
  sweep := (0, 0)
  evicting := false
  iod := 0
  keys := Vector.replicate 16 {}
  pres := Vector.replicate 16 {}
  free_ := freeReset
  kfree := 128
  keyUse := []
  cap := capReset
  conf := confReset
  stored := confReset
  rnonces := []
  resv := []
  period := 0
  wops := []
  admits := []
  commits := []
  queues := []
  atc := []
  atsq := []
  preqs := []
  refusedPg := []
  invs := []
  endq := []
  tdi := Vector.replicate 65 .unlocked
  ide := Vector.replicate 65 false
  linkUp := true
  eports := Vector.replicate 8 {}
  cwnds := []
  credits := []
  seat := {}
  driveMask := 0xFF
  fwVer := 1
  fwMin := 1
  fwMinBoot := 1
  fwNext := none
  fwImg := none
  recovery := false
  mchecks := []
  pcores := []
  prows := []
  inhibit := false
  overAt := none
  bring := 7
  outs := []
  agenda := []
  turn := 0
  free := 0
  nextTag := 0
  nextUid := 0
  iss := {}

end Sys2Proof.Machine
end

