-- ==== Sys2Proof/Machine/Mem.lean ====
section
/-! DEFINITION. Named operations over memories (canonical lists of bytes), over sets of poisoned 64-byte units, and over byte
strings (R16, R342, R483). -/
namespace Sys2Proof.Machine
open Sys2Proof

/-- The byte at an address: the listed one, else 0. -/
def Memory.get : Memory → Nat → Byte
  | [], _ => 0
  | (x, c) :: r, a => if a = x then c else Memory.get r a

/-- Writes one byte, and keeps the canonical form. -/
def Memory.set : Memory → Nat → Byte → Memory
  | [], a, b => if b = 0 then [] else [(a, b)]
  | (x, c) :: r, a, b =>
    if a < x then (if b = 0 then (x, c) :: r else (a, b) :: (x, c) :: r)
    else if a = x then (if b = 0 then r else (a, b) :: r)
    else (x, c) :: Memory.set r a b

/-- The canonical form from a lower bound on: addresses strictly rising, and no byte equal to what an unlisted address reads as. -/
def Memory.wfFrom : Nat → Memory → Bool
  | _, [] => true
  | lo, (x, c) :: r => decide (lo ≤ x) && decide (c ≠ 0) && Memory.wfFrom (x + 1) r

def Memory.wf (m : Memory) : Bool := Memory.wfFrom 0 m

/-- The n bytes from an address upward. -/
def Memory.bytes (m : Memory) (a : Nat) : Nat → List Byte
  | 0 => []
  | n + 1 => m.get a :: Memory.bytes m (a + 1) n

/-- Writes a byte string from an address upward. -/
def Memory.put (m : Memory) (a : Nat) : List Byte → Memory
  | [] => m
  | b :: r => Memory.put (m.set a b) (a + 1) r

/-- Writes listed bytes, each under the bits it changes (R184). -/
def Memory.putMasked (m : Memory) : List (Nat × Byte × Byte) → Memory
  | [] => m
  | (a, b, k) :: r => Memory.putMasked (m.set a ((m.get a &&& ~~~k) ||| (b &&& k))) r

/-- Clears every byte of a range, from a list (used where a frame or a window starts at zero: R311, R477). -/
def Memory.clear (m : Memory) (a n : Nat) : Memory := m.filter fun c => c.1 < a || a + n ≤ c.1

/-- The little-endian number of a byte string (R16). -/
def leNat : List Byte → Nat
  | [] => 0
  | b :: r => b.toNat + 256 * leNat r

/-- The n bytes of a number, little-endian. -/
def leBytes (n : Nat) : Nat → List Byte
  | 0 => []
  | k + 1 => BitVec.ofNat 8 n :: leBytes (n / 256) k

def leWord (l : List Byte) : Word := BitVec.ofNat 64 (leNat l)

/-- The n bytes of a byte string from an offset on, zeros past its end. -/
def slice (l : List Byte) (o n : Nat) : List Byte :=
  let t := (l.drop o).take n
  t ++ List.replicate (n - t.length) 0

/-- The number in n bytes at an offset. -/
def fieldAt (l : List Byte) (o n : Nat) : Nat := leNat (slice l o n)

/-- Cuts a byte string into pieces of k bytes, the last one shorter. The first argument bounds the number of pieces. -/
def chunks (k : Nat) : Nat → List Byte → List (List Byte)
  | 0, _ => []
  | n + 1, l => if l.isEmpty then [] else l.take k :: chunks k n (l.drop k)

/-- Adds to a strictly rising list of numbers. -/
def insertNat (x : Nat) : List Nat → List Nat
  | [] => [x]
  | y :: r => if x < y then x :: y :: r else if x = y then y :: r else y :: insertNat x r

/-- Adds every number from lo on, n of them. -/
def insertRange (lo : Nat) : Nat → List Nat → List Nat
  | 0, l => l
  | n + 1, l => insertNat lo (insertRange (lo + 1) n l)

/-- The 64-byte units that n bytes from an address touch: the first, and how many. -/
def units (a n : Nat) : Nat × Nat := (a / 64, (a + n - 1) / 64 + 1 - a / 64)

/-- Some byte of the range stands in a poisoned unit (R483). -/
def poisoned (p : List Nat) (a n : Nat) : Bool :=
  n != 0 && p.any fun u => a / 64 ≤ u && u ≤ (a + n - 1) / 64

/-- The poison after n bytes from an address are written (R483): a unit written whole is clean. -/
def unpoison (p : List Nat) (a n : Nat) : List Nat :=
  p.filter fun u => !(a ≤ 64 * u && 64 * u + 64 ≤ a + n)

/-- Poisons every unit that n bytes from an address touch. -/
def addPoison (p : List Nat) (a n : Nat) : List Nat :=
  if n = 0 then p else insertRange (units a n).1 (units a n).2 p

/-- The home slice of a physical address (R315). -/
def home (pa : Nat) : Nat :=
  (List.range 7).foldl (fun h k => h ^^^ ((pa >>> (12 + 6 * k)) % 2 ^ (min (12 + 6 * k + 5) 51 + 1 - (12 + 6 * k)))) 0

/-- Device memory lies below this: the first tier, then the second (R18). -/
def tier2 : Nat := 0x1000000000000
def deviceRegs : Nat := 0xF000000000000

/-- The address of a byte of host memory in the model's one host memory: function, PASID and I/O virtual address, above every
52-bit physical address (log 6). -/
def hostAddr (func pasid iova : Nat) : Nat := 2 ^ 96 + ((func * 2 ^ 20 + pasid) * 2 ^ 64) + iova

def isHost (pa : Nat) : Bool := decide (2 ^ 96 ≤ pa)

/-- Host addresses and device registers have no home slice (R315). -/
def noHome (pa : Nat) : Bool := decide (deviceRegs ≤ pa)

/-- The wake window of R443 and R456: queue n of context c at 4,096 × (256c + n). -/
def wakeWin : Nat := 0xF000080000000
def isWake (pa : Nat) : Bool := decide (wakeWin ≤ pa) && decide (pa < wakeWin + 2 ^ 27)

end Sys2Proof.Machine
end

