-- ==== Sys2Proof/Machine/Tier.lean ====
section
/-! DEFINITION. The two boundaries of R473 and R474: what the arrays on the chip hold masked, the lines that the home slices hold (R317), the
lines and tags of the tiers (R475), the integrity tree (R476, R477), and the keys of a key ID (R480). `State.mem` holds what a fill decrypts to;
the forms at rest stand beside it (log 50). -/
namespace Sys2Proof.Machine
open Sys2Proof

/-! ### Keys (R480) -/

/-- The number under which a key ID's secrets were drawn; the device world has its own (R473). -/
def deviceWorld : Nat := 128
def State.secret? (s : State) (k : Nat) : Option Nat := (s.secrets.find? fun x => x.1 = k).map (·.2)

/-- The three keys of a draw. -/
def dataKey (n : Nat) : BitVec 512 := BitVec.ofNat 512 (Config.freeSecret n)
def macKey (n : Nat) : BitVec 256 := BitVec.ofNat 256 (Config.freeSecret (n + 1))
def scrKey (n : Nat) : BitVec 128 := BitVec.ofNat 128 (Config.freeSecret (n + 2))

/-- A key ID is taken: its keys are drawn (R363, R480). -/
def State.drawKeys (k : Nat) (s : State) : State :=
  { s with secrets := (k, s.free) :: s.secrets.filter (fun x => x.1 != k), free := s.free + 3 }

/-- What an array location holds for a word of world k (R473). -/
def State.masked (s : State) (k loc : Nat) (w : Word) : Word :=
  match s.secret? k with
  | some n => w ^^^ Config.scramble (scrKey n) loc
  | none => w

/-! ### Lines at rest (R474, R475) -/

/-- The key ID that a line belongs to: its frame's, or its context's where it is of a page table (R321); else the device world's. -/
def State.keyAt (s : State) (pa : Nat) : Nat :=
  match s.frames.find? fun f => f.base ≤ pa && pa < f.base + f.size with
  | some f => f.key
  | none => (((s.cx :: s.cxs).find? fun x => !x.dead && x.tabs.any fun t => t.pa ≤ pa && pa < t.pa + 16384).map (·.key)).getD deviceWorld

/-- The ciphertext of a line, under its address as tweak. -/
def State.cipherOf (s : State) (k pa : Nat) (b : List Byte) : List Byte := Config.aesXts (dataKey ((s.secret? k).getD 0)) pa b

/-- The tag of a line (R475). -/
def State.lineTag (s : State) (k pa ver : Nat) (cipher : List Byte) : List Byte :=
  (Config.shake256 (leBytes (macKey ((s.secret? k).getD 0)).toNat 32 ++ leBytes pa 8 ++ leBytes k 1 ++ leBytes ver 7 ++ cipher)).take 8

/-- The reserved tag value of a poisoned line (R483). DESIGN CHOICE (log 50): all ones. -/
def poisonTag : List Byte := List.replicate 8 0xFF

def State.tier? (s : State) (a : Nat) : Option TLine := s.tier.find? fun t => t.pa = a

/-- The version of a line: 0 where it was never written back (R477). -/
def State.lineVer (s : State) (a : Nat) : Nat := ((s.tier? a).map (·.ver)).getD 0

/-! ### The integrity tree (R476, R477) -/

/-- The place of the node of a level above a line: a level-h node stands above 8^h lines. The tree of a key ID is numbered by physical lines
(log 50). -/
def nodeIx (lvl pa : Nat) : Nat := pa / 64 / 8 ^ lvl

/-- Nodes of this level have their counters in the root store. -/
def topLevel : Nat := 12

def State.node (s : State) (k lvl ix : Nat) : TNode :=
  (s.tnodes.find? fun n => n.key = k && n.lvl = lvl && n.ix = ix).getD { key := k, lvl, ix }

def State.setNode (n : TNode) (s : State) : State :=
  { s with tnodes := n :: s.tnodes.filter fun m => !(m.key = n.key && m.lvl = n.lvl && m.ix = n.ix) }

/-- The child counters that a node holds (Table 16-1). -/
def State.counters (s : State) (k lvl ix : Nat) : List Nat :=
  (List.range 8).map fun j => if lvl = 1 then s.lineVer (64 * (8 * ix + j)) else (s.node k (lvl - 1) (8 * ix + j)).ctr

/-- The tag of a node, at a node address. -/
def State.nodeTag (s : State) (addr k lvl ix : Nat) : List Byte :=
  (Config.shake256 (leBytes (macKey ((s.secret? k).getD 0)).toNat 32 ++ leBytes addr 8 ++ leBytes k 1 ++ leBytes (s.node k lvl ix).ctr 7 ++
    (s.counters k lvl ix).flatMap fun c => leBytes c 7)).take 8

/-- A slice evicts a node: where it was changed it is written back with a new tag, and its counter in its parent rises. -/
def State.evictNode (k lvl ix : Nat) (s : State) : State :=
  let n := s.node k lvl ix
  if !n.dirty then s
  else
    let s := s.setNode { n with ctr := n.ctr + 1, dirty := false }
    if lvl < topLevel then s.setNode { s.node k (lvl + 1) (ix / 8) with dirty := true } else s

/-! ### The home slices (R317) -/

/-- The set of a line: 4,096 sets of 16 ways in each slice (log 50). -/
def lineSet (pa : Nat) : Nat × Nat := (home pa, pa / 64 % 4096)

/-- A line is written back: encrypted, tagged, and its counter one higher; a counter that cannot rise leaves it poisoned (R477). -/
def State.writeBack (a : Nat) (s : State) : State :=
  let k := s.keyAt a
  let v := s.lineVer a
  let full := decide (2 ^ 56 - 1 ≤ v)
  let s := if full then { s with poison := insertNat (a / 64) s.poison } else s
  let ver := if full then v else v + 1
  let c := s.cipherOf k a (s.mem.bytes a 64)
  let tag := if s.poison.contains (a / 64) then poisonTag else s.lineTag k a ver c
  { s with tier := ⟨a, k, ver, c, tag⟩ :: s.tier.filter fun t => t.pa != a }.setNode { s.node k 1 (nodeIx 1 a) with dirty := true }

/-- A line leaves its slice. -/
def State.evictLine (a : Nat) (s : State) : State :=
  match s.lines.find? fun l => l.pa = a with
  | none => s
  | some l =>
    let s := { s with lines := s.lines.filter fun x => x.pa != a }
    if l.dirty then s.writeBack a else s

/-- An access touches a line: it is in its slice from then on, and a write leaves it dirty. A full set gives up the line it has held longest
(log 50). -/
def State.touchLine (wr : Bool) (pa : Nat) (s : State) : State :=
  let a := pa / 64 * 64
  if noHome a then s
  else if s.lines.any fun l => l.pa = a then
    { s with lines := s.lines.map fun l => if l.pa = a then { l with dirty := l.dirty || wr } else l }
  else
    let same := s.lines.filter fun l => decide (lineSet l.pa = lineSet a)
    let s := match same with
      | l :: _ => if 16 ≤ same.length then s.evictLine l.pa else s
      | [] => s
    { s with lines := s.lines ++ [⟨a, wr⟩] }

/-- Every line of a range of bytes is touched. -/
def State.touchLines (wr : Bool) (pa n : Nat) (s : State) : State :=
  (List.range (units pa n).2).foldl (fun s i => s.touchLine wr (64 * ((units pa n).1 + i))) s

/-- The lines of a range, and the structures over them, are as in a frame newly given: no line held, and every counter 0 (R477). -/
def State.freshLines (base size : Nat) (s : State) : State :=
  let out (a : Nat) : Bool := a < base || base + size ≤ a
  { s with lines := s.lines.filter fun l => out l.pa, tier := s.tier.filter fun t => out t.pa }

/-- The structures of a key ID are discarded without write-back, its root cleared, and its keys destroyed (R481 steps 2 to 4). -/
def State.destroyKey (k : Nat) (s : State) : State :=
  { s with
    lines := s.lines.filter fun l => s.keyAt l.pa != k
    tier := s.tier.filter fun t => t.key != k
    tnodes := s.tnodes.filter fun n => n.key != k
    secrets := s.secrets.filter fun x => x.1 != k }

/-! ### Vector clocks (R348, R428) -/

/-- Counts are compared modulo 2^40. -/
def countLe (a b : BitVec 40) : Bool := decide ((b - a).toNat < 2 ^ 39)

/-- Every write that a clock names has been applied. -/
def Clk.le (a b : Clk) : Bool := (List.finRange 6).all fun k => countLe a[k] b[k]

end Sys2Proof.Machine
end

