-- ==== Sys2Proof/Machine/Ops.lean ====
section
/-! DEFINITION. The named operations every meaning is written over: changing focus, finding and updating records, taking a
trap and returning from one, retiring an issue unit, translating and accessing memory, and completing a future. -/
namespace Sys2Proof.Machine
open Sys2Proof

/-! ### Records and focus -/

/-- The first element that satisfies a test, and the list without it. -/
def pick {α : Type} (p : α → Bool) : List α → Option (α × List α)
  | [] => none
  | x :: r => if p x then some (x, r) else (pick p r).map fun y => (y.1, x :: y.2)

/-- Replaces an element by index. -/
def setAt {α : Type} (l : List α) (k : Nat) (x : α) : List α := l.set k x

def State.thIs (k : TKey) (t : Thread) : Bool := decide (t.key = k) && !t.exited
def Bind.is (core ctx : Nat) (b : Bind) : Bool := decide (b.core = core) && decide (b.ctx = ctx) && !b.gone
def Context.is (c : Nat) (x : Context) : Bool := decide (x.id = c) && !x.dead

/-- The threads that exist: the one in focus unless it has exited, then the others. -/
def State.threads (s : State) : List Thread := if s.th.exited then s.ths else s.th :: s.ths
def State.binds (s : State) : List Bind := if s.bd.gone then s.bds else s.bd :: s.bds
def State.contexts (s : State) : List Context := if s.cx.dead then s.cxs else s.cx :: s.cxs

def State.thread? (s : State) (k : TKey) : Option Thread := s.threads.find? (State.thIs k)
def State.bind? (s : State) (core ctx : Nat) : Option Bind := s.binds.find? (Bind.is core ctx)
def State.cx? (s : State) (c : Nat) : Option Context := s.contexts.find? (Context.is c)
def State.core? (s : State) (c : Nat) : Core :=
  if s.core.id = c then s.core else (s.cores.find? fun x => x.id = c).getD { id := c }

/-- Brings a thread into focus. A thread that has exited is dropped when it leaves the focus. -/
def State.focusTh (k : TKey) (s : State) : State :=
  if State.thIs k s.th then s else
  match pick (State.thIs k) s.ths with
  | none => s
  | some (t, r) => { s with th := t, ths := if s.th.exited then r else s.th :: r }

/-- Brings a bind record into focus; where there is none, none is in focus. -/
def State.focusBd (core ctx : Nat) (s : State) : State :=
  if Bind.is core ctx s.bd then s else
  match pick (Bind.is core ctx) s.bds with
  | none => { s with bd := { gone := true }, bds := if s.bd.gone then s.bds else s.bd :: s.bds }
  | some (b, r) => { s with bd := b, bds := if s.bd.gone then r else s.bd :: r }

/-- Brings a context into focus; where there is none, none is in focus. -/
def State.focusCx (c : Nat) (s : State) : State :=
  if Context.is c s.cx then s else
  match pick (Context.is c) s.cxs with
  | none => { s with cx := { dead := true }, cxs := if s.cx.dead then s.cxs else s.cx :: s.cxs }
  | some (x, r) => { s with cx := x, cxs := if s.cx.dead then r else s.cx :: r }

/-- Brings a core into focus; a core that carries nothing yet is made. -/
def State.focusCore (c : Nat) (s : State) : State :=
  if s.core.id = c then s else
  match pick (fun x : Core => x.id = c) s.cores with
  | none => { s with core := { id := c }, cores := s.core :: s.cores }
  | some (x, r) => { s with core := x, cores := s.core :: r }

/-- Brings a core and one context's bind record and context on it into focus. -/
def State.focusOn (core ctx : Nat) (s : State) : State := ((s.focusCore core).focusBd core ctx).focusCx ctx

/-- Brings a thread with its core, bind record and context into focus. -/
def State.focus (k : TKey) (s : State) : State := (s.focusOn k.core k.ctx).focusTh k

def State.mapThreads (f : Thread → Thread) (s : State) : State := { s with th := f s.th, ths := s.ths.map f }
def State.mapBinds (f : Bind → Bind) (s : State) : State := { s with bd := f s.bd, bds := s.bds.map f }
def State.mapCores (f : Core → Core) (s : State) : State := { s with core := f s.core, cores := s.cores.map f }
def State.mapCxs (f : Context → Context) (s : State) : State := { s with cx := f s.cx, cxs := s.cxs.map f }

def State.updTh (k : TKey) (f : Thread → Thread) (s : State) : State := s.mapThreads fun t => if State.thIs k t then f t else t
def State.updBd (core ctx : Nat) (f : Bind → Bind) (s : State) : State :=
  s.mapBinds fun b => if Bind.is core ctx b then f b else b
def State.updCx (c : Nat) (f : Context → Context) (s : State) : State := s.mapCxs fun x => if Context.is c x then f x else x
def State.updCore (c : Nat) (f : Core → Core) (s : State) : State :=
  s.mapCores fun x => if x.id = c then f x else x

def State.addThread (t : Thread) (s : State) : State :=
  if s.th.exited then { s with th := t } else { s with ths := s.ths ++ [t] }
def State.addBind (b : Bind) (s : State) : State :=
  if s.bd.gone then { s with bd := b } else { s with bds := s.bds ++ [b] }
def State.addCx (x : Context) (s : State) : State :=
  if s.cx.dead then { s with cx := x } else { s with cxs := s.cxs ++ [x] }

/-- The next free value (log 12). -/
def State.fresh (s : State) : Word × State := (Config.freeWord s.free, { s with free := s.free + 1 })

/-- The next operation tag. -/
def State.newTag (s : State) : Nat × State := (s.nextTag, { s with nextTag := s.nextTag + 1 })

def State.mcheck (kind ctx addr : Nat) (s : State) : State := 
  { s with mchecks := s.mchecks ++ [⟨kind, ctx, ((s.cx? ctx).map (·.key)).getD 0, addr⟩] }
def State.out (o : Out) (s : State) : State := { s with outs := s.outs ++ [o] }

/-! ### Logical cores -/

/-- The number of a logical core: die, row, column (R14). -/
def coreId (die row col : Nat) : Nat := die * 768 + row * 16 + col
def coreDie (c : Nat) : Nat := c / 768
def coreRow (c : Nat) : Nat := c % 768 / 16
def coreCol (c : Nat) : Nat := c % 16

/-- A die of the four. -/
def State.die (s : State) (d : Nat) : Die := s.dies[d % 4]'(by omega)
def State.setDie (d : Nat) (x : Die) (s : State) : State := { s with dies := s.dies.set (d % 4) x (by omega) }

/-- The physical core that a logical core stands on (R390), as 768 × die + 16 × row + column. -/
def State.phys? (s : State) (c : Nat) : Option Nat := ((s.die (coreDie c)).l2p.find? fun e => e.1 = c).map (·.2)

/-- The logical core on a physical core. -/
def State.logical? (s : State) (p : Nat) : Option Nat :=
  ([0, 1, 2, 3].flatMap fun d => (s.die d).l2p.filter fun e => e.2 = p).head?.map (·.1)

/-- The core's place in its task's rectangle: column and row. -/
def Task.core (t : Task) (row col : Nat) : Nat := coreId t.die (t.lrow + row) (t.lcol + col)
def Task.holds (t : Task) (c : Nat) : Bool :=
  decide (coreDie c = t.die) && decide (t.lrow ≤ coreRow c) && decide (coreRow c < t.lrow + t.rows) &&
  decide (t.lcol ≤ coreCol c) && decide (coreCol c < t.lcol + t.cols)
/-- The cores of the rectangle, in row order. -/
def Task.coreList (t : Task) : List Nat :=
  (List.range t.rows).flatMap fun r => (List.range t.cols).map fun c => t.core r c

def Context.task? (x : Context) (n : Nat) : Option Task := x.tasks.find? fun t => t.num = n
def Context.updTask (n : Nat) (f : Task → Task) (x : Context) : Context :=
  { x with tasks := x.tasks.map fun t => if t.num = n then f t else t }

/-! ### Program counters (R71, R146) -/

def pcSlot (pc : Word) : Nat := (pc.extractLsb' 0 3).toNat
def pcLine (pc : Word) : Nat := (pc >>> 6).toNat * 64

/-- NextPC of R71. -/
def nextPc (pc : Word) (pair : Bool) : Word :=
  let n := pcSlot pc + (if pair then 2 else 1)
  if n ≤ 4 then (pc &&& ~~~7#64) ||| BitVec.ofNat 64 n
  else (((pc >>> 6) + 1) <<< 6) ||| BitVec.ofNat 64 (n - 5)

/-- The PC after the issue unit in progress (R146). -/
def State.following (s : State) : Word := nextPc s.th.pc s.iss.pair

/-! ### Traps (R278 to R286) -/

/-- Ends the whole tile task of the thread in focus (R45, R282): its threads cease to exist, and the graph learns the status, the
cause and the thread of the first task to fail (R364). -/
def Context.fail (task : Nat) (st : BitVec 8) (c v tid : Word) (x : Context) : Context :=
  let x := x.updTask task fun t => { t with st := .done st }
  if x.failTask = 0xFFFF then { x with failTask := task, status := st, failCause := c, failVal := v, failTid := tid } else x

/-- The handler reads of a task that has ended: what is not delivered is discarded, and its eddies have ceased with its threads (log 28). -/
def Bind.endReads (b : Bind) : Bind := { b with reads := b.reads.map fun r => { r with cancelled := true, live := 0 }, bursts := [] }

def State.endTask (st : BitVec 8) (c v : Word) (s : State) : State :=
  let t := s.th
  { s.mapBinds fun b => if b.ctx = t.ctx && b.task = t.task then b.endReads else b with
    cx := s.cx.fail t.task st c v t.tid
    ths := s.ths.filter fun u => !(u.ctx = t.ctx && u.task = t.task)
    th := { t with exited := true }
    iss := { s.iss with res := .done } }

/-- A task ends with a status that no trap of its own gives, on its cores or saved (R338, R429, R484). -/
def State.failTask (ctx task : Nat) (st : BitVec 8) (s : State) : State :=
  let gone (t : Thread) : Bool := t.ctx = ctx && t.task = task
  let s := s.updCx ctx fun x =>
    let out (m : Msg) : Bool := m.held && m.srcTask = task
    { x.fail task st 0 0 0 with
      saved := x.saved.filter fun v => v.bd.task != task
      mail := x.mail.filter fun m => !(out m), use := x.use.set 3 (x.use[3] - 128 * (x.mail.filter out).length) }
  { s.mapBinds fun b => if b.ctx = ctx && b.task = task then b.endReads else b with
    ths := s.ths.filter fun t => !(gone t), th := if gone s.th then { s.th with exited := true } else s.th }

/-- A trap in an eddy ends the eddy, and its read learns the cause of the first (R25, R421). -/
def HRead.trap (cause : Nat) (sl : BitVec 64) (r : HRead) : HRead :=
  { r with live := r.live - 1, slices := r.slices ||| sl, cause := if r.trapped then r.cause else cause, trapped := true }

def Bind.updRead (tag : Nat) (f : HRead → HRead) (b : Bind) : Bind :=
  { b with reads := b.reads.map fun r => if r.tag = tag then f r else r }

def State.endEddy (e : Eddy) (cause : Word) (s : State) : State :=
  { s with
    bd := s.bd.updRead e.tag (HRead.trap (cause.toNat % 2 ^ 16) s.th.tsm)
    th := { s.th with exited := true }
    iss := { s.iss with res := .done } }

/-- A fence's probe or its echo. -/
def Req.isProbe (r : Req) : Bool := match r.body with | .probe | .echo => true | _ => false

/-- TakeTrap of R282, with the PC that tepc takes and the pair facts. A member of a gang leaves it (R269), and
the probes of a fence it waited in lapse: the fence sends them anew. -/
def State.takeTrap (cause val pc : Word) (pair mem : Bool) (s : State) : State :=
  match s.th.eddy with
  | some e => s.endEddy e cause
  | none =>
    if s.th.handler then s.endTask 0x40 cause val
    else if s.th.tvec = 0 then s.endTask 0x41 cause val
    else { s with
      reqs := s.reqs.filter fun r => !(decide (r.who = .thr s.th.key) && r.isProbe)
      th := { s.th with
        tepc := pc, tcause := cause, tval := val, tpair := pair, tmem := mem, handler := true, retry := none, wait := none, wait1 := none,
        rowOk := false,
        gang := (match s.th.gang with | .member _ _ => .none | g => g), pc := s.th.tvec }
      iss := { s.iss with res := .done } }

/-- The return of R283: task mode, at tepc. -/
def State.trapReturn (s : State) : State :=
  { s with th := { s.th with handler := false, pc := s.th.tepc, icount := s.th.icount + 1 }, iss := { s.iss with res := .done } }

/-! ### Retiring (R156, R284) -/

/-- The loop test of R156 for a unit that holds the PCs `unit`: the loop counts and the PC that follow. -/
def loopTest (lc : Vector W32 2) (lbeg lend : Vector Word 2) (unit : List Word) (fol : Word) : Vector W32 2 × Word :=
  let hit (n : Fin 2) (l : Vector W32 2) : Bool := l[n] != 0 && unit.contains lend[n]
  let lc1 := if hit 1 lc then lc.set 1 (lc[1] - 1) else lc
  if hit 1 lc && lc1[1] != 0 then (lc1, lbeg[1])
  else
    let lc0 := if hit 0 lc1 then lc1.set 0 (lc1[0] - 1) else lc1
    if hit 0 lc1 && lc0[0] != 0 then (lc0, lbeg[0]) else (lc0, fol)

/-- Retires the issue unit: the taken target, or the loop test and the PC that follows; then the step trap (R284). -/
def State.retire (s : State) : State :=
  let t := s.th
  if t.exited then s else
  let unit := if s.iss.pair then [t.pc, nextPc t.pc false] else [t.pc]
  let r := match s.iss.target with
    | some p => (t.lc, p)
    | none => loopTest t.lc t.lbeg t.lend unit s.following
  let t' := { t with
    lc := r.1, pc := r.2, icount := t.icount + (if s.iss.pair then 2 else 1), wait := none, retry := none, wait1 := none
    rowOk := false }
  let s' := { s with th := t', iss := { s.iss with res := .done, target := none } }
  if t.tstep && !t.handler && t.eddy.isNone then
    ({ s' with th := { t' with tstep := false } }).takeTrap 0x0065 t.pc r.2 false false
  else s'

/-- Fills the core TLB; its 64 entries are kept oldest first (R327). -/
def Core.fillTlb (c : Core) (ctx : Nat) (e : Pte) : Core :=
  { c with tlb := (c.tlb.filter fun x => !(x.ctx = ctx && x.e.va = e.va && x.e.lvl = e.lvl)).drop (c.tlb.length - 63) ++ [⟨ctx, e⟩] }

/-- Parks the thread in focus with its effect so far. -/
def State.park (w : Wait) (s : State) : State := { s with th := { s.th with wait := some w }, iss := { s.iss with res := .parked } }

/-- Traps with a code of Table 8-2. -/
def trap {α : Type} (cause tval : Nat) : Except Stop α := .error (.trap (BitVec.ofNat 64 cause) (BitVec.ofNat 64 tval))
def trapW {α : Type} (cause : Nat) (tval : Word) : Except Stop α := .error (.trap (BitVec.ofNat 64 cause) tval)
def blockE {α : Type} : Except Stop α := .error .block
def waitE {α : Type} : Except Stop α := .error .wait
def guardE (b : Bool) (e : Except Stop Unit) : Except Stop Unit := if b then .ok () else e

/-- Keeps the thread out of issue for an interval of its core's clk (R144, R196). -/
def State.hold (n : Nat) (s : State) : State := { s with th := { s.th with busy := max n s.th.busy } }

/-! ### Page table entries (Table 9-2) -/

def Pte.kind (e : Pte) : Nat := (e.ctl.extractLsb' 0 2).toNat
def Pte.state (e : Pte) : Nat := (e.ctl.extractLsb' 2 2).toNat
def Pte.rd (e : Pte) : Bool := e.ctl.getLsbD 4
def Pte.w (e : Pte) : Bool := e.ctl.getLsbD 5
def Pte.x (e : Pte) : Bool := e.ctl.getLsbD 6
def Pte.lock (e : Pte) : Bool := e.ctl.getLsbD 7
def Pte.key (e : Pte) : Nat := (e.ctl.extractLsb' 8 7).toNat
def Pte.bk (e : Pte) : Bool := e.ctl.getLsbD 15
def Pte.attr (e : Pte) : BitVec 11 := e.ctl.extractLsb' 16 11
def Pte.acc (e : Pte) : Bool := e.ctl.getLsbD 27
def Pte.dirty (e : Pte) : Bool := e.ctl.getLsbD 28
def Pte.drive (e : Pte) : Nat := (e.ctl.extractLsb' 29 3).toNat
def Pte.slot (e : Pte) : Nat := (e.ctl.extractLsb' 32 32).toNat

/-- Builds a leaf's control word. -/
def leafCtl (state key : Nat) (rd w x lock bk : Bool) (attr : BitVec 11) (drive slot : Nat) : Word :=
  BitVec.ofNat 64 (2 + 4 * state + (if rd then 16 else 0) + (if w then 32 else 0) + (if x then 64 else 0) +
    (if lock then 128 else 0) + 256 * (key % 128) + (if bk then 2 ^ 15 else 0) + 2 ^ 16 * attr.toNat +
    2 ^ 29 * (drive % 8) + 2 ^ 32 * (slot % 2 ^ 32))

/-- The bytes a leaf maps, by its level (R51). -/
def lvlSize (l : Nat) : Nat := if l = 2 then 2 ^ 36 else if l = 3 then 2 ^ 26 else 2 ^ 16
def Pte.size (e : Pte) : Nat := lvlSize e.lvl
def Pte.covers (e : Pte) (va : Nat) : Bool := decide (e.va ≤ va) && decide (va < e.va + e.size)

/-- The element width, in bits, of the codes a page may hold, and whether an attribute is one of Table 3-5. -/
def attrFmt (a : BitVec 11) : Nat := (a.extractLsb' 6 5).toNat
def attrFill (a : BitVec 11) : Nat := (a.extractLsb' 3 3).toNat
def attrRaw (a : BitVec 11) : Bool := a.getLsbD 2
def attrScale (a : BitVec 11) : Nat := (a.extractLsb' 0 2).toNat

/-- The legal attributes of Table 3-5 (R110). -/
def attrLegal (a : BitVec 11) : Bool :=
  let f := attrFmt a
  if attrRaw a then a == 0x1C4
  else if f ≤ 0x0A then attrFill a == 0 && attrScale a == 0
  else if f = 0x0B || f = 0x0C then attrScale a == 1 || attrScale a == 2 || (attrScale a == 0 && attrFill a == 0)
  else if f = 0x0D || f = 0x0E then attrScale a != 3
  else if f = 0x0F then attrScale a == 1 || attrScale a == 2 || (attrScale a == 0 && attrFill a == 0)
  else false

/-- The malformed entries of R325, for a leaf. -/
def Pte.malformed (e : Pte) : Bool :=
  e.kind != 2 || !(e.lvl == 2 || e.lvl == 3 || e.lvl == 4) || e.state == 3 || (e.state == 1 && !e.bk) ||
  (e.bk && e.lvl != 4) || !attrLegal e.attr ||
  (e.state == 0 && (e.loc.toNat % e.size != 0 || e.loc.toNat / 2 ^ 52 != 0)) || (e.state == 1 && e.loc != 0) ||
  (e.state == 2 && e.loc.toNat % 65536 != 0)

def Context.pte? (x : Context) (va : Nat) : Option Pte := x.ptes.find? fun e => e.covers va
def Context.updPte (va : Nat) (f : Pte → Pte) (x : Context) : Context :=
  { x with ptes := x.ptes.map fun e => if e.covers va then f e else e }

/-- Sets the accessed bit, and for a write the dirty bit, of the page of an address (R324). -/
def Context.touch (va : Nat) (wr : Bool) (x : Context) : Context :=
  x.updPte va fun e => { e with ctl := e.ctl ||| 0x8000000#64 ||| (if wr then 0x10000000#64 else 0) }

/-! ### Walks (R328, R330) -/

/-- The leaf that a walk for an address is for; a page that is absent stands for itself. -/
def Context.leafBase (x : Context) (va : Nat) : Nat := ((x.pte? va).map (·.va)).getD (va / 65536 * 65536)

/-- Starts a walk, or joins the one for the same leaf of the context on the die. -/
def State.startWalk (w : Walk) (s : State) : State :=
  let same (x : Walk) : Bool := x.ctx = w.ctx && x.die = w.die && x.va = w.va
  { s with walks := if s.walks.any same then s.walks.map fun x => if same x then { x with wr := x.wr || w.wr } else x else s.walks ++ [w] }

/-- The retry latch: the thread leaves the rotation, and a walk starts or is joined. -/
def State.latchMiss (va : Nat) (wr : Bool) (s : State) : State :=
  let s := s.startWalk ⟨s.th.ctx, coreDie s.th.core, s.cx.leafBase va, wr⟩
  { s with
    th := { s.th with retry := some { va, wr, long := false, settled := false } }
    iss := { s.iss with res := .parked } }

/-- Sets the accessed and the dirty bit of the page of a physical address. -/
def Context.touchPhys (pa : Nat) (x : Context) : Context :=
  let hit (e : Pte) : Bool := e.state = 0 && e.loc.toNat ≤ pa && pa < e.loc.toNat + e.size
  { x with ptes := x.ptes.map fun e => if hit e then { e with ctl := e.ctl ||| 0x18000000#64 } else e }

/-! ### Addresses and places (R51, R163, R323) -/

def winBase : Nat := 0x00FFFFFFFFF80000
def isWin (va : Nat) : Bool := decide (winBase ≤ va) && decide (va < 2 ^ 56)
/-- The size of the window in bytes: none where the context is absent, in its lee or on a core gone dark; the lent lines count while lending
runs (R56, R401, R402). -/
def Bind.winSize (b : Bind) : Nat :=
  if b.gone || b.dark || b.went then 0 else (if b.lee && !b.lent then min b.lines 512 else b.lines) * 512
def Bind.spadAddr (b : Bind) (o : Nat) : Nat := b.base * 512 + o

/-- The raw attribute (R164). -/
def rawAttr : BitVec 11 := 0x1C4

/-- Where an address stands: a byte of the core's scratchpad, or a physical or host address, with the page's attribute and the
page's own first address (for R165). -/
structure Spot where
  win : Bool
  pa : Nat
  attr : BitVec 11
  off : Nat
  va : Nat
  deriving DecidableEq, Repr

/-- The physical or host address a leaf gives a virtual address. -/
def Pte.phys (e : Pte) (va : Nat) : Nat :=
  if e.state = 2 then hostAddr e.func e.pasid (e.loc.toNat + (va - e.va)) else e.loc.toNat + (va - e.va)

def Pte.spot (e : Pte) (va : Nat) : Spot := ⟨false, e.phys va, e.attr, va - e.va, va⟩
def winSpot (b : Bind) (va : Nat) : Spot := ⟨true, b.spadAddr (va - winBase), rawAttr, va - winBase, va⟩

/-- Permission for a data access, under the context's key (R325, R412). -/
def Pte.allows (e : Pte) (key : Nat) (wr : Bool) : Bool := e.key == key && (if wr then e.w else e.rd)

/-- Translation for an instruction of the thread in focus: the core TLB, then the row TLB (R327), else the retry latch (R330). -/
def State.xlat (s : State) (va : Nat) (wr : Bool) : Except Stop Pte :=
  match s.core.tlb.find? fun x => x.ctx = s.th.ctx && x.e.covers va with
  | some x => if x.e.allows s.cx.key wr then .ok x.e else trap 1 va
  | none =>
    match s.rtlb.find? fun x => x.row = s.core.id / 16 && x.ctx = s.th.ctx && x.e.covers va with
    | some x => if s.th.rowOk then (if x.e.allows s.cx.key wr then .ok x.e else trap 1 va) else .error (.rowHit x.e)
    | none => if s.th.retry.any fun r => r.bad && r.va / 65536 = va / 65536 then trap 1 va else .error (.miss va wr)

/-- The place of one byte for an instruction: the address check (R51), the window (R163), the translation. -/
def State.spot (s : State) (va : Nat) (wr : Bool) : Except Stop Spot :=
  if 2 ^ 56 ≤ va then trap 2 va
  else if isWin va then
    if va - winBase < s.bd.winSize then .ok (winSpot s.bd va) else trap 1 va
  else (s.xlat va wr).map fun e => e.spot va

/-! ### The thread's own accesses -/

def State.owns (s : State) (r : Req) : Bool := decide (r.who = .thr s.th.key)

/-- The requests on their way before the issue unit in progress: a member of a pair waits for none that the other makes (R68). -/
def State.before (s : State) : List Req := match s.iss.mode with | .second _ n => s.reqs.take n | _ => s.reqs

/-- The bytes a request will change. -/
def Req.cells (r : Req) : List (Nat × Byte × Byte) := match r.body with | .write c => c | _ => []

/-- Some atomic of the thread, not yet performed, touches the bytes: a later read of them waits (R343). -/
def State.atomPending (s : State) (pa n : Nat) : Bool :=
  s.before.any fun r => s.owns r && match r.body with | .amo .. => decide (r.pa < pa + n) && decide (pa < r.pa + 8) | _ => false

/-- The queue table of R449. -/
def queueTab : Nat := 0x00FFFFFFFFF00000

/-- A byte of a device register as a context reads it: a wake register reads as status word 4 of its queue's descriptor (R456). -/
def State.regByte (s : State) (pa : Nat) : Byte :=
  if isWake pa && pa % 4096 < 8 then
    let va := queueTab + 64 * (pa / 4096 % 256) + 32 + pa % 4096
    match (s.cx? ((pa - wakeWin) / 2 ^ 20)).bind fun x => x.pte? va with
    | some e => s.mem.get (e.phys va)
    | none => 0
  else 0

/-- A byte of device or host memory, as performed. -/
def State.memByte (s : State) (pa : Nat) : Byte :=
  if isHost pa then s.host.get pa else if noHome pa then s.regByte pa else s.mem.get pa

/-- A byte as the thread in focus reads it: its own stores not yet performed stand over what is performed (R343). -/
def State.ownByte (s : State) (pa : Nat) : Byte :=
  if noHome pa && !(isHost pa) then s.regByte pa else s.reqs.foldl (fun b r => if s.owns r then
    r.cells.foldl (fun b c => if c.1 = pa then (b &&& ~~~c.2.2) ||| (c.2.1 &&& c.2.2) else b) b else b) (s.memByte pa)

/-- The n bytes at a place, as the thread in focus reads them. Under replay, host memory answers from the stream (R495). -/
def State.readAt (s : State) (p : Spot) (n : Nat) : List Byte :=
  match if isHost p.pa then s.cx.replay else none with
  | some l => ((l.find? fun r => r.kind = 2 && r.addr = p.va).map fun r => slice r.data 0 n).getD (List.replicate n 0)
  | none => (List.range n).map fun i => if p.win then s.core.spad.get (p.pa + i) else s.ownByte (p.pa + i)

/-- Poison among n bytes at a place (R483). -/
def State.poisonAt (s : State) (p : Spot) (n : Nat) : Bool :=
  poisoned (if p.win then s.core.spadPoison else s.poison) p.pa n

/-- The lee bank a scratchpad address stands in, if any (R400). -/
def leeBank (a : Nat) : Option (Fin 20) :=
  if h : 0x40000 ≤ a ∧ a < 0x80000 then some ⟨(a - 0x40000) / 16384, by omega⟩ else none

/-- A touch wakes a lent bank in retention; a gated bank stays gated (R61). -/
def Core.wakeBank (b : Fin 20) (c : Core) : Core :=
  if c.banks[b] = .retention then { c with banks := c.banks.set b .awake } else c

/-- A touch of the scratchpad wakes the lee bank it reaches (R61). -/
def Core.wakeAt (c : Core) (a : Nat) : Core :=
  match leeBank a with
  | some b => c.wakeBank b
  | none => c

/-- The bytes of a context's capture region that are taken (R492). -/
def Context.capBytes (x : Context) : Nat := (x.capRecs.map fun r => 32 + (r.data.length + 31) / 32 * 32).sum

/-- Requests the swap-out of a task that stands on cores (R288). -/
def Task.ask (now : Nat) (t : Task) : Task := if t.st = .placed then { t with st := .saving, asked := now } else t

/-- What stamps a record of the context in focus (R493): the core in focus where an instruction or operation of a core consumes the
input; else the reference core, (0, 0) of the lowest-numbered running task, or 0 of the next task to start. Count, task and core. -/
def State.stamp (s : State) : Nat × Nat × Nat :=
  if !s.bd.gone then (s.bd.ccount.toNat, s.bd.task, s.core.id)
  else
    let low (l : List Task) : Option Task := l.foldl (fun b t => match b with
      | some x => if t.num < x.num then some t else b
      | none => some t) none
    match low (s.cx.tasks.filter fun t => t.st = .placed) with
    | some t => (((s.bind? (t.core 0 0) s.cx.id).map (·.ccount.toNat)).getD 0, t.num, t.core 0 0)
    | none => match low (s.cx.tasks.filter fun t => t.st = .waiting) with
      | some t => (0, t.num, t.core 0 0)
      | none => (0, 0, 0)

/-- Compares what a replay does with the next record of the kind; the first that differs is kept (R495). -/
def Context.compare (kind addr : Nat) (data : List Byte) (x : Context) : Context :=
  match x.replay.bind (pick fun r : CapRec => r.kind = kind) with
  | some (r, rest) =>
    { x with replay := some rest, replayBad := if x.replayBad.isSome || (r.addr = addr && r.data = data) then x.replayBad else some r }
  | none => x

/-- Appends a capture record (R493); a full region swaps the context out (R492). A replay compares its pages made resident and its marks. -/
def State.record (kind addr : Nat) (data : List Byte) (s : State) : State :=
  if s.cx.replay.isSome then (if kind = 4 || kind = 6 then { s with cx := s.cx.compare kind addr data } else s)
  else if s.cx.capture then
    let p := s.stamp
    let r : CapRec := ⟨p.1, p.2.1, coreRow p.2.2, coreDie p.2.2, coreCol p.2.2, kind, addr, data⟩
    let x : Context := { s.cx with capRecs := s.cx.capRecs ++ [r] }
    let full := decide (2 ^ 30 ≤ x.capBytes)
    { s with cx := if full then { x with tasks := x.tasks.map (Task.ask s.iod), capFull := true } else x }
  else s

/-- A replay consumes the record a read answered from. -/
def Context.consume (kind addr : Nat) (x : Context) : Context :=
  { x with replay := x.replay.map fun l => match pick (fun r : CapRec => r.kind = kind && r.addr = addr) l with
    | some (_, r) => r
    | none => l }

/-- The thread's own stores that a read of n bytes has met before they were performed (R344). -/
def State.sawOwn (pa n : Nat) (s : State) : State :=
  let hit (r : Req) : Bool := s.owns r && r.cells.any fun c => pa ≤ c.1 && c.1 < pa + n
  { s with reqs := if s.reqs.any hit then s.reqs.map fun r => if hit r then { r with seen := true } else r else s.reqs }

/-- Marks what a read of n bytes leaves: the accessed bit, the read-slice mask, the line in its slice, a woken lee bank, the capture record of
a host read. -/
def State.noteRead (s : State) (p : Spot) (n : Nat) : State :=
  if p.win then { s with core := s.core.wakeAt p.pa }
  else if isHost p.pa then
    let s := (s.sawOwn p.pa n).record 2 p.va (s.readAt p n)
    { s with cx := s.cx.consume 2 p.va }
  else
    let s := (s.sawOwn p.pa n).touchLines false p.pa n
    { s with
      cx := s.cx.touch p.va false
      th := { s.th with rsm := if noHome p.pa then s.th.rsm else s.th.rsm ||| (1#64 <<< home p.pa) } }

/-- Splits written bytes into one request for each 64-byte line, in order (R316, R342). -/
def byLine : List (Nat × Byte × Byte) → List (List (Nat × Byte × Byte))
  | [] => []
  | c :: r =>
    match byLine r with
    | (d :: l) :: m => if c.1 / 64 = d.1 / 64 then (c :: d :: l) :: m else [c] :: (d :: l) :: m
    | x => [c] :: x

/-- The bytes of an unmasked write. -/
def cellsOf (a : Nat) : List Byte → List (Nat × Byte × Byte)
  | [] => []
  | b :: r => (a, b, 0xFF) :: cellsOf (a + 1) r

/-- The scratchpad after bytes are written to it. -/
def Core.spadPut (c : Core) (cells : List (Nat × Byte × Byte)) : Core :=
  let c := cells.foldl (fun (c : Core) (x : Nat × Byte × Byte) => c.wakeAt x.1) c
  let whole (u : Nat) : Bool := (List.range 64).all fun i => cells.any fun x => x.1 = 64 * u + i && x.2.2 = 0xFF
  { c with spad := c.spad.putMasked cells, spadPoison := c.spadPoison.filter fun u => !(whole u) }

/-- Bytes written to host memory or the network: a capture records them; a replay compares them (R493, R495). -/
def State.output (addr : Nat) (bytes : List Byte) (s : State) : State :=
  let h := Config.shake256 bytes
  if s.cx.replay.isSome then { s with cx := s.cx.compare 8 addr h } else s.record 8 addr h

/-- The device lines that bytes lie in. -/
def lineHeads (cells : List (Nat × Byte × Byte)) : List Nat :=
  (((byLine cells).filterMap (·.head?)).map (·.1)).filter fun a => !(noHome a)

/-- A home slice has applied a write of a site: its die counts it (R348), and the line stands there changed (R317). -/
def State.applied (site : Fin 6) (a : Nat) (s : State) : State :=
  let d := s.die (home a / 16)
  (s.setDie (home a / 16) { d with clock := d.clock.set site (d.clock[site] + 1) }).touchLine true a

/-- The bytes of memory after a site's write of bytes is performed; device registers are not memory; a unit written whole loses its
poison (R483). -/
def State.perform (site : Fin 6) (cells : List (Nat × Byte × Byte)) (s : State) : State :=
  let whole (u : Nat) : Bool := (List.range 64).all fun i => cells.any fun x => x.1 = 64 * u + i && x.2.2 = 0xFF
  (lineHeads cells).foldl (fun s a => s.applied site a) { s with
    mem := s.mem.putMasked (cells.filter fun c => !(noHome c.1))
    host := s.host.putMasked (cells.filter fun c => isHost c.1)
    poison := s.poison.filter fun u => !(whole u) }

/-- New(fn, old, b) of R259, for fn 0 to 7, and the conditional swap of cas for fn 8; none where nothing is written. -/
def amoNew (fn : Nat) (t : Ty) (rnd : Rnd) (old b c : Nat) : Option Nat :=
  let m (n : Nat) : Nat := n % 2 ^ t.width
  match fn with
  | 0 => some (wrapInt t (intOf t old + intOf t (m b)))
  | 1 => some (old &&& m b)
  | 2 => some (old ||| m b)
  | 3 => some (old ^^^ m b)
  | 4 => some (if intOf t old ≤ intOf t (m b) then old else m b)
  | 5 => some (if intOf t old ≤ intOf t (m b) then m b else old)
  | 6 => some (m b)
  | 7 => some (fBin .f rnd false (Val.add rnd) old (m b)).1
  | _ => if old = m b then some (m c) else none

/-- An atomic where it is performed: the old value, and memory after it. -/
def State.performAmo (site : Fin 6) (pa fn : Nat) (t : Ty) (rnd : Rnd) (b c : Word) (s : State) : Nat × State :=
  let n := t.width / 8
  let old := leNat ((List.range n).map fun i => s.memByte (pa + i))
  (old, match amoNew fn t rnd old b.toNat c.toNat with
    | some v => s.perform site (cellsOf pa (leBytes v n))
    | none => s.touchLine false pa)

def Req.isStore (r : Req) : Bool := match r.body with | .write _ | .amo .. => true | _ => false

/-- The wake a store request makes: an 8-byte write of a wake register by a thread of its context (R456). -/
def Req.wake? (r : Req) : Option Move :=
  match r.who, r.body with
  | .thr _, .write l =>
    if isWake r.pa && r.pa % 4096 = 0 && l.map (·.1) == (List.range 8).map (r.pa + ·) && l.all (fun c => c.2.2 = 0xFF) then
      some (.wake r.ctx (r.pa / 4096 % 256) (leWord (l.map fun c => c.2.1)))
    else none
  | _, _ => none

/-- The compute die that a logical core stands on. -/
def State.coreSite (s : State) (c : Nat) : Fin 6 := ⟨((s.phys? c).map (· / 768)).getD (coreDie c) % 4, by omega⟩

/-- The site that a party's writes come from (R348). -/
def State.siteOf (s : State) : Who → Fin 6
  | .thr k | .save k => s.coreSite k.core
  | .peer _ _ => 5

/-- The clock that a write of the thread in focus carries to another die (R348, R428). -/
def State.clkTo (s : State) (pa : Nat) : Option Clk :=
  if noHome pa || home pa / 16 = (s.coreSite s.th.core).val then none else some (s.die (home pa / 16)).clock

/-- Some store of the thread in focus, not yet performed, has been read by it (R344). -/
def State.sawStore (s : State) : Bool := s.reqs.any fun r => s.owns r && r.isStore && r.seen

/-- Data that a flit error poisoned leave their unit poisoned where they are performed (R429). -/
def State.spoiled (r : Req) (s : State) : State :=
  if r.pois && !(noHome r.pa) then { s with poison := insertNat (r.pa / 64) s.poison } else s

/-- Performs a store request. A wake goes to the wake router. -/
def State.performReq (s : State) (r : Req) : State :=
  match r.body with
  | .write c =>
    let s := (s.perform (s.siteOf r.who) c).spoiled r
    match r.wake? with
    | some m => { s with agenda := s.agenda ++ [m] }
    | none => s
  | .amo fn t rnd b c _ => (s.performAmo (s.siteOf r.who) r.pa fn t rnd b c).2
  | _ => s


/-- Performs every store the thread in focus has issued, in its order: what an operation it forks must see (R229). -/
def State.flush (s : State) : State :=
  let mine := s.reqs.filter fun r => s.owns r && r.isStore
  mine.foldl State.performReq { s with reqs := s.reqs.filter fun r => !(s.owns r && r.isStore) }

/-- Issues the stores of the thread in focus: window bytes at once, a release after every earlier store; other
bytes as requests to their home slices (R163, R182, R344). A
replay performs no host write (R495). -/
def State.store (s : State) (win : Bool) (cells : List (Nat × Byte × Byte)) (rel : Bool) (sc : Scope) (port : Option Nat) : State :=
  if win then
    let s := if rel then s.flush else s
    { s with core := s.core.spadPut cells }
  else
    let out : List (Nat × Byte × Byte) := cells.filter fun c => isHost c.1
    let s : State := match out with
      | (a, _) :: _ => s.output (a % 2 ^ 64) (out.map fun c : Nat × Byte × Byte => c.2.1)
      | [] => s
    let cells : List (Nat × Byte × Byte) := if s.cx.replay.isSome then cells.filter fun c => !(isHost c.1) else cells
    let rs := (byLine cells).map fun l =>
      let pa := (l.head?.map (·.1)).getD 0
      { who := .thr s.th.key, ctx := s.th.ctx, key := s.cx.key, pa, rel, sc, port, body := .write l, ord := s.sawStore, clk := s.clkTo pa : Req }
    { s with
      reqs := s.reqs ++ rs
      th := { s.th with tsm := cells.foldl (fun m (c : Nat × Byte × Byte) => if noHome c.1 then m else m ||| (1#64 <<< home c.1)) s.th.tsm } }

/-- Marks the pages a store writes (R324). -/
def State.noteWrite (s : State) (vas : List Nat) : State := { s with cx := vas.foldl (fun x v => x.touch v true) s.cx }

/-- An acquiring atomic of the thread in focus that has retired is not performed yet: later accesses wait for it (R260, R344). -/
def State.acquiring (s : State) : Bool := s.before.any fun r => s.owns r && r.isStore && r.acq

/-- Waits while any byte of the range stands in the thread's scoreboard (R185, R313), from which eddies are free, or while an acquiring
atomic is on its way. -/
def State.scoreboard (s : State) (va n : Nat) : Except Stop Unit :=
  let l := match s.iss.mode with | .second t _ => t.rngs | _ => s.th.rngs
  if s.acquiring || (s.th.eddy.isNone && n != 0 && l.any fun r => decide (r.first ≤ va + n - 1) && decide (va ≤ r.last)) then blockE
  else .ok ()

/-! ### How a meaning ends -/

/-- What a trap tells the management core as well: a line-parity trap, with the physical address of the line (R64, R86); an access trap that a
walk for a line met a malformed entry with (R325), which for data the walk's own end has told. -/
def State.trapLog (c v : Word) (s : State) : State :=
  if c = 0x11 then s.mcheck 1 s.th.ctx (((s.cx.pte? v.toNat).map fun e => e.phys v.toNat / 64 * 64).getD 0)
  else if c = 1 && !(s.th.retry.any (·.bad)) && (s.cx.pte? v.toNat).any Pte.malformed then s.mcheck 2 s.th.ctx v.toNat
  else s

/-- What becomes of a unit that stops. -/
def State.stopped (s : State) : Stop → State
  | .trap c v => (s.trapLog c v).takeTrap c v s.th.pc false false
  | .block => { s with iss := { s.iss with res := .stop .block } }
  | .wait => { s with iss := { s.iss with res := .stop .wait } }
  | .miss va wr => s.latchMiss va wr
  | .rowHit e => { s with core := s.core.fillTlb s.th.ctx e, th := { s.th with busy := 8, rowOk := true }, iss := { s.iss with res := .parked } }

/-- Ends a meaning: in a single, the effect is committed and the unit retires, or it stops; in a pair, the verdict is left for the
issue logic (R68). A meaning that parked its thread does not retire. -/
def State.finish (s : State) (r : Except Stop State) : Out1 :=
  match s.iss.mode, r with
  | .single, .ok t => .next (if t.iss.res = .parked then t else t.retire)
  | .single, .error e => .next (s.stopped e)
  | _, .ok t => .next t
  | _, .error e => .next { s with iss := { s.iss with res := .stop e } }

/-! ### Futures (R41, R410) -/

/-- A completion word (R42). -/
def doneWord (result : Nat) (status : BitVec 8) : Word := BitVec.ofNat 64 (result * 256) ||| status.setWidth 64

def Reg.complete (tag : Nat) (w : Word) (sl : BitVec 64) (r : Reg) : Reg :=
  if r.fut = some tag then { val := w, fut := none, jn := sl, tag } else r

def Thread.waitsOn (tag : Nat) (t : Thread) : Bool := t.w.any (fun r => r.fut = some tag) || t.g.any fun r => r.fut = some tag

/-- The completion word lands in the thread's register that holds the future, sets the event latch, and frees the ranges (R234,
R266, R410). An eddy's snapshot resolves to the same word but its latch is its own. -/
def Thread.complete (tag : Nat) (w : Word) (sl : BitVec 64) (t : Thread) : Thread :=
  { t with
    w := t.w.map (Reg.complete tag w sl), g := t.g.map (Reg.complete tag w sl)
    latch := t.latch || t.waitsOn tag
    rngs := t.rngs.filter fun r => r.tag != tag }

def State.complete (tag : Nat) (w : Word) (sl : BitVec 64) (s : State) : State :=
  let snap (b : Bind) : Bind := { b with reads := b.reads.map fun r => { r with g := r.g.map (Reg.complete tag w sl) } }
  let s := s.mapThreads (Thread.complete tag w sl)
  let s := s.mapBinds snap
  s.mapCxs fun x => { x with saved := x.saved.map fun v => { v with ths := v.ths.map (Thread.complete tag w sl), bd := snap v.bd } }

/-- Acts on a thread wherever it is, on its core or saved (R275). -/
def State.updAny (k : TKey) (f : Thread → Thread) (s : State) : State :=
  (s.updTh k f).updCx k.ctx fun x =>
    { x with saved := x.saved.map fun v => { v with ths := v.ths.map fun t => if State.thIs k t then f t else t } }

/-- An engine without the blocks that pass for a context. -/
def Engine.noLane (ctx : Nat) (e : Engine) : Engine := { e with lane := e.lane.filter fun b => b.ctx != ctx }

/-! ### The queue pool (R391, R392) -/

/-- A byte of a bind record's minimums or caps. -/
def poolByte (w : Word) (k : Nat) : Nat := (w >>> (8 * k)).toNat % 256

/-- The cells a context holds in a queue kind on a core; a gang holds one of kind 2 until it ends (R408). -/
def State.poolHeld (s : State) (b : Bind) (kind : Nat) : Nat :=
  let mine (t : Thread) : Bool := decide (t.core = b.core) && decide (t.ctx = b.ctx)
  match kind with
  | 0 => b.copies.length + (b.reads.filter fun r => !r.asked).length
  | 1 => if (s.core? b.core).holder = some b.ctx then (s.core? b.core).eng.queue.length else 0
  | 2 => b.sends.length + (s.nets.filter fun n => n.core = b.core && n.ctx = b.ctx).length +
      ((s.threads.filter mine).filter fun t => match t.gang with | .leader .. => true | _ => false).length
  | 3 => ((s.threads.filter mine).map fun t => t.msgs.length).sum
  | 4 => b.bursts.length
  | _ => ((s.threads.filter mine).map fun t => t.held.length).sum

/-- Whether one more cell of a kind is granted (R392). -/
def State.poolGrant (s : State) (b : Bind) (kind : Nat) : Bool :=
  let h := s.poolHeld b kind
  let all := (s.binds.filter fun x => x.core = b.core).flatMap fun x => (List.range 6).map fun k => (x, k)
  let free := 256 - (all.map fun x => s.poolHeld x.1 x.2).sum
  let reserved := (all.map fun x =>
    if x.1.ctx = b.ctx && x.2 = kind then 0 else poolByte x.1.mins x.2 - s.poolHeld x.1 x.2).sum
  if h < poolByte b.mins kind then true
  else if poolByte b.caps kind ≤ h then false
  else decide (reserved < free)

end Sys2Proof.Machine
end

