-- ==== Sys2Proof/Machine/Flags.lean ====
section
/-! DEFINITION. The sticky flags of the thread in focus (R49), and the word of flags a system register read returns. The flags
each operation raises are computed beside its value, in `Num`. -/
namespace Sys2Proof.Machine
open Sys2Proof

/-- Sets sticky flags: bits are only ever added (R49). -/
def State.flag (f : Fl) (s : State) : State := { s with th := { s.th with flags := s.th.flags ||| f } }

/-- The flags a sequence of results raises together. -/
def orFl (l : List (Nat × Fl)) : Fl := l.foldl (fun f x => f ||| x.2) 0

end Sys2Proof.Machine
end

