-- ==== Sys2Proof/Machine/Operands.lean ====
section
/-! DEFINITION. Operands: register presence (R27), waiting for pending registers and joining completed ones (R41, R43, R230), and
reading and writing every operand class (R28, R32, R38, R77, R132, R168). -/
namespace Sys2Proof.Machine
open Sys2Proof

/-- The thread whose registers a member reads: the second member of a pair reads those from before the pair (R68). -/
def State.src (s : State) : Thread := match s.iss.mode with | .second t _ => t | _ => s.th

/-- The stack entry behind wn (R28). -/
def stackIx (wbase : BitVec 8) (n : Nat) : Fin 256 := (wbase + BitVec.ofNat 8 n).toFin

def Thread.regW (t : Thread) (n : Fin 32) : Reg := t.w[stackIx t.wbase n.val]

/-- The w or g register of a specifier below 0x28. -/
def Thread.reg? (t : Thread) (sp : BitVec 8) : Option Reg :=
  match inRange 0 32 sp with
  | some n => some (t.regW n)
  | none => (inRange 0x20 8 sp).map fun n => t.g[n]

def Thread.updReg (t : Thread) (sp : BitVec 8) (f : Reg → Reg) : Thread :=
  match inRange 0 32 sp with
  | some n => { t with w := t.w.set (stackIx t.wbase n.val) (f (t.regW n)) }
  | none => match inRange 0x20 8 sp with
    | some n => { t with g := t.g.set n (f t.g[n]) }
    | none => t

/-! ### Presence (R27) -/

/-- The gale core's v32 to v63 exist for its threads 0 to 3 (R30) while the lee lends (R402). -/
def State.hasUpper (s : State) : Bool := s.bd.heat == .gale && s.bd.lee && s.bd.lent && decide (s.th.slot < 4)

/-- Whether the context of the thread holds the core's engines (R55). -/
def State.holds (s : State) : Bool := decide (s.core.holder = some s.th.ctx)

/-- A specifier names a register the thread does not have; `dst` marks a destination. -/
def State.absent (s : State) (dst : Bool) (sp : BitVec 8) : Bool :=
  let n := sp.toNat
  if s.th.eddy.isSome then
    if n < 0x20 then decide (8 ≤ n)
    else if n < 0x28 then dst
    else if n < 0x2C then dst
    else if n < 0x2E then true
    else if n < 0x40 then false
    else if n < 0x80 then decide (0x44 ≤ n)
    else if n < 0xB0 then true
    else if n < 0xB8 then decide (0xB2 ≤ n)
    else if n < 0xC0 then decide (0xBC ≤ n)
    else false
  else
    if 0x28 ≤ n ∧ n < 0x2C then true
    else if 0x60 ≤ n ∧ n < 0x80 then !s.hasUpper
    else if 0xA0 ≤ n ∧ n < 0xAA then !s.holds
    else false

/-- The presence check of step 9 of R85, over the operands in the order d, a, b, c. -/
def State.present (s : State) : List (Bool × BitVec 8) → Except Stop Unit
  | [] => .ok ()
  | (dst, sp) :: l => if s.absent dst sp then trap 3 sp.toNat else s.present l

/-- An instruction that an eddy may not issue (R161, R199, R251, R277); tval is its op. -/
def State.noEddy (s : State) (op : Nat) : Except Stop Unit := if s.th.eddy.isSome then trap 0x23 op else .ok ()

/-! ### Waiting and joining -/

/-- No named w or g register is pending (R41, R43). -/
def State.settled (s : State) (l : List (BitVec 8)) : Bool :=
  l.all fun sp => match s.src.reg? sp with | some r => r.fut.isNone | none => true

/-- The first observation of a completion word joins its operation: the slices it wrote enter tsm (R230). -/
def Thread.join (t : Thread) (sp : BitVec 8) : Thread :=
  match t.reg? sp with
  | some r => if r.jn = 0 then t else { t.updReg sp (fun r => { r with jn := 0 }) with
      tsm := t.tsm ||| r.jn, mjn := t.mjn.filter fun x => x.1 != r.tag }
  | none => t

def State.joinAll (s : State) (l : List (BitVec 8)) : State := { s with th := l.foldl Thread.join s.th }

/-- A named register of v32 to v63 is a touch of the lent vector bank behind it (R61, R400). -/
def State.wakeRegs (s : State) (l : List (BitVec 8)) : State :=
  match inRange 0 4 (BitVec.ofNat 8 s.th.slot) with
  | some j => if l.any (fun sp => 0x60 ≤ sp.toNat && sp.toNat < 0x80) then
      { s with core := s.core.wakeBank ⟨16 + j.val, by omega⟩ } else s
  | none => s

/-- The state in which the operands named have been observed. -/
def State.joined (s : State) (l : List (BitVec 8)) : State := (s.joinAll l).wakeRegs l

/-- What every meaning begins with: presence of the operands, then waiting for those read or written as values, then the joins. -/
def State.begin (s : State) (ds ss : List (BitVec 8)) : Except Stop State := do
  s.present (ds.map (fun d => (true, d)) ++ ss.map fun a => (false, a))
  if s.settled (ds ++ ss) then .ok (s.joined (ds ++ ss)) else blockE

/-- The same for an instruction that an eddy may not issue; R27 puts presence first. -/
def State.beginTh (s : State) (op : Nat) (ds ss : List (BitVec 8)) : Except Stop State := do
  s.present (ds.map (fun d => (true, d)) ++ ss.map fun a => (false, a))
  s.noEddy op
  s.begin ds ss

/-- An address operand whose bits 63:56 are not all zero raises the address trap (R51). -/
def addrs : List Word → Except Stop Unit
  | [] => .ok ()
  | a :: l => if a.toNat / 2 ^ 56 != 0 then trapW 2 a else addrs l

/-! ### Scalar sources -/

/-- The 64 bits of a scalar register (R132). -/
def Thread.sreg (t : Thread) : SReg → Word
  | .w n => (t.regW n).val
  | .g n => t.g[n].val
  | .bc n => match t.eddy with | some e => e.bc[n] | none => 0
  | .lc n => t.lc[n].setWidth 64
  | .zero => 0

def State.sreg (s : State) (r : SReg) : Word := s.src.sreg r

/-- imm32 at an integer type: extended by its signedness (R77). -/
def immAt (t : Ty) (v : W32) : Word := if t.isSigned then v.signExtend 64 else v.setWidth 64

/-- A scalar source at an integer type, as the integer it denotes (R132). -/
def State.int (s : State) (t : Ty) : SSrc → Int
  | .reg r => intOf t (s.sreg r).toNat
  | .imm v => intOf t (immAt t v).toNat

/-- A scalar source as a 64-bit value: .n64. -/
def State.n64 (s : State) : SSrc → Word
  | .reg r => s.sreg r
  | .imm v => v.setWidth 64

/-- A scalar source as .i64. -/
def State.i64 (s : State) : SSrc → Word
  | .reg r => s.sreg r
  | .imm v => v.signExtend 64

/-- A scalar source as a pattern of width(T) bits, with the flags that converting an FP32 imm32 raises (R77, R141). -/
def State.pat (s : State) (t : Ty) (rnd : Rnd) (sat : Bool) : SSrc → Nat × Fl
  | .reg r => ((s.sreg r).toNat % 2 ^ t.width, 0)
  | .imm v =>
    if t.isInt then ((immAt t v).toNat % 2 ^ t.width, 0)
    else convCode t rnd sat .f v.toNat

/-! ### Destinations -/

/-- Writes a w or g register with a value that is not pending. -/
def Thread.setW (t : Thread) (n : Fin 32) (v : Word) : Thread := { t with w := t.w.set (stackIx t.wbase n.val) { val := v } }
def Thread.setG (t : Thread) (n : Fin 8) (v : Word) : Thread := { t with g := t.g.set n { val := v } }

/-- Put of R132. -/
def Thread.put (t : Thread) : SDst → Word → Thread
  | .w n, v => t.setW n v
  | .g n, v => t.setG n v
  | .lc n, v => { t with lc := t.lc.set n (v.setWidth 32) }
  | .bc _, _ | .zero, _ => t

def State.put (s : State) (d : SDst) (v : Word) : State := { s with th := s.th.put d v }

/-- Writes a future into its destination; a future already pending there is dropped (R41, R43). -/
def Thread.putFut (t : Thread) (d : FDst) (tag : Nat) : Thread :=
  match d with
  | .w n => { t with w := t.w.set (stackIx t.wbase n.val) { val := 0, fut := some tag } }
  | .g n => { t with g := t.g.set n { val := 0, fut := some tag } }
  | .bc _ | .zero => t

/-- Forks an operation: its tag, with the future written (R41). -/
def State.fork (s : State) (d : FDst) : Nat × State :=
  (s.nextTag, { s with nextTag := s.nextTag + 1, th := s.th.putFut d s.nextTag })

/-! ### Predicates and masks -/

/-- p0 reads 1 (R32). -/
def Thread.pred (t : Thread) (n : Fin 8) : Bool := n = 0 || t.p[n]
def State.pred (s : State) (n : Fin 8) : Bool := s.src.pred n

/-- Writes to p0 are discarded (R32). -/
def State.setP (s : State) (n : Fin 8) (b : Bool) : State :=
  if n = 0 then s else { s with th := { s.th with p := s.th.p.set n b } }

/-- Element j of width w bits is active under a mask (R31, R169). -/
def active (t : Thread) (m : Mask) (w j : Nat) : Bool :=
  match m with
  | none => true
  | some k => t.m[k].getLsbD (j * (max w 8) / 8)

/-- Which of the n elements of type T are active. -/
def State.act (s : State) (m : Mask) (t : Ty) : List Bool := (List.range t.lanes).map fun j => active s.src m t.width j

/-- The specifier of a mask, as an operand. -/
def maskOps (m : Mask) : List (BitVec 8) := match m with | some k => [specOf 0xB0 k] | none => []

/-! ### Vectors -/

/-- The lane width, in bits, that a type's elements take in a register: six-bit codes stand in byte lanes (R177). -/
def laneBits (t : Ty) : Nat := if t = .e3m2 ∨ t = .e2m3 then 8 else t.width

/-- The elements of a vector register at a lane width, lane 0 first (R30). -/
def lanesOf (w : Nat) (v : VWord) : List Nat := (List.range (768 / w)).map fun j => (v.extractLsb' (w * j) w).toNat

/-- A vector register from its lanes. -/
def ofLanes (w : Nat) (l : List Nat) : VWord :=
  BitVec.ofNat 768 (l.foldr (fun x acc => x % 2 ^ w + 2 ^ w * acc) 0)

def State.setV (s : State) (n : Fin 64) (v : VWord) : State := { s with th := { s.th with v := s.th.v.set n v } }

end Sys2Proof.Machine
end

