-- ==== Sys2Proof/Machine/Access.lean ====
section
/-! DEFINITION. Elements in memory: positions and layouts (R111, R165), decoding and encoding by the page (R113, R164, R166,
R167), the loads and stores of the thread in focus, and the stream ports (R170, R188). -/
namespace Sys2Proof.Machine
open Sys2Proof

/-! ### Layouts (Table 3-5) -/

/-- The size of a record, by element format and scale mode, or none where the attribute is no record layout. -/
def recSize (a : BitVec 11) : Option Nat :=
  let f := attrFmt a
  let extra := if attrScale a = 1 then 12 else if attrScale a = 2 then 4 else 0
  if f = 0x0B || f = 0x0C then (if attrScale a = 0 then none else some (192 + extra))
  else if f = 0x0F then (if attrScale a = 0 then none else some (96 + extra))
  else if f = 0x0D || f = 0x0E then some (144 + extra)
  else none

/-- Records in a 64 KiB granule. -/
def recCount (a : BitVec 11) : Nat :=
  match attrFmt a, attrScale a with
  | 0x0B, 1 | 0x0C, 1 => 321
  | 0x0B, _ | 0x0C, _ => 334
  | 0x0F, 1 => 606
  | 0x0F, _ => 655
  | _, 1 => 420
  | _, 2 => 442
  | _, _ => 455

/-- Bytes of a record before its scale fields. -/
def codeBytes (a : BitVec 11) : Nat :=
  if attrFmt a = 0x0F then 96 else if attrFmt a = 0x0D || attrFmt a = 0x0E then 144 else 192

/-- The format of an attribute's elements. -/
def attrTy (a : BitVec 11) : Ty := (Ty.ofCode (attrFmt a)).getD .n8

/-- The code of element i of a record's bytes (R111). -/
def recCode (a : BitVec 11) (r : List Byte) (i : Nat) : Nat :=
  let b (k : Nat) : Nat := fieldAt r k 1
  if attrFmt a = 0x0F then b (i / 2) / 16 ^ (i % 2) % 16
  else if attrFmt a = 0x0D || attrFmt a = 0x0E then b (i / 2) / 16 ^ (i % 2) % 16 + 16 * (b (96 + i / 4) / 4 ^ (i % 4) % 4)
  else b i

/-- DecodeElement of R113: an exact value, with nv of a zero times an infinity and of a signalling superblock scale (R103, R107);
without `sb` the superblock factor is left out (R198, R208). -/
def decodeElement (a : BitVec 11) (r : List Byte) (i : Nat) (sb : Bool) : Val × Fl :=
  if 24 * (attrFill a + 1) ≤ i then (.zero false, 0)
  else
    let v := valueOf (attrTy a) (recCode a r i)
    let x := if attrScale a = 1 then v.mul (s8Val (fieldAt r (codeBytes a + i / 24) 1)) else (v, 0)
    if sb && attrScale a != 0 then
      let code := fieldAt r (codeBytes a + (if attrScale a = 1 then 8 else 0)) 4
      let y := x.1.mul (valueOf .f code)
      (y.1, x.2 ||| y.2 ||| snanFl .f code)
    else x

/-! ### Elements -/

/-- An element as an access names it: a plain element of a width in bytes, one nibble, or a position of a record, at a place, with
its address. -/
inductive Elem where
  | plain (p : Spot) (w : Nat)
  | nib (p : Spot) (hi : Bool)
  | rec_ (p : Spot) (pos : Nat)
  deriving DecidableEq, Repr

def Elem.spot : Elem → Spot
  | .plain p _ | .nib p _ | .rec_ p _ => p

/-- The address of an element. -/
def Elem.addr : Elem → Nat
  | .plain p _ | .nib p _ => p.va
  | .rec_ p pos => p.va + (if codeBytes p.attr = 192 then pos else pos / 2)

/-- The bytes an element's access touches, as offsets and lengths from its place (R111, R112). -/
def Elem.parts : Elem → List (Nat × Nat)
  | .plain _ w => [(0, w)]
  | .nib _ _ => [(0, 1)]
  | .rec_ p pos =>
    if 24 * (attrFill p.attr + 1) ≤ pos then []
    else
      (if codeBytes p.attr = 192 then [(pos, 1)] else [(pos / 2, 1)]) ++
      (if codeBytes p.attr = 144 then [(96 + pos / 4, 1)] else []) ++
      (if attrScale p.attr = 1 then [(codeBytes p.attr + pos / 24, 1), (codeBytes p.attr + 8, 4)] else []) ++
      (if attrScale p.attr = 2 then [(codeBytes p.attr, 4)] else [])

/-- The width in bytes that an address on this page steps by, for a type T: 0 for half a byte (R165). -/
def stepOf (a : BitVec 11) (t : Ty) : Nat :=
  if attrRaw a then t.width / 8 else (attrTy a).width / 8

/-- The record position that the byte at a place stands for, with the place moved to the record's start; none in a scale field, a
granule's tail, or a high plane (R111, R165). -/
def recAt (p : Spot) (r : Nat) : Option (Spot × Nat) :=
  let g := p.off % 65536
  let bo := g % r
  let lim := if codeBytes p.attr = 192 then 192 else 96
  if recCount p.attr ≤ g / r || lim ≤ bo then none
  else some ({ p with pa := p.pa - bo, off := p.off - bo, va := p.va - bo }, if codeBytes p.attr = 192 then bo else 2 * bo)

/-- The element at an address, by the layout of the page that holds it (R165, R181). -/
def State.elemHere (s : State) (t : Ty) (a : Word) (hi : Bool) (wr : Bool) : Except Stop Elem := do
  let p ← s.spot a.toNat wr
  match recSize p.attr with
  | some r => match recAt p r with
    | none => trapW 1 a
    | some x => .ok (.rec_ x.1 x.2)
  | none =>
    let w := stepOf p.attr t
    if w = 0 then .ok (.nib p hi)
    else if p.off % w != 0 then trapW 0x31 a
    else .ok (.plain p w)

/-- The element `i` places after the one at `ea` (R165). On a plain array it may lie on another page. DESIGN CHOICE (log 47): the page of
`ea` itself is translated for the access, since its attribute names the layout, even where no element of the access lies on it. -/
def State.elem (s : State) (t : Ty) (ea : Word) (i : Int) (wr : Bool) : Except Stop Elem := do
  let p ← s.spot ea.toNat wr
  match recSize p.attr with
  | some r => match recAt p r with
    | none => trapW 1 ea
    | some x =>
      let pos : Int := x.2 + i
      if pos < 0 ∨ 192 ≤ pos then trapW 1 (ea + BitVec.ofInt 64 (if codeBytes p.attr = 192 then i else i / 2))
      else .ok (.rec_ x.1 pos.toNat)
  | none =>
    let w := stepOf p.attr t
    if w = 0 then s.elemHere t (ea + BitVec.ofInt 64 (i / 2)) (i % 2 == 1) wr
    else if p.off % w != 0 then trapW 0x31 (ea + BitVec.ofInt 64 (i * w))
    else s.elemHere t (ea + BitVec.ofInt 64 (i * w)) false wr

/-- The scoreboard check of several byte ranges. -/
def State.scoreAll (s : State) : List (Nat × Nat) → Except Stop Unit
  | [] => .ok ()
  | x :: l => do s.scoreboard x.1 x.2; s.scoreAll l

/-- The checks that precede every read or write: the scoreboard (R185), an atomic of the thread still on its way, and for a read
the poison (R483). -/
def State.elemReady (s : State) (wr : Bool) (e : Elem) : Except Stop Unit := do
  let p := e.spot
  s.scoreAll (e.parts.map fun x => (p.va + x.1, x.2))
  if !wr && e.parts.any (fun x => s.poisonAt { p with pa := p.pa + x.1 } x.2) then trap 1 e.addr
  else if !wr && !p.win && e.parts.any (fun x => s.atomPending (p.pa + x.1) x.2) then blockE
  else .ok ()

/-- LoadElement of R166: a pattern of type T and the flags. -/
def State.loadElem (s : State) (t : Ty) (rnd : Rnd) (sat : Bool) : Elem → Nat × Fl
  | .plain p w =>
    let c := leNat (s.readAt p w)
    if attrRaw p.attr || attrTy p.attr == t then (c, 0) else convCode t rnd sat (attrTy p.attr) c
  | .nib p hi => convCode t rnd sat .q4 (leNat (s.readAt p 1) / (if hi then 16 else 1) % 16)
  | .rec_ p pos =>
    let v := decodeElement p.attr (s.readAt p ((recSize p.attr).getD 0)) pos true
    let c := convert t rnd sat v.1
    (c.1, c.2 ||| v.2)

/-- The bytes a store writes for an element of type T, with the flags (R164, R167). -/
def storeElem (t : Ty) (rnd : Rnd) (sat : Bool) (code : Nat) : Elem → Except Stop (List (Nat × Byte × Byte) × Fl)
  | .plain p w =>
    let c := if attrRaw p.attr then (code, 0) else convCode (attrTy p.attr) rnd sat t code
    .ok (cellsOf p.pa (leBytes c.1 w), c.2)
  | .nib p hi =>
    let c := convCode .q4 rnd sat t code
    let k := if hi then 16 else 1
    .ok ([(p.pa, BitVec.ofNat 8 (c.1 % 16 * k), BitVec.ofNat 8 (15 * k))], c.2)
  | .rec_ p pos => trap 0x32 (Elem.rec_ p pos).addr

/-- An element that no store of the access may write: on a record page, or on a page of another attribute than the one before it (R167). -/
def Elem.unfit (a : Option (BitVec 11)) : Elem → Bool
  | .rec_ _ _ => true
  | e => a.any (· != e.spot.attr)

/-- Elements named by index, for the active lanes, after one on a page of attribute `a`: the list of lane and element. Every check is made
lane by lane, lowest first, a store's format check among them (R186). -/
def State.elemsFrom (s : State) (t : Ty) (ea : Word) (wr : Bool) (a : Option (BitVec 11)) :
    List (Nat × Int) → Except Stop (List (Nat × Elem))
  | [] => .ok []
  | (j, i) :: l => do
    let e ← s.elem t ea i wr
    if wr && e.unfit a then trap 0x32 e.addr
    s.elemReady wr e
    let r ← s.elemsFrom t ea wr (some e.spot.attr) l
    .ok ((j, e) :: r)

def State.elems (s : State) (t : Ty) (ea : Word) (wr : Bool) (l : List (Nat × Int)) : Except Stop (List (Nat × Elem)) :=
  s.elemsFrom t ea wr none l

/-- The state after elements are read: accessed bits, read slices, woken banks, flags. -/
def State.noteReads (s : State) (l : List (Nat × Elem)) : State := l.foldl (fun s x => s.noteRead x.2.spot (x.2.parts.map (·.2)).sum) s

/-- The cells of elements that are stored, in order. -/
def storeCells (t : Ty) (rnd : Rnd) (sat : Bool) (l : List (Elem × Nat)) : List (Nat × Byte × Byte) :=
  l.flatMap fun e => match storeElem t rnd sat e.2 e.1 with | .ok w => w.1 | .error _ => []

/-- Stores patterns to elements that passed their checks (R167, R182), in the window and in memory. -/
def State.storeElems (s : State) (t : Ty) (rnd : Rnd) (sat : Bool) (sc : Scope) (rel : Bool) (port : Option Nat)
    (l : List (Elem × Nat)) : Except Stop State := do
  let fl ← l.foldlM (fun f (e : Elem × Nat) => do let w ← storeElem t rnd sat e.2 e.1; .ok (f ||| w.2)) (0 : Fl)
  let win (e : Elem × Nat) : Bool := e.1.spot.win
  let inWin := storeCells t rnd sat (l.filter win)
  let inDev := storeCells t rnd sat (l.filter fun e => !(win e))
  let s := if inWin.isEmpty then s else s.store true inWin rel sc port
  let s := if inDev.isEmpty then s else s.store false inDev rel sc port
  .ok ((s.noteWrite ((l.filter fun e => !(win e)).map fun e => e.1.spot.va)).flag fl)

/-! ### Stream ports -/

/-- The stream trap: port and reason (Table 5-7). -/
def streamTrap {α : Type} (q : Fin 8) (reason : Nat) : Except Stop α := trap 0x30 (q.val + 256 * reason)

/-- A port ready for its use, or the trap: unbound, wrong direction, exhausted, type mismatch. -/
def State.portFor (s : State) (q : Fin 8) (wr : Bool) (t : Ty) : Except Stop Port :=
  match s.th.q[q] with
  | none => streamTrap q 1
  | some p =>
    if p.wr != wr then streamTrap q 2
    else if p.n1 ≤ p.row then streamTrap q 3
    else if p.t != t then streamTrap q 4
    else .ok p

/-- The address of a port's current row (R187). -/
def Port.rowBase (p : Port) : Word := p.base + BitVec.ofInt 64 (p.s1 * p.row)

/-- The position after m elements (R188). -/
def Port.advance (p : Port) (m : Nat) : Port :=
  if p.n0 ≤ p.elem + m then { p with row := p.row + 1, elem := 0 } else { p with elem := p.elem + m }

def State.setPort (s : State) (q : Fin 8) (p : Option Port) : State := { s with th := { s.th with q := s.th.q.set q p } }

/-- A pop of up to n elements (R170, R188): lanes, zero beyond those popped and at inactive lanes, which are passed over (R169). DESIGN
CHOICE (log 47): of the moments that R189 allows, the elements are read at the pop, and nothing is read ahead. -/
def State.pop (s : State) (q : Fin 8) (t : Ty) (n : Nat) (act : Nat → Bool) : Except Stop (State × List Nat) := do
  let p ← s.portFor q false t
  let m := min n (p.n0 - p.elem)
  let es ← s.elems t p.rowBase false (((List.range m).filter act).map fun j => (j, ((p.elem + j : Nat) : Int)))
  let vals := es.map fun x => (x.1, s.loadElem t p.rnd p.sat x.2)
  let lanes := (List.range n).map fun j => ((vals.find? fun x => x.1 = j).map (·.2.1)).getD 0
  let s := (s.noteReads es).flag (orFl (vals.map (·.2)))
  .ok (s.setPort q (some (p.advance m)), lanes)

/-- An append of the given patterns of type T, as many as the row has room for (R170, R188). -/
def State.append (s : State) (q : Fin 8) (t : Ty) (l : List Nat) : Except Stop State := do
  let p ← s.portFor q true t
  let m := min l.length (p.n0 - p.elem)
  let es ← s.elems t p.rowBase true ((List.range m).map fun j => (j, ((p.elem + j : Nat) : Int)))
  let s ← s.storeElems t p.rnd p.sat p.sc false (some q.val) ((es.map (·.2)).zip l)
  .ok (s.setPort q (some (p.advance m)))

/-! ### Vector sources and destinations -/

/-- The specifiers a vector operand presents. -/
def VSrc.ops (a : VSrc) : List (BitVec 8) := [a.spec]

/-- Reads a vector source; a port already popped by the instruction gives the same elements again (R170). -/
def State.vsrc (s : State) (seen : List (Fin 8 × List Nat)) (t : Ty) (n : Nat) (act : Nat → Bool) :
    VSrc → Except Stop (State × List (Fin 8 × List Nat) × List Nat)
  | .v k => .ok (s, seen, lanesOf (laneBits t) s.src.v[k])
  | .zero => .ok (s, seen, List.replicate n 0)
  | .q k =>
    match seen.find? fun x => x.1 = k with
    | some x => .ok (s, seen, x.2)
    | none => do
      let r ← s.pop k t n act
      .ok (r.1, (k, r.2) :: seen, r.2)

/-- Reads a broadcast source: a scalar stands in every lane (R168). DESIGN CHOICE (log 47): the flags of converting its imm32 are raised
whatever the mask holds. -/
def State.bsrc (s : State) (seen : List (Fin 8 × List Nat)) (t : Ty) (rnd : Rnd) (sat : Bool) (n : Nat) (act : Nat → Bool) :
    BSrc → Except Stop (State × List (Fin 8 × List Nat) × List Nat)
  | .v k => s.vsrc seen t n act (.v k)
  | .q k => s.vsrc seen t n act (.q k)
  | .s a =>
    let v := s.pat t rnd sat a
    .ok (s.flag v.2, seen, List.replicate n v.1)

/-- Writes a vector destination: a register, or the lanes appended to a port (R170). -/
def State.vdst (s : State) (t : Ty) (l : List Nat) : VDst → Except Stop State
  | .v k => .ok (s.setV k (ofLanes (laneBits t) l))
  | .zero => .ok s
  | .q k => s.append k t l

end Sys2Proof.Machine
end

