-- ==== Sys2Proof/Machine/Fetch.lean ====
section
/-! DEFINITION. Fetch lines (R62 to R67), the read of a target line by a checked transfer (R69 to R71), and the transfers of
control built on them. -/
namespace Sys2Proof.Machine
open Sys2Proof

/-! ### Lines and their words -/

/-- The number of ones among bits lo to lo + n - 1 is odd. -/
def oddOnes (x lo n : Nat) : Bool := (List.range n).foldl (fun b k => xor b (x.testBit (lo + k))) false

/-- A fetched line: its physical address, five slots and line word. -/
structure Line where
  pa : Nat
  slots : Vector IWord 5
  word : W32
  deriving DecidableEq, Repr

def lineOf (m : Memory) (pa : Nat) : Line where
  pa
  slots := Vector.ofFn fun k : Fin 5 => BitVec.ofNat 96 (leNat (m.bytes (pa + 12 * k.val) 12))
  word := BitVec.ofNat 32 (leNat (m.bytes (pa + 60) 4))

def Line.lwpOk (l : Line) : Bool := !(oddOnes l.word.toNat 5 27)
def Line.parOk (l : Line) (k : Fin 5) : Bool := oddOnes l.slots[k].toNat 0 96 == l.word.getLsbD k.val
def Line.tgt (l : Line) (k : Nat) : Bool := l.word.getLsbD (10 + k)
def Line.pair (l : Line) : Nat := (l.word.extractLsb' 6 4).toNat

/-- The first members of the pairs of a template (Table 2-2). -/
def pairFirsts : Nat → List (Fin 4)
  | 1 => [0] | 2 => [1] | 3 => [2] | 4 => [3] | 5 => [0, 2] | 6 => [0, 3] | 7 => [1, 3] | _ => []

/-- The entry of the major opcode writes the register that field d names (R67): not the control instructions, the stores, the port and
ring management that has no d, the tag table's writes, and the waits, fences and signals. -/
def writesD (op : BitVec 8) : Bool :=
  uclass op != some .ctl &&
  !([0x64, 0x66, 0x67, 0x69, 0x6B, 0x6C, 0x6E, 0x70, 0x71, 0x8F, 0x97, 0x9C, 0x9D, 0x9F, 0xA1, 0xA2, 0xA6, 0xA7, 0xA9, 0xAA, 0xAB,
      0xAD, 0xAE, 0xB0] : List (BitVec 8)).contains op

/-- The specifiers of a word that its pair compares: what it writes, and the ports, rings, links and tiles it names (R67). The b and c
fields of movi, and the type code in field c of cvt and vcvt, are no specifiers. -/
def rawWrites (r : Raw) : List (BitVec 8) :=
  ((if writesD r.op then [r.d] else []) ++ (if r.op = 0x62 then [r.c] else [])).filter fun x => x != zeroSpec && x != noneSpec

def rawShared (r : Raw) : List (BitVec 8) :=
  (if r.op = 0x1D then [r.d, r.a] else if r.op = 0x20 || r.op = 0x61 then [r.d, r.a, r.b] else [r.d, r.a, r.b, r.c]).filter fun x =>
    let n := x.toNat
    (0x80 ≤ n && n < 0x88) || (0x90 ≤ n && n < 0xA4) || n = 0xA8 || n = 0xA9

/-- A pair breaks a pairing rule of R67. -/
def pairBad (w v : IWord) : Bool :=
  let x := Raw.ofWord w
  let y := Raw.ofWord v
  match uclass x.op, uclass y.op with
  | some a, some b =>
    a == b || a == .sys || b == .sys || a == .ctl || ((rawWrites x).any fun z => (rawWrites y).contains z) ||
    ((rawShared x).any fun z => (rawShared y).contains z)
  | _, _ => false

/-- A malformed line word (R65). -/
def Line.malformed (l : Line) : Bool :=
  l.word.toNat / 2 ^ 15 != 0 || 8 ≤ l.pair ||
  (pairFirsts l.pair).any fun k => l.tgt (k.val + 1) || pairBad l.slots[k.castSucc] l.slots[k.succ]

/-- The slot k issues with its successor. -/
def Line.paired (l : Line) (k : Nat) : Bool := (pairFirsts l.pair).any fun f => f.val = k

/-- The second member of the pair that a slot belongs to, or the slot itself: where flow leaves the unit (R146). -/
def Line.last (l : Line) (k : Nat) : Nat := if l.paired k then k + 1 else k

/-- The physical address of the line of a PC; none where its page is absent or not executable, or the line carries poison (R70,
R85, R483). -/
def State.lineAt (s : State) (pc : Word) : Option Nat :=
  let va := pcLine pc
  match s.cx.pte? va with
  | some e =>
    if e.state = 0 && !e.malformed && e.x && e.key == s.cx.key && !(poisoned s.poison (e.phys va) 64) then some (e.phys va) else none
  | none => none

/-! ### Checked transfers -/

def pcWild (pc : Word) : Bool := pc.extractLsb' 3 3 != 0 || 4 < pcSlot pc

/-- The line that a checked transfer reads, with the address check before it (R70, R71, R146). DESIGN CHOICE (log 47): R155 gives no row for
a lendN whose bits 63:56 are not all zero, which the model takes as the address trap before the access check. -/
def State.targetLine (s : State) (pc : Word) : Except Stop Line :=
  if pc.toNat / 2 ^ 56 != 0 then trapW 2 pc
  else match s.lineAt pc with
    | none => trapW 1 pc
    | some pa => let l := lineOf s.mem pa; if l.lwpOk then .ok l else trapW 0x11 pc

/-- The checks of R70 on a target. -/
def State.checkTarget (s : State) (pc : Word) : Except Stop Unit := do
  let l ← s.targetLine pc
  if pcWild pc || !(l.tgt (pcSlot pc)) then trapW 0x12 pc else .ok ()

/-- Following(lendN), read from the line of lendN with the checks of R155. -/
def State.afterEnd (s : State) (pc : Word) : Except Stop Word := do
  let l ← s.targetLine pc
  if l.malformed then trapW 0x10 (l.word.setWidth 64)
  else if pcWild pc then trapW 0x12 pc
  else .ok (nextPc pc (l.paired (pcSlot pc)))

/-- The target of a branch-form instruction (R80): it is reckoned from the line of the instruction. -/
def tgtPc (g : Tgt) (pc : Word) : Word := (((pc >>> 6) + g.off.signExtend 64) <<< 6) ||| BitVec.ofNat 64 g.slot.val

/-- A taken transfer. -/
def State.jump (s : State) (pc : Word) : State := { s with iss := { s.iss with target := some pc } }

end Sys2Proof.Machine
end

