-- ==== Sys2Proof/Machine/Gang.lean ====
section
/-! DEFINITION. Gangs (R268, R269, R438, R439): gathering, joining, leaving, and the words on their way. -/
namespace Sys2Proof.Machine
open Sys2Proof

/-- The words a member has been sent and has not issued. -/
def State.gangHeld (s : State) (m : TKey) : Nat :=
  let size (w2 : Option IWord) : Nat := if w2.isSome then 2 else 1
  let sent := (s.pkts.filterMap fun p => match p with | .gang d _ w2 => if d = m then some (size w2) else none | _ => none).sum
  let held := match (s.thread? m).map (·.gang) with
    | some (.member _ l) => (l.map fun x => size x.2).sum
    | _ => 0
  sent + held

/-- The word of gdetach, as a leader sends it to end its gang. -/
def detachWord : IWord := ((encRaw .gdetach).map Raw.toWord).getD 0

/-- The leader in focus ends its gang: its future completes with the number gathered (R269). -/
def State.endGang (s : State) : State :=
  match s.th.gang with
  | .leader _ tag n _ => ({ s with th := { s.th with gang := .none } }).complete tag (doneWord n 0) 0
  | _ => s

/-- Acts as gdetach where the thread in focus leads a gang: its members are told, once each has room for one more word (R439). -/
def State.detach (s : State) : Except Stop State :=
  match s.th.gang with
  | .leader ms _ _ _ =>
    let isMember (t : Thread) : Bool := match t.gang with | .member _ _ => true | _ => false
    let ms := ms.filter fun m => (s.thread? m).any isMember
    if ms.any fun m => 4 ≤ s.gangHeld m then blockE
    else
      let t := s.endGang
      .ok { t with pkts := t.pkts ++ ms.map fun m => Pkt.gang m detachWord none }
  | _ => .ok s

/-- The threads that a mask of columns names in the row of the thread in focus. -/
def State.gangKeys (s : State) (mask thr : Nat) : List TKey :=
  ((List.range 16).filter fun c => mask.testBit c).map fun c => ⟨s.th.core / 16 * 16 + c, s.th.ctx, thr⟩

/-- A thread waits in gjoin and belongs to no gang. -/
def Thread.inGjoin (t : Thread) : Bool := t.wait = some (.gjoin false) && t.gang = .none

def execGang (d : FDst) (a b : SReg) (s : State) : Out1 := s.finish (do
  s.present [(true, d.spec), (false, a.spec), (false, b.spec)]
  s.noEddy 0xAC
  let s ← s.begin [] [a.spec, b.spec]
  let mask := (s.sreg a).toNat
  let inTask (c : Nat) : Bool := (s.cx.task? s.th.task).any fun t => t.holds (s.th.core / 16 * 16 + c)
  if 2 ^ 16 ≤ mask || mask.testBit (coreCol s.th.core) || (List.range 16).any (fun c => mask.testBit c && !(inTask c)) then
    trap 0x54 mask
  let led := match s.th.gang with | .leader .. => true | _ => false
  let s ← s.detach
  if !(s.poolGrant s.bd 2) then blockE
  let ms := s.gangKeys mask (s.sreg b).toNat
  if !(ms.all fun m => (s.thread? m).any Thread.inGjoin) then (if led then .ok (s.park .gang) else waitE)
  else
    let f := ({ s with th := { s.th with wait := none } }).fork d
    let t := { f.2 with th := { f.2.th with gang := .leader ms f.1 ms.length 0 } }
    .ok (ms.foldl (fun t m => t.updTh m fun x => { x with gang := .member s.th.key [] }) t))

/-- gdetach: the leader's ends the gang, and Issue forwards it; a member's own makes it leave; another thread's changes nothing. -/
def execGdetach (s : State) : Out1 := s.finish (do
  s.noEddy 0xAD
  match s.th.gang with
  | .leader .. => .ok s.endGang
  | .member _ _ => .ok { s with th := { s.th with gang := .none } }
  | .none => .ok s)

def execGjoin (s : State) : Out1 := s.finish (
  match s.th.wait with
  | some (.gjoin true) => .ok { s with th := { s.th with wait := none } }
  | some (.gjoin false) => blockE
  | _ => do
    s.noEddy 0xAE
    let s ← s.detach
    .ok (s.park (.gjoin false)))

/-- GANG_FORWARD: the k-th packet reaches its member, in the order sent. One that finds no member lapses. -/
def State.gangAt (k : Nat) (s : State) : State :=
  match s.pkts[k]? with
  | some (.gang dst w w2) =>
    let earlier := (s.pkts.take k).any fun p => match p with | .gang d _ _ => d = dst | _ => false
    if earlier then s
    else match s.thread? dst with
      | some t =>
        let s := { s with pkts := s.pkts.eraseIdx k }
        match t.gang with
        | .member l ws => s.updTh dst fun t => { t with gang := .member l (ws ++ [(w, w2)]) }
        | _ => s
      | none => if (s.bind? dst.core dst.ctx).isSome then { s with pkts := s.pkts.eraseIdx k } else s
  | _ => s

def execGangForward (k : Nat) (s : State) : Out1 := .next (s.gangAt k)

end Sys2Proof.Machine
end

