-- ==== Sys2Proof/Machine/Control.lean ====
section
/-! DEFINITION. Control instructions, 0x28 to 0x35 (R145 to R162). -/
namespace Sys2Proof.Machine
open Sys2Proof

/-- The target of a branch-form instruction, reckoned from its own line. -/
def State.tgt (s : State) (g : Tgt) : Word := tgtPc g s.th.pc

def execBr (g : Tgt) (s : State) : Out1 := s.finish (do
  s.checkTarget (s.tgt g)
  .ok (s.jump (s.tgt g)))

def execBrc (c : Cond) (t : Ty) (a b : SReg) (g : Tgt) (s : State) : Out1 := s.finish (do
  let s ← s.begin [] [a.spec, b.spec]
  let x := wrapInt t (s.int t (.reg a))
  let y := wrapInt t (s.int t (.reg b))
  if condHolds c t x y then do
    s.checkTarget (s.tgt g)
    .ok (s.jump (s.tgt g))
  else .ok s)

def execBri (a : SReg) (s : State) : Out1 := s.finish (do
  let s ← s.begin [] [a.spec]
  s.checkTarget (s.sreg a)
  .ok (s.jump (s.sreg a)))

/-! ### The window (R28, R29, R147 to R149) -/

/-- The registers w8 to w31 of a new window hold undefined values, except those that still wait for a future (R29, log 12). -/
def Thread.newFrame (t : Thread) (n : Nat) : Thread :=
  (List.range 24).foldl (fun t i =>
    let ix := stackIx t.wbase (8 + i)
    if t.w[ix].fut.isSome then t else { t with w := t.w.set ix { val := Config.freeWord (n + i) } }) t

/-- The window after a call, with the return PC in w7 (R147). -/
def State.pushFrame (ra : Word) (s : State) : State :=
  let t := { s.th with wbase := s.th.wbase + 24, wvalid := s.th.wvalid + 24 }
  { s with th := (t.newFrame s.free).setW 7 ra, free := s.free + 24 }

/-- A call to a target: the checks of R70, then the window check. The caller's w31 is a destination, so it is waited for (log 16). -/
def State.callTo (s : State) (pc : Word) : Except Stop State := do
  s.checkTarget pc
  if 200 < s.th.wvalid then trap 0x20 s.th.wvalid
  else .ok ((s.pushFrame s.following).jump pc)

/-- call. It names no register, so an eddy's is eddy-forbidden (R161) before the caller's w31 is looked at. -/
def execCall (g : Tgt) (s : State) : Out1 := s.finish (do
  s.noEddy 0x2B
  let s ← s.begin [0x1F] []
  s.callTo (s.tgt g))

def execCalli (a : SReg) (s : State) : Out1 := s.finish (do
  s.present [(false, a.spec)]
  s.noEddy 0x2C
  let s ← s.begin [0x1F] [a.spec]
  s.callTo (s.sreg a))

/-- ret (R148). -/
def execRet (s : State) : Out1 := s.finish (do
  let s ← s.beginTh 0x2E [] [0x07]
  let t := s.sreg (.w 7)
  s.checkTarget t
  if s.th.wvalid < 24 then trap 0x21 s.th.wvalid
  else .ok ({ s with th := { s.th with wbase := s.th.wbase - 24, wvalid := s.th.wvalid - 24 } }.jump t))

/-- Moves w(24 + i) to w(i) as fpass moves a future (R149). -/
def Thread.passArg (before t : Thread) (i : Fin 7) : Thread :=
  let src := before.regW ⟨24 + i.val, by omega⟩
  let t := { t with w := t.w.set (stackIx t.wbase i.val) src }
  if src.fut.isSome then { t with w := t.w.set (stackIx t.wbase (24 + i.val)) {} } else t

/-- tcall (R149). -/
def execTcall (g : Tgt) (s : State) : Out1 := s.finish (do
  s.noEddy 0x2D
  s.checkTarget (s.tgt g)
  let s := s.joinAll [0x18, 0x19, 0x1A, 0x1B, 0x1C, 0x1D, 0x1E]
  let before := s.src
  .ok ({ s with th := (List.finRange 7).foldl (fun t i => Thread.passArg before t i) s.th }.jump (s.tgt g)))

/-! ### Hardware loops (R155 to R158) -/

def State.setLoop (n : Fin 2) (cnt : W32) (b e : Word) (s : State) : State :=
  { s with th := { s.th with lc := s.th.lc.set n cnt, lbeg := s.th.lbeg.set n b, lend := s.th.lend.set n e } }

def execLoop (n : Fin 2) (a : SReg) (g : Tgt) (s : State) : Out1 := s.finish (do
  let s ← s.beginTh 0x2F [] [a.spec]
  let cnt := (s.sreg a).setWidth 32
  if cnt = 0 then do
    let f ← s.afterEnd (s.tgt g)
    .ok ((s.setLoop n cnt s.following (s.tgt g)).jump f)
  else .ok (s.setLoop n cnt s.following (s.tgt g)))

def execLbrk (n : Fin 2) (s : State) : Out1 := s.finish (do
  s.noEddy 0x30
  if s.src.lc[n] = 0 then .ok s
  else do
    let f ← s.afterEnd s.src.lend[n]
    .ok ({ s with th := { s.th with lc := s.th.lc.set n 0 } }.jump f))

/-! ### Spill and fill (R151 to R154) -/

/-- The stack index of the j-th entry counted from n below the oldest of `valid` entries. -/
def Thread.below (t : Thread) (n j : Nat) : Fin 256 :=
  (t.wbase - BitVec.ofNat 8 t.wvalid - BitVec.ofNat 8 n + BitVec.ofNat 8 j).toFin

/-- The places of k words from an address on, with the checks of an access of 8 raw bytes each. -/
def State.words (s : State) (va : Word) (wr : Bool) : Nat → Except Stop (List Spot)
  | 0 => .ok []
  | k + 1 => do
    let p ← s.spot va.toNat wr
    s.elemReady wr (.plain p 8)
    let r ← s.words (va + 8) wr k
    .ok (p :: r)

/-- Stores 8 bytes at a place. -/
def State.storeWord (s : State) (p : Spot) (v : Word) : State :=
  s.store p.win (cellsOf p.pa (leBytes v.toNat 8)) false .core none

/-- The end of a wspill: wsp and wvalid move, and the spilled positions read undefined (R152, log 12). -/
def State.spilled (n : Nat) (s : State) : State :=
  { s with
    th := (List.range n).foldl (fun t j => { t with w := t.w.set (s.th.below 0 j) { val := Config.freeWord (s.free + j) } })
      { s.th with wsp := s.th.wsp + BitVec.ofNat 64 (8 * n), wvalid := s.th.wvalid - n }
    free := s.free + n }

/-- Some store that a thread issued before the unit in progress is not performed. -/
def State.storing (s : State) (k : TKey) : Bool := s.before.any fun r => decide (r.who = .thr k) && r.isStore

/-- The n oldest entries, joined as they are observed, and their values oldest first. -/
def Thread.joinOldest (n : Nat) (t : Thread) : Thread :=
  (List.range n).foldl (fun t j =>
    let r := t.w[t.below 0 j]
    { t with tsm := t.tsm ||| r.jn, mjn := t.mjn.filter fun x => r.jn = 0 || x.1 != r.tag, w := t.w.set (t.below 0 j) { r with jn := 0 } }) t
def Thread.oldest (n : Nat) (t : Thread) : List Word := (List.range n).map fun j => t.w[t.below 0 j].val

/-- wspill: the entries are stored at issue, and wsp, wvalid and the stack change once every store is performed (R151, R153). -/
def execWspill (a : SReg) (s : State) : Out1 := s.finish (
  match s.th.wait with
  | some (.spill n) => if s.storing s.th.key then blockE else .ok (s.spilled n)
  | _ => do
    let s ← s.beginTh 0x31 [] [a.spec]
    let n := (s.sreg a).toNat
    if n = 0 || s.th.wvalid < n then trapW 0x22 (s.sreg a)
    if (List.range n).any fun j => s.th.w[s.th.below 0 j].fut.isSome then blockE
    let ps ← s.words s.th.wsp true n
    let s := { s with th := s.th.joinOldest n }
    let s := (ps.zip (s.th.oldest n)).foldl (fun s x => s.storeWord x.1 x.2) s
    let s := s.noteWrite ((ps.filter fun p => !p.win).map (·.va))
    .ok (if ps.any (!·.win) then s.park (.spill n) else s.spilled n))

def execWfill (a : SReg) (s : State) : Out1 := s.finish (do
  let s ← s.beginTh 0x32 [] [a.spec]
  let n := (s.sreg a).toNat
  if n = 0 || 224 - s.th.wvalid < n then trapW 0x22 (s.sreg a)
  else do
    let lo := s.th.wsp - BitVec.ofNat 64 (8 * n)
    let ps ← s.words lo false n
    let vs := ps.map fun p => leWord (s.readAt p 8)
    let s := ps.foldl (fun s p => s.noteRead p 8) s
    let t := (vs.zipIdx).foldl (fun t x => { t with w := t.w.set (s.th.below n x.2) { val := x.1 } }) s.th
    .ok { s with th := { t with wsp := lo, wvalid := t.wvalid + n } })

/-! ### Ending and pausing (R159, R160) -/

/-- exit: the thread's registers, ports, ring handles and held messages cease to exist with it; a leader first acts as gdetach
(R257, R439). Messages that mcommit has released are waited for until they have their cells. -/
def execExit (s : State) : Out1 := s.finish (do
  s.noEddy 0x33
  if s.th.held.any fun m => !m.held then blockE
  let s ← s.detach
  .ok { s with th := { s.th with exited := true } })

def execNop (s : State) : Out1 := s.finish (.ok s)

def execYield (s : State) : Out1 := s.finish (.ok { s with th := { s.th with declined := true } })

end Sys2Proof.Machine
end

