-- ==== Sys2Proof/Machine/Scalar.lean ====
section
/-! DEFINITION. Scalar, predicate and move instructions, 0x01 to 0x26 (R132 to R144), and the link registers as operands of mov
(R431 to R434). -/
namespace Sys2Proof.Machine
open Sys2Proof

/-- A scalar instruction: presence, waiting, then one state change (R144). -/
def State.alu (s : State) (ds ss : List (BitVec 8)) (f : State → State) : Out1 := s.finish (do
  let s ← s.begin ds ss
  pure (f s))

/-- Writes a fitted integer result and its flag (R101, R132). -/
def State.putInt (t : Ty) (d : SDst) (r : Nat × Fl) (s : State) : State := (s.put d (extend t r.1)).flag r.2

/-- The pattern of a scalar source at an integer type. -/
def State.bits (s : State) (t : Ty) (a : SSrc) : Nat := wrapInt t (s.int t a)

/-- The shift count of R136: b read at T, taken as an unsigned 64-bit value. -/
def State.count (s : State) (t : Ty) (b : SSrc) : Nat := (BitVec.ofInt 64 (s.int t b)).toNat

def execAdd (t : Ty) (sat : Bool) (d : SDst) (a b : SSrc) (s : State) : Out1 :=
  s.alu [d.spec] [a.spec, b.spec] fun s => s.putInt t d (fitInt t sat (s.int t a + s.int t b))

def execSub (t : Ty) (sat : Bool) (d : SDst) (a b : SSrc) (s : State) : Out1 :=
  s.alu [d.spec] [a.spec, b.spec] fun s => s.putInt t d (fitInt t sat (s.int t a - s.int t b))

def execMul (t : Ty) (sat : Bool) (d : SDst) (a b : SSrc) (s : State) : Out1 :=
  s.alu [d.spec] [a.spec, b.spec] fun s => s.putInt t d (fitInt t sat (s.int t a * s.int t b))

/-- The upper half of the product (R134). -/
def execMulh (t : Ty) (d : SDst) (a b : SSrc) (s : State) : Out1 :=
  s.alu [d.spec] [a.spec, b.spec] fun s => s.putInt t d (fitInt t false (s.int t a * s.int t b / 2 ^ t.width))

def execMadd (t : Ty) (sat : Bool) (d : SDst) (a b c : SSrc) (s : State) : Out1 :=
  s.alu [d.spec] [a.spec, b.spec, c.spec] fun s => s.putInt t d (fitInt t sat (s.int t a * s.int t b + s.int t c))

/-- The quotient, truncated toward zero, with the corner cases of R135. -/
def divInt (t : Ty) (sat : Bool) (a b : Int) : Nat × Fl :=
  if b = 0 then (2 ^ t.width - 1, Fl.dz) else fitInt t sat (a.tdiv b)

/-- The remainder of R135. -/
def remInt (t : Ty) (a b : Int) : Nat × Fl :=
  if b = 0 then (wrapInt t a, Fl.dz) else fitInt t false (a.tmod b)

def execDiv (t : Ty) (sat : Bool) (d : SDst) (a b : SSrc) (s : State) : Out1 :=
  s.alu [d.spec] [a.spec, b.spec] fun s => (s.putInt t d (divInt t sat (s.int t a) (s.int t b))).hold 18

def execRem (t : Ty) (d : SDst) (a b : SSrc) (s : State) : Out1 :=
  s.alu [d.spec] [a.spec, b.spec] fun s => (s.putInt t d (remInt t (s.int t a) (s.int t b))).hold 18

def execAbs (t : Ty) (sat : Bool) (d : SDst) (a : SSrc) (s : State) : Out1 :=
  s.alu [d.spec] [a.spec] fun s => s.putInt t d (fitInt t sat (s.int t a).natAbs)

def execMin (t : Ty) (d : SDst) (a b : SSrc) (s : State) : Out1 :=
  s.alu [d.spec] [a.spec, b.spec] fun s => s.putInt t d (fitInt t false (min (s.int t a) (s.int t b)))

def execMax (t : Ty) (d : SDst) (a b : SSrc) (s : State) : Out1 :=
  s.alu [d.spec] [a.spec, b.spec] fun s => s.putInt t d (fitInt t false (max (s.int t a) (s.int t b)))

def execAnd (t : Ty) (d : SDst) (a b : SSrc) (s : State) : Out1 :=
  s.alu [d.spec] [a.spec, b.spec] fun s => s.putInt t d (s.bits t a &&& s.bits t b, 0)

def execOr (t : Ty) (d : SDst) (a b : SSrc) (s : State) : Out1 :=
  s.alu [d.spec] [a.spec, b.spec] fun s => s.putInt t d (s.bits t a ||| s.bits t b, 0)

def execXor (t : Ty) (d : SDst) (a b : SSrc) (s : State) : Out1 :=
  s.alu [d.spec] [a.spec, b.spec] fun s => s.putInt t d (s.bits t a ^^^ s.bits t b, 0)

/-- a and not b. -/
def execAndn (t : Ty) (d : SDst) (a b : SSrc) (s : State) : Out1 :=
  s.alu [d.spec] [a.spec, b.spec] fun s => s.putInt t d (s.bits t a ^^^ (s.bits t a &&& s.bits t b), 0)

/-- a × 2ⁿ fitted; from the width on, nothing of a is left but its sign (R136). -/
def shlInt (t : Ty) (sat : Bool) (a : Int) (n : Nat) : Nat × Fl :=
  if n < t.width then fitInt t sat (a * 2 ^ n) else fitInt t sat (a * 2 ^ t.width)

def shrInt (t : Ty) (p n : Nat) : Nat := if n < t.width then p / 2 ^ n else 0

def sarInt (t : Ty) (p n : Nat) : Nat :=
  let k := min n t.width
  let neg := decide (2 ^ (t.width - 1) ≤ p)
  if neg then 2 ^ t.width - 1 - (2 ^ t.width - 1 - p) / 2 ^ k else p / 2 ^ k

def rotInt (t : Ty) (p n : Nat) : Nat :=
  let k := n % t.width
  (p * 2 ^ k) % 2 ^ t.width + p / 2 ^ (t.width - k)

def execShl (t : Ty) (sat : Bool) (d : SDst) (a b : SSrc) (s : State) : Out1 :=
  s.alu [d.spec] [a.spec, b.spec] fun s => s.putInt t d (shlInt t sat (s.int t a) (s.count t b))

def execShr (t : Ty) (d : SDst) (a b : SSrc) (s : State) : Out1 :=
  s.alu [d.spec] [a.spec, b.spec] fun s => s.putInt t d (shrInt t (s.bits t a) (s.count t b), 0)

def execSar (t : Ty) (d : SDst) (a b : SSrc) (s : State) : Out1 :=
  s.alu [d.spec] [a.spec, b.spec] fun s => s.putInt t d (sarInt t (s.bits t a) (s.count t b), 0)

def execRot (t : Ty) (d : SDst) (a b : SSrc) (s : State) : Out1 :=
  s.alu [d.spec] [a.spec, b.spec] fun s => s.putInt t d (rotInt t (s.bits t a) (s.count t b), 0)

/-- The bits of a pattern, from bit 0 up. -/
def bitList (w p : Nat) : List Bool := (List.range w).map fun j => p.testBit j

def ofBits (l : List Bool) : Nat := l.foldr (fun b n => b.toNat + 2 * n) 0

def ctzBits : List Bool → Nat
  | [] => 0
  | b :: r => if b then 0 else ctzBits r + 1

def execClz (t : Ty) (d : SDst) (a : SSrc) (s : State) : Out1 :=
  s.alu [d.spec] [a.spec] fun s => s.putInt t d (ctzBits (bitList t.width (s.bits t a)).reverse, 0)

def execCtz (t : Ty) (d : SDst) (a : SSrc) (s : State) : Out1 :=
  s.alu [d.spec] [a.spec] fun s => s.putInt t d (ctzBits (bitList t.width (s.bits t a)), 0)

def execPopc (t : Ty) (d : SDst) (a : SSrc) (s : State) : Out1 :=
  s.alu [d.spec] [a.spec] fun s => s.putInt t d ((bitList t.width (s.bits t a)).count true, 0)

def execBrev (t : Ty) (d : SDst) (a : SSrc) (s : State) : Out1 :=
  s.alu [d.spec] [a.spec] fun s => s.putInt t d (ofBits (bitList t.width (s.bits t a)).reverse, 0)

def execBswap (t : Ty) (d : SDst) (a : SSrc) (s : State) : Out1 :=
  s.alu [d.spec] [a.spec] fun s => s.putInt t d (leNat (leBytes (s.bits t a) (t.width / 8)).reverse, 0)

/-- The field descriptor of R137: position and clipped length. -/
def fieldDesc (v : Word) : Nat × Nat :=
  let pos := (v.extractLsb' 0 6).toNat
  (pos, min (v.extractLsb' 8 7).toNat (64 - pos))

def bextVal (t : Ty) (a desc : Word) : Word :=
  let f := fieldDesc desc
  let v := a.toNat / 2 ^ f.1 % 2 ^ f.2
  if t = .i64 && f.2 != 0 && v.testBit (f.2 - 1) then BitVec.ofInt 64 ((v : Int) - 2 ^ f.2) else BitVec.ofNat 64 v

def binsVal (a b desc : Word) : Word :=
  let f := fieldDesc desc
  let m : Word := BitVec.ofNat 64 ((2 ^ f.2 - 1) * 2 ^ f.1)
  (a &&& ~~~m) ||| ((b <<< f.1) &&& m)

def execBext (t : Ty) (d : SDst) (a b : SSrc) (s : State) : Out1 :=
  s.alu [d.spec] [a.spec, b.spec] fun s => s.put d (bextVal t (extend t (s.bits t a)) (extend t (s.bits t b)))

/-- bins takes no type: its imm32 is read at the default type .i64 (R132). -/
def execBins (d : SDst) (a b c : SSrc) (s : State) : Out1 :=
  s.alu [d.spec] [a.spec, b.spec, c.spec] fun s => s.put d (binsVal (s.i64 a) (s.i64 b) (s.i64 c))

def execSext (t : Ty) (d : SDst) (a : SSrc) (s : State) : Out1 :=
  s.alu [d.spec] [a.spec] fun s => s.put d (extend t (s.bits t a))

def execZext (t : Ty) (d : SDst) (a : SSrc) (s : State) : Out1 :=
  s.alu [d.spec] [a.spec] fun s => s.put d (extend t (s.bits t a))

/-! ### mov and the link registers -/

/-- The link chain of the thread's row: the cores of the rectangle's row on which its context holds the engines, west to east
(R431). -/
def State.chain (s : State) : List Nat :=
  match s.cx.task? s.th.task with
  | none => [s.core.id]
  | some k => ((List.range k.cols).map fun c => coreId k.die (coreRow s.core.id) (k.lcol + c)).filter fun c =>
      (s.core? c).holder = some s.th.ctx

/-- The chain member east or west of this core; the chain closes into a ring (R431). -/
def State.linkPeer (s : State) (east : Bool) : Nat :=
  let l := if east then s.chain else s.chain.reverse
  ((l.dropWhile (· != s.core.id)).drop 1).headD (l.headD s.core.id)

/-- The receiver of a word has room: its register is empty and no word is on its way to it (R433). -/
def State.linkRoom (s : State) (dst : Nat) (east : Bool) : Bool :=
  (if east then (s.core? dst).lnkw else (s.core? dst).lnke).isNone &&
  !(s.pkts.any fun p => match p with | .link d c e _ _ => d == dst && c == s.th.ctx && e == east | _ => false)

/-- The pass-through cores between two members (R433). -/
def linkHops (a b : Nat) : Nat := (if a ≤ b then b - a else a - b) - 1

def State.movRead (s : State) (t : Ty) : MovSrc → Except Stop (State × Word)
  | .s a => .ok (s, extend t (s.bits t a))
  | .lnkw => match s.core.lnkw with
    | none => blockE
    | some v => .ok ({ s with core := { s.core with lnkw := none } }, extend t v.toNat)
  | .lnke => match s.core.lnke with
    | none => blockE
    | some v => .ok ({ s with core := { s.core with lnke := none } }, extend t v.toNat)

def State.linkSend (s : State) (east : Bool) (v : Word) : Except Stop State :=
  let d := s.linkPeer east
  if s.linkRoom d east then .ok { s with pkts := s.pkts ++ [.link d s.th.ctx east v (linkHops s.core.id d)] } else blockE

def State.movWrite (s : State) (v : Word) : MovDst → Except Stop State
  | .s d => .ok (s.put d v)
  | .lnke => s.linkSend true v
  | .lnkw => s.linkSend false v

/-- mov (R138, R432): a link source waits for its word, a link destination for room; both happen together. -/
def execMov (t : Ty) (d : MovDst) (a : MovSrc) (s : State) : Out1 := s.finish (do
  let s ← s.begin [d.spec] [a.spec]
  let r ← s.movRead t a
  r.1.movWrite r.2 d)

def execMovi (d : SDst) (imm : Word) (s : State) : Out1 := s.alu [d.spec] [] fun s => s.put d imm

/-- The effective address of R79. -/
def State.ea (s : State) (m : MAddr) : Word := s.sreg m.base + m.disp.signExtend 64

/-- The index operand, read as .i64, or 0 (R165). -/
def State.index (s : State) : Option SReg → Int
  | some r => (s.sreg r).toInt
  | none => 0

def idxOps (i : Option SReg) : List (BitVec 8) := match i with | some r => [r.spec] | none => []

/-- lea (R138): the index is read at T, scaled by T's bytes. -/
def leaAddr (s : State) (t : Ty) (m : MAddr) (idx : Option SReg) : Word :=
  s.ea m + BitVec.ofInt 64 ((match idx with | some r => s.int t (.reg r) | none => 0) * (t.width / 8 : Nat))

def execLea (t : Ty) (d : SDst) (m : MAddr) (idx : Option SReg) (s : State) : Out1 := s.finish (do
  let s ← s.begin [d.spec] ([m.base.spec] ++ idxOps idx)
  let a := leaAddr s t m idx
  if a.toNat < 2 ^ 56 then .ok (s.put d a) else trapW 2 a)

/-! ### Conditions and conversion -/

def boolWord (b : Bool) : Word := if b then 1 else 0

def execSetc (c : Cond) (t : Ty) (d : SDst) (a b : SSrc) (s : State) : Out1 :=
  s.alu [d.spec] [a.spec, b.spec] fun s => s.put d (boolWord (condHolds c t (s.bits t a) (s.bits t b)))

/-- The source code of cvt (R139). -/
def State.cvtCode (s : State) (u : Ty) : SSrc → Nat
  | .reg r => (s.sreg r).toNat % 2 ^ u.width
  | .imm v => if u.isInt then (immAt u v).toNat % 2 ^ u.width else v.toNat

/-- A converted code as a scalar destination receives it (R139). -/
def codeWord (t : Ty) (c : Nat) : Word := if t.isInt then extend t c else BitVec.ofNat 64 c

def execCvt (t u : Ty) (rnd : Rnd) (sat : Bool) (d : SDst) (a : SSrc) (s : State) : Out1 :=
  s.alu [d.spec] [a.spec] fun s =>
    let r := convCode t rnd sat u (s.cvtCode u a)
    (s.put d (codeWord t r.1)).flag r.2

def execCmp (c : Cond) (t : Ty) (d : Fin 8) (a b : SSrc) (s : State) : Out1 :=
  s.alu [specOf 0xB8 d] [a.spec, b.spec] fun s =>
    let x := s.pat t .rne false a
    let y := s.pat t .rne false b
    (s.setP d (condHolds c t x.1 y.1)).flag (x.2 ||| y.2 ||| (if t.isInt then 0 else condFl t x.1 y.1))

/-- The predicate operations of R142. -/
def State.predOp (s : State) (op : Bool → Bool → Bool) (na nb nr : Bool) (d a b : Fin 8) : Out1 :=
  s.alu [specOf 0xB8 d] [specOf 0xB8 a, specOf 0xB8 b] fun s => s.setP d (xor (op (xor (s.pred a) na) (xor (s.pred b) nb)) nr)

def execPand (na nb nr : Bool) (d a b : Fin 8) (s : State) : Out1 := s.predOp and na nb nr d a b
def execPor (na nb nr : Bool) (d a b : Fin 8) (s : State) : Out1 := s.predOp or na nb nr d a b
def execPxor (na nb nr : Bool) (d a b : Fin 8) (s : State) : Out1 := s.predOp xor na nb nr d a b

def execPmov (neg : Bool) (o : PmovOp) (s : State) : Out1 :=
  match o with
  | .pp d a => s.alu [specOf 0xB8 d] [specOf 0xB8 a] fun s => s.setP d (xor (s.pred a) neg)
  | .ps d a => s.alu [specOf 0xB8 d] [a.spec] fun s => s.setP d (xor (s.n64 a != 0) neg)
  | .sp d a => s.alu [d.spec] [specOf 0xB8 a] fun s => s.put d (boolWord (xor (s.pred a) neg))

/-- sel (R143): it reads both sources; imm32 at the default type .i64. -/
def execSel (neg : Bool) (d : SDst) (a b : SSrc) (p : Fin 8) (s : State) : Out1 :=
  s.alu [d.spec] [a.spec, b.spec, specOf 0xB8 p] fun s => s.put d (if xor (s.pred p) neg then s.i64 a else s.i64 b)

end Sys2Proof.Machine
end

