-- ==== Sys2Proof/Machine/Vector.lean ====
section
/-! DEFINITION. Vector instructions, 0x40 to 0x62 (R168 to R179). -/
namespace Sys2Proof.Machine
open Sys2Proof

/-- A vector instruction: presence, waiting, its effect, and its interval out of issue (R196). -/
def State.vec (s : State) (n : Nat) (ds ss : List (BitVec 8)) (f : State → Except Stop State) : Out1 := s.finish (do
  let s ← s.begin ds ss
  let s ← f s
  .ok (s.hold n))

/-- The prior lanes of a destination. -/
def State.prior (s : State) (w n : Nat) : VDst → List Nat
  | .v k => lanesOf w s.src.v[k]
  | _ => List.replicate n 0

/-- Results at the active lanes, the prior value elsewhere (R169), with the flags of the active ones. -/
def mergeLanes (act : Nat → Bool) (old : List Nat) (r : List (Nat × Fl)) : List Nat × Fl :=
  let x := (old.zip r).zipIdx.map fun y => if act y.2 then y.1.2 else (y.1.1, 0)
  (x.map (·.1), orFl x)

/-! ### Lane-wise arithmetic (R172, R173) -/

/-- A lane operation on two sources; f takes a lane of each and the prior lane. -/
def State.lane2 (s : State) (busy : Nat) (t : Ty) (rnd : Rnd) (sat : Bool) (d : VDst) (a : VSrc) (b : BSrc) (m : Mask)
    (f : Nat → Nat → Nat → Nat × Fl) : Out1 :=
  s.vec busy [d.spec] (a.spec :: b.spec :: maskOps m) fun s => do
    let act := active s.src m t.width
    let x ← s.vsrc [] t t.lanes act a
    let y ← State.bsrc x.1 x.2.1 t rnd sat t.lanes act b
    let old := s.prior t.width t.lanes d
    let r := mergeLanes act old (((x.2.2.zip y.2.2).zip old).map fun z => f z.1.1 z.1.2 z.2)
    (y.1.flag r.2).vdst t r.1 d

/-- A lane operation on one source. -/
def State.lane1 (s : State) (busy : Nat) (t : Ty) (d : VDst) (a : VSrc) (m : Mask) (f : Nat → Nat × Fl) : Out1 :=
  s.vec busy [d.spec] (a.spec :: maskOps m) fun s => do
    let act := active s.src m t.width
    let x ← s.vsrc [] t t.lanes act a
    let r := mergeLanes act (s.prior t.width t.lanes d) (x.2.2.map f)
    (x.1.flag r.2).vdst t r.1 d

/-- An operation that is exact on integers and rounded once on floating lanes (R171). -/
def laneOp (t : Ty) (rnd : Rnd) (sat : Bool) (fi : Int → Int → Int) (ff : Val → Val → Val × Fl) (a b : Nat) : Nat × Fl :=
  if t.isInt then fitInt t sat (fi (intOf t a) (intOf t b)) else fBin t rnd sat ff a b

def laneFma (t : Ty) (rnd : Rnd) (sat neg : Bool) (a b c : Nat) : Nat × Fl :=
  if t.isInt then
    let p := intOf t a * intOf t b
    fitInt t sat (if neg then p - intOf t c else p + intOf t c)
  else fFma t rnd sat neg a b c

def laneMinMax (t : Ty) (isMax : Bool) (a b : Nat) : Nat × Fl :=
  if t.isInt then
    let x := intOf t a
    let y := intOf t b
    fitInt t false (if isMax then max x y else min x y)
  else fMinMax t isMax a b

def laneSign (t : Ty) (sat flip : Bool) (a : Nat) : Nat × Fl :=
  if t.isInt then fitInt t sat (if flip then -(intOf t a) else (intOf t a).natAbs) else fSign t flip a

/-- The shift count of a lane (R136). -/
def laneCount (t : Ty) (b : Nat) : Nat := (BitVec.ofInt 64 (intOf t b)).toNat

def execVadd (t : Ty) (rnd : Rnd) (sat : Bool) (d : VDst) (a : VSrc) (b : BSrc) (m : Mask) (s : State) : Out1 :=
  s.lane2 0 t rnd sat d a b m fun x y _ => laneOp t rnd sat (· + ·) (Val.add rnd) x y
def execVsub (t : Ty) (rnd : Rnd) (sat : Bool) (d : VDst) (a : VSrc) (b : BSrc) (m : Mask) (s : State) : Out1 :=
  s.lane2 0 t rnd sat d a b m fun x y _ => laneOp t rnd sat (· - ·) (fun u v => Val.add rnd u v.neg) x y
def execVmul (t : Ty) (rnd : Rnd) (sat : Bool) (d : VDst) (a : VSrc) (b : BSrc) (m : Mask) (s : State) : Out1 :=
  s.lane2 0 t rnd sat d a b m fun x y _ => laneOp t rnd sat (· * ·) Val.mul x y
def execVfma (t : Ty) (rnd : Rnd) (sat : Bool) (d : Fin 64) (a : VSrc) (b : BSrc) (m : Mask) (s : State) : Out1 :=
  s.lane2 0 t rnd sat (.v d) a b m fun x y z => laneFma t rnd sat false x y z
def execVfms (t : Ty) (rnd : Rnd) (sat : Bool) (d : Fin 64) (a : VSrc) (b : BSrc) (m : Mask) (s : State) : Out1 :=
  s.lane2 0 t rnd sat (.v d) a b m fun x y z => laneFma t rnd sat true x y z
def execVdiv (t : Ty) (rnd : Rnd) (sat : Bool) (d : VDst) (a : VSrc) (b : BSrc) (m : Mask) (s : State) : Out1 :=
  s.lane2 14 t rnd sat d a b m fun x y _ => fBin t rnd sat Val.div x y
def execVsqrt (t : Ty) (rnd : Rnd) (sat : Bool) (d : VDst) (a : VSrc) (m : Mask) (s : State) : Out1 :=
  s.lane1 14 t d a m (fUn t rnd sat Val.sqrt)
def execVmin (t : Ty) (d : VDst) (a : VSrc) (b : BSrc) (m : Mask) (s : State) : Out1 :=
  s.lane2 0 t .rne false d a b m fun x y _ => laneMinMax t false x y
def execVmax (t : Ty) (d : VDst) (a : VSrc) (b : BSrc) (m : Mask) (s : State) : Out1 :=
  s.lane2 0 t .rne false d a b m fun x y _ => laneMinMax t true x y
def execVabs (t : Ty) (sat : Bool) (d : VDst) (a : VSrc) (m : Mask) (s : State) : Out1 := s.lane1 0 t d a m (laneSign t sat false)
def execVneg (t : Ty) (sat : Bool) (d : VDst) (a : VSrc) (m : Mask) (s : State) : Out1 := s.lane1 0 t d a m (laneSign t sat true)
def execVand (t : Ty) (d : VDst) (a : VSrc) (b : BSrc) (m : Mask) (s : State) : Out1 :=
  s.lane2 0 t .rne false d a b m fun x y _ => (x &&& y, 0)
def execVor (t : Ty) (d : VDst) (a : VSrc) (b : BSrc) (m : Mask) (s : State) : Out1 :=
  s.lane2 0 t .rne false d a b m fun x y _ => (x ||| y, 0)
def execVxor (t : Ty) (d : VDst) (a : VSrc) (b : BSrc) (m : Mask) (s : State) : Out1 :=
  s.lane2 0 t .rne false d a b m fun x y _ => (x ^^^ y, 0)
def execVshl (t : Ty) (sat : Bool) (d : VDst) (a : VSrc) (b : BSrc) (m : Mask) (s : State) : Out1 :=
  s.lane2 0 t .rne false d a b m fun x y _ => shlInt t sat (intOf t x) (laneCount t y)
def execVshr (t : Ty) (d : VDst) (a : VSrc) (b : BSrc) (m : Mask) (s : State) : Out1 :=
  s.lane2 0 t .rne false d a b m fun x y _ => (shrInt t x (laneCount t y), 0)
def execVsar (t : Ty) (d : VDst) (a : VSrc) (b : BSrc) (m : Mask) (s : State) : Out1 :=
  s.lane2 0 t .rne false d a b m fun x y _ => (sarInt t x (laneCount t y), 0)
def execVrcp (t : Ty) (rnd : Rnd) (sat : Bool) (d : VDst) (a : VSrc) (m : Mask) (s : State) : Out1 :=
  s.lane1 9 t d a m (fUn t rnd sat Val.rcp)
def execVrsq (t : Ty) (rnd : Rnd) (sat : Bool) (d : VDst) (a : VSrc) (m : Mask) (s : State) : Out1 :=
  s.lane1 9 t d a m (fUn t rnd sat Val.rsq)
def execVexp2 (t : Ty) (rnd : Rnd) (sat : Bool) (d : VDst) (a : VSrc) (m : Mask) (s : State) : Out1 :=
  s.lane1 9 t d a m (fUn t rnd sat Val.exp2)
def execVlog2 (t : Ty) (rnd : Rnd) (sat : Bool) (d : VDst) (a : VSrc) (m : Mask) (s : State) : Out1 :=
  s.lane1 9 t d a m (fUn t rnd sat Val.log2)

/-! ### Compares, selects and moves (R174, R175) -/

/-- The mask register whose element j, of w bits, is l's j-th: all bytes of an element alike (R31). -/
def maskOf' (w : Nat) (l : List Bool) : MWord :=
  BitVec.ofNat 96 (l.foldr (fun b acc => (if b then 2 ^ (w / 8) - 1 else 0) + 2 ^ (w / 8) * acc) 0)

def State.setM (s : State) (n : Fin 8) (v : MWord) : State := { s with th := { s.th with m := s.th.m.set n v } }

def execVcmp (c : Cond) (t : Ty) (d : Fin 8) (a : VSrc) (b : BSrc) (m : Mask) (s : State) : Out1 :=
  s.vec 0 [specOf 0xB0 d] (a.spec :: b.spec :: maskOps m) fun s => do
    let act := active s.src m t.width
    let x ← s.vsrc [] t t.lanes act a
    let y ← State.bsrc x.1 x.2.1 t .rne false t.lanes act b
    let r := (x.2.2.zip y.2.2).zipIdx.map fun z =>
      if act z.2 then (condHolds c t z.1.1 z.1.2, if t.isInt then 0 else condFl t z.1.1 z.1.2) else (false, 0)
    .ok ((y.1.flag (r.foldl (fun f z => f ||| z.2) 0)).setM d (maskOf' t.width (r.map (·.1))))

/-- A broadcast source of a movement instruction other than vbcast: a converted imm32 sets no flag (R175). -/
def State.bsrcQuiet (s : State) (seen : List (Fin 8 × List Nat)) (t : Ty) (n : Nat) (act : Nat → Bool) :
    BSrc → Except Stop (State × List (Fin 8 × List Nat) × List Nat)
  | .s a => .ok (s, seen, List.replicate n (s.pat t .rne false a).1)
  | b => s.bsrc seen t .rne false n act b

/-- vsel. DESIGN CHOICE (log 47): both sources are read in every lane, whatever the mask bit, so every element popped is decoded. -/
def execVsel (t : Ty) (d : VDst) (a : VSrc) (b : BSrc) (m : Fin 8) (s : State) : Out1 :=
  s.vec 0 [d.spec] [a.spec, b.spec, specOf 0xB0 m] fun s => do
    let x ← s.vsrc [] t t.lanes (fun _ => true) a
    let y ← State.bsrcQuiet x.1 x.2.1 t t.lanes (fun _ => true) b
    let r := (x.2.2.zip y.2.2).zipIdx.map fun z => if active s.src (some m) t.width z.2 then z.1.1 else z.1.2
    y.1.vdst t r d

def execVshuf (t : Ty) (d : VDst) (a b : VSrc) (m : Mask) (s : State) : Out1 :=
  s.vec 0 [d.spec] (a.spec :: b.spec :: maskOps m) fun s => do
    let act := active s.src m t.width
    let x ← s.vsrc [] t t.lanes act a
    let y ← State.vsrc x.1 x.2.1 t t.lanes act b
    let r := mergeLanes act (s.prior t.width t.lanes d) (y.2.2.map fun i => (x.2.2.getD (i % t.lanes) 0, 0))
    y.1.vdst t r.1 d

def execVbcast (t : Ty) (d : VDst) (a : BSrc) (m : Mask) (s : State) : Out1 :=
  s.vec 0 [d.spec] (a.spec :: maskOps m) fun s => do
    let act := active s.src m t.width
    let x ← s.bsrc [] t .rne false t.lanes act a
    let r := mergeLanes act (s.prior t.width t.lanes d) (x.2.2.map fun v => (v, 0))
    x.1.vdst t r.1 d

def execVlaneGet (t : Ty) (d : SDst) (a : VSrc) (b : SSrc) (s : State) : Out1 :=
  s.vec 0 [d.spec] [a.spec, b.spec] fun s => do
    let x ← s.vsrc [] t t.lanes (fun _ => true) a
    .ok (x.1.put d (codeWord t (x.2.2.getD ((s.n64 b).toNat % t.lanes) 0)))

/-- vlane.put; a port takes zeros beside the lane (DEDUCED, log 28), and the imm32 of a movement instruction sets no flag (R175). -/
def execVlanePut (t : Ty) (d : VDst) (a b : SSrc) (s : State) : Out1 :=
  s.vec 0 [d.spec] [a.spec, b.spec] fun s =>
    s.vdst t ((s.prior t.width t.lanes d).set ((s.n64 b).toNat % t.lanes) (s.pat t .rne false a).1) d

def execVmov (t : Ty) (d : VDst) (a : VSrc) (m : Mask) (s : State) : Out1 := s.lane1 0 t d a m fun x => (x, 0)

/-! ### Reductions (R127, R128, R176) -/

/-- Writes a reduction's result. -/
def State.rdst (s : State) (t : Ty) (c : Nat) : RDst → Except Stop State
  | .s d => .ok (s.put d (codeWord t c))
  | .q k => s.append k t [c]

/-- The prior value of a destination, read at T. -/
def State.priorCode (s : State) (t : Ty) : RDst → Nat
  | .s (.w n) => (s.src.regW n).val.toNat % 2 ^ t.width
  | .s (.g n) => s.src.g[n].val.toNat % 2 ^ t.width
  | _ => 0

/-- Reduce of R127 with the addend combined last. -/
def reduceAll {α : Type} (op : α → α → α) (z : α) (l : List α) (addend : Option α) : α :=
  let r := treeReduce op z 8 l
  match addend with | some a => op a r | none => r

/-- A reduction over codes. -/
def State.reduce (s : State) (acc : Bool) (t : Ty) (d : RDst) (a : VSrc) (m : Mask) (ident : Nat) (op : Nat → Nat → Nat × Fl) : Out1 :=
  s.vec 3 [d.spec] (a.spec :: maskOps m) fun s => do
    let act := active s.src m t.width
    let x ← s.vsrc [] t t.lanes act a
    let node (p q : Nat × Fl) : Nat × Fl := let r := op p.1 q.1; (r.1, r.2 ||| p.2 ||| q.2)
    let leaves := x.2.2.zipIdx.map fun y => (if act y.2 then y.1 else ident, (0 : Fl))
    let r := reduceAll node (ident, 0) leaves (if acc then some (s.priorCode t d, 0) else none)
    (x.1.flag r.2).rdst t r.1 d

/-- The identity of a sum. -/
def sumIdent (t : Ty) : Nat := if t.isInt then 0 else signBit t true

/-- The identity of a maximum or a minimum. -/
def extremeIdent (t : Ty) (isMax : Bool) (rnd : Rnd) : Nat :=
  if t.isInt then wrapInt t (if isMax then intMin t else intMax t) else (roundF t rnd false (.inf isMax)).1

def execVsum (acc : Bool) (t : Ty) (rnd : Rnd) (sat : Bool) (d : RDst) (a : VSrc) (m : Mask) (s : State) : Out1 :=
  s.reduce acc t d a m (sumIdent t) fun x y => laneOp t rnd sat (· + ·) (Val.add rnd) x y
def execVrmax (acc : Bool) (t : Ty) (rnd : Rnd) (_sat : Bool) (d : RDst) (a : VSrc) (m : Mask) (s : State) : Out1 :=
  s.reduce acc t d a m (extremeIdent t true rnd) (laneMinMax t true)
def execVrmin (acc : Bool) (t : Ty) (rnd : Rnd) (_sat : Bool) (d : RDst) (a : VSrc) (m : Mask) (s : State) : Out1 :=
  s.reduce acc t d a m (extremeIdent t false rnd) (laneMinMax t false)

/-- One node of an integer dot product, and of a floating one: exact operands, rounded once. -/
def dotInt (t : Ty) (sat : Bool) (p q : Int × Fl) : Int × Fl :=
  let r := fitInt t sat (p.1 + q.1)
  (intOf t r.1, r.2 ||| p.2 ||| q.2)
def dotFlt (t : Ty) (rnd : Rnd) (sat : Bool) (p q : Val × Fl) : Val × Fl :=
  let x := p.1.add rnd q.1
  let r := roundF t rnd sat x.1
  (valueOf t r.1, r.2 ||| x.2 ||| p.2 ||| q.2)

/-- The product of two lanes, exact, with the flags of its operands. -/
def dotLeaf (t : Ty) (a b : Nat) : Val × Fl :=
  let p := (valueOf t a).mul (valueOf t b)
  (p.1, p.2 ||| snanFl t a ||| snanFl t b)

def execVdot (acc : Bool) (t : Ty) (rnd : Rnd) (sat : Bool) (d : RDst) (a b : VSrc) (m : Mask) (s : State) : Out1 :=
  s.vec 3 [d.spec] (a.spec :: b.spec :: maskOps m) fun s => do
    let act := active s.src m t.width
    let x ← s.vsrc [] t t.lanes act a
    let y ← State.vsrc x.1 x.2.1 t t.lanes act b
    let ls := (x.2.2.zip y.2.2).zipIdx
    let r := if t.isInt then
        let r := reduceAll (dotInt t sat) (0, 0)
          (ls.map fun z => (if act z.2 then intOf t z.1.1 * intOf t z.1.2 else 0, (0 : Fl)))
          (if acc then some (intOf t (s.priorCode t d), 0) else none)
        let c := fitInt t sat r.1
        (c.1, c.2 ||| r.2)
      else
        let r := reduceAll (dotFlt t rnd sat) (.zero true, 0)
          (ls.map fun z => if act z.2 then dotLeaf t z.1.1 z.1.2 else (.zero true, 0))
          (if acc then some (valueOf t (s.priorCode t d), snanFl t (s.priorCode t d)) else none)
        let c := roundF t rnd sat r.1
        (c.1, c.2 ||| r.2)
    (y.1.flag r.2).rdst t r.1 d

/-! ### Six-bit planes, conversions and the quantiser (R177 to R179) -/

/-- Byte i of a vpack result: two bits from the high plane above four from the low plane. -/
def packByte (lo hi : List Nat) (l h i : Nat) : Nat := hi.getD (96 * h + i) 0 * 16 + lo.getD (96 * l + i) 0

/-- The bits of 96 byte lanes as one register. -/
def bytesV (l : List Nat) : VWord := ofLanes 8 l

def execVpack (lo : Fin 2) (hi : Fin 4) (d : VDst) (a b : VSrc) (s : State) : Out1 :=
  s.vec 0 [d.spec] [a.spec, b.spec] fun s => do
    let x ← s.vsrc [] .n8 96 (fun _ => true) a
    let y ← State.vsrc x.1 x.2.1 .n8 96 (fun _ => true) b
    let lp := lanesOf 4 (bytesV x.2.2)
    let hp := lanesOf 2 (bytesV y.2.2)
    y.1.vdst .n8 ((List.range 96).map (packByte lp hp lo.val hi.val)) d

/-- Replaces n lanes from the k-th on. -/
def setLanes (old : List Nat) (k : Nat) (new : List Nat) : List Nat := old.take k ++ new ++ old.drop (k + new.length)

def execVunpk (part : Fin 6) (d : Fin 64) (a : VSrc) (s : State) : Out1 :=
  s.vec 0 [specOf 0x40 d] [a.spec] fun s => do
    let x ← s.vsrc [] .n8 96 (fun _ => true) a
    let v := if part.val < 2 then ofLanes 4 (setLanes (lanesOf 4 s.src.v[d]) (96 * part.val) (x.2.2.map (· % 16)))
      else ofLanes 2 (setLanes (lanesOf 2 s.src.v[d]) (96 * (part.val - 2)) (x.2.2.map (· / 16 % 4)))
    .ok (x.1.setV d v)

/-- The lanes of a type in vcvt: 192 nibbles, 96 bytes for six-bit codes, else 768 / width (R178). -/
def cvtLanes (t : Ty) : Nat := 768 / laneBits t

def execVcvt (part : Fin 16) (t u : Ty) (rnd : Rnd) (sat : Bool) (d : VDst) (a : VSrc) (s : State) : Out1 :=
  s.vec 0 [d.spec] [a.spec] fun s => do
    let k := min (cvtLanes t) (cvtLanes u)
    let x ← s.vsrc [] u (cvtLanes u) (fun _ => true) a
    let take := if cvtLanes t < cvtLanes u then (x.2.2.drop (part.val * k)).take k else x.2.2.take k
    let r := take.map fun c => convCode t rnd sat u (c % 2 ^ u.width)
    let s1 := x.1.flag (orFl r)
    let new := r.map (·.1)
    match d with
    | .q q => s1.append q t new
    | .zero => .ok s1
    | .v n => .ok (s1.setV n (ofLanes (laneBits t)
        (setLanes (lanesOf (laneBits t) s.src.v[n]) (if cvtLanes t < cvtLanes u then 0 else part.val * k) new)))

/-- SB as vquant, vqst and mquant read it: an FP32 pattern. -/
def sbVal (w : Word) : Val := valueOf .f (w.toNat % 2 ^ 32)

def execVquant (pos : Fin 8) (t : Ty) (rnd : Rnd) (d : Fin 64) (a : VSrc) (b : SSrc) (c : FReg) (s : State) : Out1 :=
  s.vec 6 [specOf 0x40 d, c.spec] [a.spec, b.spec] fun s => do
    let x ← s.vsrc [] .f 24 (fun _ => true) a
    let sb := s.n64 b
    let q := quantBlock t (x.2.2.map (valueOf .f)) (sbVal sb) rnd
    let w := laneBits t
    let s1 := (x.1.flag (q.2.2 ||| x.2.2.foldl (fun f v => f ||| snanFl .f v) (snanFl .f (sb.toNat % 2 ^ 32)))).setV d
      (ofLanes w (setLanes (lanesOf w s.src.v[d]) (24 * pos.val) q.2.1))
    let dst : SDst := match c with | .w n => .w n | .g n => .g n
    let old := s.sreg (match c with | .w n => .w n | .g n => .g n)
    let sh := 8 * pos.val
    .ok (s1.put dst ((old &&& ~~~(0xFF#64 <<< sh)) ||| (BitVec.ofNat 64 (q.1 % 256) <<< sh)))

end Sys2Proof.Machine
end

