-- ==== Sys2Proof/Machine/Loads.lean ====
section
/-! DEFINITION. Loads and stores, stream ports and the tag table, 0x63 to 0x71 (R180 to R193). -/
namespace Sys2Proof.Machine
open Sys2Proof

def maskAct (s : State) (m : Mask) (t : Ty) (j : Nat) : Bool := active s.src m t.width j

/-- The active lanes with the index each names. -/
def lanesAt (n : Nat) (act : Nat → Bool) (ix : Nat → Int) : List (Nat × Int) := ((List.range n).filter act).map fun j => (j, ix j)

/-! ### Loads (R166, R181, R184) -/

def execLd (t : Ty) (rnd : Rnd) (sat : Bool) (_sc : Scope) (_o : Ord) (d : SDst) (m : MAddr) (idx : Option SReg) (s : State) : Out1 :=
  s.vec 0 [d.spec] (m.base.spec :: idxOps idx) fun s => do
    let e ← s.elem t (s.ea m) (s.index idx) false
    s.elemReady false e
    let v := s.loadElem t rnd sat e
    .ok (((s.noteReads [(0, e)]).put d (codeWord t v.1)).flag v.2)

/-- The lanes that elements give, the prior value of d elsewhere, with the flags and the marks of the reads. -/
def State.gather (s : State) (t : Ty) (rnd : Rnd) (sat : Bool) (d : VDst) (es : List (Nat × Elem)) : Except Stop State :=
  let vals := es.map fun x => (x.1, s.loadElem t rnd sat x.2)
  let new := vals.foldl (fun l x => l.set x.1 x.2.1) (s.prior t.width t.lanes d)
  ((s.noteReads es).flag (orFl (vals.map (·.2)))).vdst t new d

def execVld (t : Ty) (rnd : Rnd) (sat : Bool) (_sc : Scope) (_o : Ord) (d : VDst) (m : MAddr) (idx : Option SReg) (k : Mask)
    (s : State) : Out1 :=
  s.vec 0 [d.spec] (m.base.spec :: idxOps idx ++ maskOps k) fun s => do
    let es ← s.elems t (s.ea m) false (lanesAt t.lanes (maskAct s k t) fun j => s.index idx + j)
    s.gather t rnd sat d es

/-- The signed indices of an index vector (R180). -/
def signedLane (w v : Nat) : Int := if v < 2 ^ (w - 1) then v else (v : Int) - 2 ^ w

def execVgath (t : Ty) (rnd : Rnd) (sat : Bool) (_sc : Scope) (_o : Ord) (d : VDst) (m : MAddr) (b : VSrc) (k : Mask) (s : State) :
    Out1 :=
  s.vec 0 [d.spec] (m.base.spec :: b.spec :: maskOps k) fun s => do
    let act := maskAct s k t
    let x ← s.vsrc [] t t.lanes act b
    let es ← x.1.elems t (s.ea m) false (lanesAt t.lanes act fun j => signedLane t.width (x.2.2.getD j 0))
    x.1.gather t rnd sat d es

/-! ### Stores (R167, R182 to R184) -/

def isRel (o : Ord) : Bool := o == .rel || o == .ar
def isAcq (o : Ord) : Bool := o == .acq || o == .ar

def execSt (t : Ty) (rnd : Rnd) (sat : Bool) (sc : Scope) (o : Ord) (m : MAddr) (idx : Option SReg) (c : SReg) (s : State) : Out1 :=
  s.vec 0 [] (m.base.spec :: idxOps idx ++ [c.spec]) fun s => do
    let e ← s.elem t (s.ea m) (s.index idx) true
    s.elemReady true e
    s.storeElems t rnd sat sc (isRel o) none [(e, (s.sreg c).toNat % 2 ^ t.width)]

def execVst (t : Ty) (rnd : Rnd) (sat : Bool) (sc : Scope) (o : Ord) (m : MAddr) (idx : Option SReg) (c : VSrc) (s : State) : Out1 :=
  s.vec 0 [] (m.base.spec :: idxOps idx ++ [c.spec]) fun s => do
    let x ← s.vsrc [] t t.lanes (fun _ => true) c
    let es ← x.1.elems t (s.ea m) true (lanesAt t.lanes (fun _ => true) fun j => s.index idx + j)
    x.1.storeElems t rnd sat sc (isRel o) none (es.map fun y => (y.2, x.2.2.getD y.1 0))

def execVscat (t : Ty) (rnd : Rnd) (sat : Bool) (sc : Scope) (o : Ord) (k : Mask) (m : MAddr) (b c : VSrc) (s : State) : Out1 :=
  s.vec 0 [] (maskOps k ++ [m.base.spec, b.spec, c.spec]) fun s => do
    let act := maskAct s k t
    let x ← s.vsrc [] t t.lanes act b
    let y ← State.vsrc x.1 x.2.1 t t.lanes act c
    let es ← y.1.elems t (s.ea m) true (lanesAt t.lanes act fun j => signedLane t.width (x.2.2.getD j 0))
    y.1.storeElems t rnd sat sc (isRel o) none (es.map fun z => (z.2, y.2.2.getD z.1 0))

/-! ### vqst (R183) -/

/-- Codes packed as the plane bytes of a block: n codes of w bits each, lowest first. -/
def packCodes (w : Nat) (l : List Nat) : List Byte := leBytes (l.foldr (fun c acc => c % 2 ^ w + 2 ^ w * acc) 0) (l.length * w / 8)

/-- The bytes of a block in its record, as offsets from the record's start: codes, the block's scale byte, the superblock scale. -/
def blockCells (a : BitVec 11) (pos : Nat) (scale : Nat) (codes : List Nat) (sb : Nat) : List (Nat × Byte) :=
  let at_ (o : Nat) (l : List Byte) : List (Nat × Byte) := l.zipIdx.map fun x => (o + x.2, x.1)
  (if codeBytes a = 192 then at_ pos (packCodes 8 codes) else at_ (pos / 2) (packCodes 4 codes)) ++
  (if codeBytes a = 144 then at_ (96 + pos / 4) (packCodes 2 (codes.map (· / 16))) else []) ++
  (if attrScale a = 1 then at_ (codeBytes a + pos / 24) (leBytes scale 1) ++ at_ (codeBytes a + 8) (leBytes sb 4) else []) ++
  (if attrScale a = 2 then at_ (codeBytes a) (leBytes sb 4) else [])

/-- The block scale, codes and flags a page's mode gives (R183, R112, R124, R125). -/
def quantFor (a : BitVec 11) (pos : Nat) (x : List Nat) (sb : Nat) (rnd : Rnd) : Nat × List Nat × Fl :=
  if 24 * (attrFill a + 1) ≤ pos then (0, List.replicate 24 0, 0)
  else
    let vals := x.map (valueOf .f)
    let sn := x.foldl (fun f v => f ||| snanFl .f v) (if attrScale a = 0 then 0 else snanFl .f sb)
    if attrScale a = 1 then
      let q := quantBlock (attrTy a) vals (valueOf .f sb) rnd
      (q.1, q.2.1, q.2.2 ||| sn)
    else
      let q := quantFlat (attrTy a) vals (if attrScale a = 2 then valueOf .f sb else .num 1) rnd
      (0, q.1, q.2 ||| sn)

/-- The places of n bytes from an address on, all on pages of one attribute. DESIGN CHOICE (log 47): a block of a plain array that crosses
onto a page of another attribute is the format trap, as R167 has it for the other stores. -/
def State.blockSpots (s : State) (a : BitVec 11) (va : Word) : Nat → Except Stop (List Spot)
  | 0 => .ok []
  | n + 1 => do
    let p ← s.spot va.toNat true
    if p.attr != a then trapW 0x32 va
    let r ← s.blockSpots a (va + 1) n
    .ok (p :: r)

/-- The bytes of one block written at an address, with their places and the flags. -/
def State.blockAt (s : State) (ea : Word) (x : List Nat) (sb : Nat) (rnd : Rnd) : Except Stop (List (Spot × Byte) × Fl) := do
  let p ← s.spot ea.toNat true
  match recSize p.attr with
  | some r => match recAt p r with
    | none => trapW 1 ea
    | some (rp, pos) =>
      if pos % 24 != 0 then trapW 0x31 ea
      else
        let q := quantFor p.attr pos x sb rnd
        .ok ((blockCells p.attr pos q.1 q.2.1 sb).map fun c => ({ rp with pa := rp.pa + c.1, va := rp.va + c.1 }, c.2), q.2.2)
  | none =>
    if attrRaw p.attr || !(attrTy p.attr).isBlock then trapW 0x32 ea
    else do
      let q := quantFor p.attr 0 x sb rnd
      let bytes := packCodes (attrTy p.attr).width q.2.1
      let ps ← s.blockSpots p.attr ea bytes.length
      .ok (ps.zip bytes, q.2.2)

def execVqst (rnd : Rnd) (sc : Scope) (o : Ord) (m : MAddr) (b : VSrc) (c : SReg) (s : State) : Out1 :=
  s.vec 6 [] [m.base.spec, b.spec, c.spec] fun s => do
    let x ← s.vsrc [] .f 24 (fun _ => true) b
    let r ← x.1.blockAt (s.ea m) x.2.2 ((s.sreg c).toNat % 2 ^ 32) rnd
    x.1.scoreAll (r.1.map fun y => (y.1.va, 1))
    let s1 := x.1.store false (r.1.map fun y => (y.1.pa, y.2, 0xFF)) (isRel o) sc none
    .ok ((s1.noteWrite (r.1.map fun y => y.1.va)).flag r.2)

/-! ### Stream ports (R187 to R190) -/

/-- An append of the port has been issued and is not performed. -/
def State.appending (s : State) (q : Fin 8) : Bool := s.before.any fun r => s.owns r && r.port == some q.val

def execSbind (wr : Bool) (t : Ty) (rnd : Rnd) (sat : Bool) (sc : Scope) (d : Fin 8) (a b c : SSrc) (s : State) : Out1 :=
  s.vec 0 [specOf 0x80 d] [a.spec, b.spec, c.spec] fun s =>
    let base := s.n64 a
    let n0 := s.n64 b
    let w := s.n64 c
    let n1 := (w.extractLsb' 0 32).toNat
    if n0.toNat = 0 || 2 ^ 32 ≤ n0.toNat || n1 = 0 then streamTrap d 5
    else if base.toNat / 2 ^ 56 != 0 then trapW 2 base
    else if s.appending d then blockE
    else .ok (s.setPort d (some ⟨wr, t, rnd, sat, sc, base, n0.toNat, n1, (w.extractLsb' 32 32).toInt, 0, 0⟩))

def execSfree (q : Fin 8) (s : State) : Out1 :=
  s.vec 0 [] [specOf 0x80 q] fun s => if s.appending q then blockE else .ok (s.setPort q none)

def execSseek (q : Fin 8) (b c : SSrc) (s : State) : Out1 :=
  s.vec 0 [] [specOf 0x80 q, b.spec, c.spec] fun s =>
    match s.th.q[q] with
    | none => streamTrap q 1
    | some p =>
      let row := (s.n64 b).toNat
      let e := (s.n64 c).toNat
      if p.n0 ≤ e || p.n1 < row || (row = p.n1 && e != 0) then streamTrap q 6
      else .ok (s.setPort q (some { p with row, elem := e }))

def execSstatPos (d : SDst) (q : Fin 8) (s : State) : Out1 :=
  s.vec 0 [d.spec] [specOf 0x80 q] fun s => .ok (s.put d (match s.th.q[q] with
    | some p => BitVec.ofNat 64 (p.row * 2 ^ 32 + p.elem)
    | none => BitVec.allOnes 64))

def execSstatCfg (d : SDst) (q : Fin 8) (s : State) : Out1 :=
  s.vec 0 [d.spec] [specOf 0x80 q] fun s => .ok (s.put d (match s.th.q[q] with
    | some p => BitVec.ofNat 64 (2 ^ 63 + (if p.wr then 2 ^ 62 else 0) + p.t.code.toNat * 2 ^ 32 + p.n0)
    | none => 0))

def execSstatBase (d : SDst) (q : Fin 8) (s : State) : Out1 :=
  s.vec 0 [d.spec] [specOf 0x80 q] fun s => .ok (s.put d (match s.th.q[q] with | some p => p.base | none => 0))

/-- sflush: appends are performed before it retires; as a release, so is every earlier store of the thread. -/
def execSflush (_sc : Scope) (o : Ord) (q : Fin 8) (s : State) : Out1 :=
  s.vec 0 [] [specOf 0x80 q] fun s =>
    if s.th.q[q].isNone then streamTrap q 1
    else if s.appending q || (isRel o && s.before.any s.owns) then blockE
    else .ok s

/-! ### The tag table (R192, R193) -/

/-- The checks of every tag instruction: the engine holder. -/
def State.tagHolder (s : State) : Except Stop Unit := if s.holds then .ok () else trap 0x33 0

/-- The tag of an address. -/
def tagOf (a : Word) : Except Stop Nat := if a.toNat / 2 ^ 56 = 0 then .ok (a.toNat / 512) else trapW 2 a

def State.setTags (l : List TagEnt) (s : State) : State := { s with core := { s.core with tags := l } }

def execTlook (d : SDst) (a : SSrc) (s : State) : Out1 := s.vec 0 [d.spec] [a.spec] fun s => do
  s.tagHolder
  let t ← tagOf (s.n64 a)
  .ok (s.put d (match s.core.tags.find? fun e => e.tag = t with
    | some e => BitVec.ofNat 64 (e.entry * 65536 + e.line)
    | none => BitVec.allOnes 64))

def execTset (a b c : SSrc) (s : State) : Out1 := s.vec 0 [] [a.spec, b.spec, c.spec] fun s => do
  s.tagHolder
  let e := (s.n64 a).toNat
  if 511 < e then trapW 0x33 (s.n64 a)
  let t ← tagOf (s.n64 b)
  let l := (s.n64 c).toNat
  if s.bd.winSize / 512 ≤ l then trapW 0x33 (s.n64 c)
  .ok (s.setTags ((s.core.tags.filter fun x => x.entry != e && x.tag != t) ++ [⟨e, t, l⟩]))

def execTinvEnt (a : SSrc) (s : State) : Out1 := s.vec 0 [] [a.spec] fun s => do
  s.tagHolder
  let e := (s.n64 a).toNat
  if 511 < e then trapW 0x33 (s.n64 a)
  .ok (s.setTags (s.core.tags.filter fun x => x.entry != e))

def execTinvTag (a : SSrc) (s : State) : Out1 := s.vec 0 [] [a.spec] fun s => do
  s.tagHolder
  let t ← tagOf (s.n64 a)
  .ok (s.setTags (s.core.tags.filter fun x => x.tag != t))

def execTinvAll (s : State) : Out1 := s.vec 0 [] [] fun s => do
  s.tagHolder
  .ok (s.setTags [])

end Sys2Proof.Machine
end

