-- ==== Sys2Proof/Machine/Requests.lean ====
section
/-! DEFINITION. Requests to home slices and their answers (R261, R316, R342, R343, R412): the write, the atomic, the probe and its echo, the
read, and what each changes where it is performed. -/
namespace Sys2Proof.Machine
open Sys2Proof

/-- The party whose accesses a request belongs to: the context-save engine's probes are made for their thread; all that one endpoint
places is one party's (R341, R343). -/
def Who.party : Who → Option TKey
  | .thr k | .save k => some k
  | .peer _ _ => none

/-- An earlier request of the same party satisfies a test. -/
def State.earlier (s : State) (k : Nat) (r : Req) (p : Req → Bool) : Bool := (s.reqs.take k).any fun q => q.who.party = r.who.party && p q

/-- A store may be performed: the earlier stores of its party to its line are, all of them where it is a release, and those its thread has
read before it where there are any (R343 to R345); and every write its clock names has been applied (R348, R430). -/
def State.storeReady (s : State) (k : Nat) (r : Req) : Bool :=
  !(s.earlier k r fun q => q.isStore && (r.rel || q.pa / 64 = r.pa / 64 || (r.ord && q.seen))) &&
  r.clk.all fun c => noHome r.pa || c.le (s.die (home r.pa / 16)).clock

def State.setReq (k : Nat) (r : Req) (s : State) : State := { s with reqs := s.reqs.set k r }
def State.dropReq (k : Nat) (s : State) : State := { s with reqs := s.reqs.eraseIdx k }

/-- The position of a write just applied in the coherence order, as its ack carries it (R412). -/
def State.position (s : State) (r : Req) : Nat := if noHome r.pa then 0 else ((s.die (home r.pa / 16)).clock[s.siteOf r.who]).toNat

/-- The size of the first tier: 8 × 48 GB (Table 0-1; log 10); and the modules of the second (log 10). -/
def tier1Size : Nat := 384 * 10 ^ 9
def tier2Size : Nat := 2 ^ 42

/-- An address that something stands behind (R18). -/
def populated (pa : Nat) : Bool :=
  decide (pa < tier1Size) || (decide (tier2 ≤ pa) && decide (pa < tier2 + tier2Size)) || decide (deviceRegs ≤ pa)

/-- The frame of an address belongs to another key ID than the request carries (R412). -/
def State.keyRefused (s : State) (r : Req) : Bool :=
  s.frames.any fun f => f.base ≤ r.pa && r.pa < f.base + f.size && f.key != r.key

/-- A request that a home slice refuses for its key ID: its answer is status access, and a machine-check is logged (R412). -/
def State.refuseReq (k : Nat) (r : Req) (body : ReqBody) (s : State) : State := (s.mcheck 3 r.ctx r.pa).setReq k { r with body }

/-- WRITE: the home slice performs the bytes and acknowledges with its position; where nothing stands, with an error. -/
def State.writeAt (k : Nat) (s : State) : State :=
  match s.reqs[k]? with
  | some r => match r.body with
    | .write _ =>
      if !(s.storeReady k r) then s
      else if !(populated r.pa) then s.setReq k { r with body := .ack 0 1 }
      else if s.keyRefused r then s.refuseReq k r (.ack 0 4)
      else let t := s.performReq r; t.setReq k { r with body := .ack (t.position r) 0 }
    | _ => s
  | none => s

/-- ATOMIC: the home slice performs it, and answers with the old value or an acknowledgement. One that writes leaves its page dirty. -/
def State.atomicAt (k : Nat) (s : State) : State :=
  match s.reqs[k]? with
  | some r => match r.body with
    | .amo fn t rnd b c ret =>
      if s.keyRefused r then s.refuseReq k r (if ret then .data [] 4 else .ack 0 4)
      else if !(s.storeReady k r) then s
      else if !(populated r.pa) then s.setReq k { r with body := if ret then .data [] 1 else .ack 0 1 }
      else
        let x := s.performAmo (s.siteOf r.who) r.pa fn t rnd b c
        let wrote := (amoNew fn t rnd x.1 b.toNat c.toNat).isSome
        let u := (if wrote then x.2.updCx r.ctx (Context.touchPhys r.pa) else x.2).spoiled r
        u.setReq k { r with wrote, body := if ret then .data (leBytes x.1 (t.width / 8)) 0 else .ack (u.position r) 0 }
    | _ => s
  | none => s

/-- READ: the home slice answers with the bytes and their poison; where nothing stands, with an error. A party's earlier writes to the
bytes come first (R343). -/
def State.readReqAt (k : Nat) (s : State) : State :=
  match s.reqs[k]? with
  | some r => match r.body with
    | .read n =>
      if s.earlier k r fun q => q.cells.any fun c => r.pa ≤ c.1 && c.1 < r.pa + n then s
      else if s.keyRefused r then s.refuseReq k r (.data [] 4)
      else
        let b := (List.range n).map fun i => s.memByte (r.pa + i)
        let bad := poisoned s.poison r.pa n || !(populated r.pa)
        (s.touchLines false r.pa n).setReq k { r with body := .data b (if bad then 1 else 0) }
    | _ => s
  | none => s

/-- PROBE: the home slice echoes once every earlier store of the party that it homes is performed. -/
def State.probeAt (k : Nat) (s : State) : State :=
  match s.reqs[k]? with
  | some r => match r.body with
    | .probe => if s.earlier k r fun q => q.isStore && !(noHome q.pa) && home q.pa = r.pa then s else s.setReq k { r with body := .echo }
    | _ => s
  | none => s

/-- ECHO: one echo fewer is awaited. -/
def Thread.echoed (t : Thread) : Thread := match t.wait with | some (.echoes (n + 1)) => { t with wait := some (.echoes n) } | _ => t

def State.echoAt (k : Nat) (s : State) : State :=
  match s.reqs[k]? with
  | some r => match r.body, r.who with
    | .echo, .thr w => (s.dropReq k).updTh w Thread.echoed
    | .echo, .save w => (s.dropReq k).updTh w fun t => { t with probe := t.probe.map (· - 1) }
    | .echo, _ => s.dropReq k
    | _, _ => s
  | none => s

/-- A thread learns that its atomic wrote: the slice enters tsm (R50). -/
def Thread.didWrite (r : Req) (t : Thread) : Thread :=
  if r.wrote && !(noHome r.pa) then { t with tsm := t.tsm ||| (1#64 <<< home r.pa) } else t

/-- The old value of an atomic reaches its thread; the home slice enters the read-slice mask (R261). -/
def Thread.gotValue (r : Req) (v : Word) (t : Thread) : Thread :=
  let t := t.didWrite r
  match t.wait with
  | some (.value none) => { t with wait := some (.value (some v)), rsm := if noHome r.pa then t.rsm else t.rsm ||| (1#64 <<< home r.pa) }
  | _ => t

def State.updNet (tag : Nat) (f : NetCmd → NetCmd) (s : State) : State :=
  { s with nets := s.nets.map fun n => if n.tag = tag then f n else n }

/-- An atomic meets poison, or a refusal, in its answer: the access trap, with the address of the page it was made through (Table 16-2). -/
def State.lostValue (w : TKey) (pa : Nat) (s : State) : State :=
  match s.thread? w with
  | none => s
  | some t => match t.wait with
    | some (.value _) =>
      let s := s.focus w
      let e := s.cx.ptes.find? fun e => e.state != 1 && e.phys e.va ≤ pa && pa < e.phys e.va + e.size
      s.takeTrap 1 (BitVec.ofNat 64 ((e.map fun e => e.va + (pa - e.phys e.va)).getD 0)) s.th.pc false false
    | _ => s

/-- DATA: the answer reaches the party that asked. -/
def State.dataAt (k : Nat) (s : State) : State :=
  match s.reqs[k]? with
  | some r => match r.body with
    | .data b p =>
      let s := s.dropReq k
      match r.who with
      | .thr w => if p != 0 then s.lostValue w r.pa else s.updTh w (Thread.gotValue r (leWord b))
      | .peer a off => s.out (if p != 0 then .netStatus a p else .reply a off b)
      | .save _ => s
    | _ => s
  | none => s

/-- ACK: the write's party learns that it is performed; a peer, once the last of its lines is. -/
def State.ackAt (k : Nat) (s : State) : State :=
  match s.reqs[k]? with
  | some r => match r.body with
    | .ack _ e =>
      let s := s.dropReq k
      match r.who with
      | .peer a _ => if e != 0 then s.out (.netStatus a e) else if s.reqs.any fun q => q.who = r.who then s else s.out (.netStatus a 0)
      | .thr w => s.updTh w (Thread.didWrite r)
      | .save _ => s
    | _ => s
  | none => s

def execReadReq (k : Nat) (s : State) : Out1 := .next (s.readReqAt k)
def execWriteReq (k : Nat) (s : State) : Out1 := .next (s.writeAt k)
def execAtomicReq (k : Nat) (s : State) : Out1 := .next (s.atomicAt k)
def execProbeReq (k : Nat) (s : State) : Out1 := .next (s.probeAt k)
def execEchoReq (k : Nat) (s : State) : Out1 := .next (s.echoAt k)
def execDataReq (k : Nat) (s : State) : Out1 := .next (s.dataAt k)
def execAckReq (k : Nat) (s : State) : Out1 := .next (s.ackAt k)

/-! ### Atomics (R259, R260) -/

/-- An atomic on a host page is one PCIe carries (R260). -/
def hostAmo (fn : Nat) : Bool := fn = 0 || fn = 6 || fn = 8

/-- Issues an atomic: checks, then performed at once in the window, or a request to the home slice. -/
def State.amo (s : State) (fn : Nat) (t : Ty) (rnd : Rnd) (sc : Scope) (o : Ord) (d : SDst) (m : MAddr) (b c : SReg)
    (ss : List (BitVec 8)) : Out1 := s.finish (
  match s.th.wait with
  | some (.value (some v)) => .ok (s.put d (extend t v.toNat))
  | some (.value none) => blockE
  | _ => do
    let s ← s.begin [d.spec] ss
    let ea := s.ea m
    let n := t.width / 8
    addrs [ea]
    if ea.toNat % n != 0 then trapW 0x31 ea
    let _ ← s.spot ea.toNat false
    let p ← s.spot ea.toNat true
    if !(attrRaw p.attr) then trapW 0x32 ea
    s.scoreboard p.va n
    if s.poisonAt p n then trapW 1 ea
    if isHost p.pa && !(hostAmo fn) then trapW 1 ea
    let x := s.sreg b
    let y := s.sreg c
    if p.win then
      let s := if isRel o then s.flush else s
      let old := leNat (s.core.spad.bytes p.pa n)
      let core := match amoNew fn t rnd old x.toNat y.toNat with
        | some v => s.core.spadPut (cellsOf p.pa (leBytes v n))
        | none => s.core.wakeAt p.pa
      .ok ({ s with core }.put d (extend t old))
    else
      let ret := d != .zero
      let r : Req := { who := .thr s.th.key, ctx := s.th.ctx, key := s.cx.key, pa := p.pa, rel := isRel o, sc, port := none,
                       body := .amo fn t rnd x y ret, ord := s.sawStore, acq := isAcq o, clk := s.clkTo p.pa }
      let s := { s with cx := s.cx.touch p.va false, reqs := s.reqs ++ [r] }
      .ok (if ret then s.park (.value none) else s))

def execAmoAdd (t : Ty) (sc : Scope) (o : Ord) (d : SDst) (m : MAddr) (b : SReg) (s : State) : Out1 :=
  s.amo 0 t .rne sc o d m b .zero [m.base.spec, b.spec]
def execAmoAnd (t : Ty) (sc : Scope) (o : Ord) (d : SDst) (m : MAddr) (b : SReg) (s : State) : Out1 :=
  s.amo 1 t .rne sc o d m b .zero [m.base.spec, b.spec]
def execAmoOr (t : Ty) (sc : Scope) (o : Ord) (d : SDst) (m : MAddr) (b : SReg) (s : State) : Out1 :=
  s.amo 2 t .rne sc o d m b .zero [m.base.spec, b.spec]
def execAmoXor (t : Ty) (sc : Scope) (o : Ord) (d : SDst) (m : MAddr) (b : SReg) (s : State) : Out1 :=
  s.amo 3 t .rne sc o d m b .zero [m.base.spec, b.spec]
def execAmoMin (t : Ty) (sc : Scope) (o : Ord) (d : SDst) (m : MAddr) (b : SReg) (s : State) : Out1 :=
  s.amo 4 t .rne sc o d m b .zero [m.base.spec, b.spec]
def execAmoMax (t : Ty) (sc : Scope) (o : Ord) (d : SDst) (m : MAddr) (b : SReg) (s : State) : Out1 :=
  s.amo 5 t .rne sc o d m b .zero [m.base.spec, b.spec]
def execAmoSwap (t : Ty) (sc : Scope) (o : Ord) (d : SDst) (m : MAddr) (b : SReg) (s : State) : Out1 :=
  s.amo 6 t .rne sc o d m b .zero [m.base.spec, b.spec]
def execAmoFadd (rnd : Rnd) (sc : Scope) (o : Ord) (d : SDst) (m : MAddr) (b : SReg) (s : State) : Out1 :=
  s.amo 7 .f rnd sc o d m b .zero [m.base.spec, b.spec]
def execCas (t : Ty) (sc : Scope) (o : Ord) (d : SDst) (m : MAddr) (b c : SReg) (s : State) : Out1 :=
  s.amo 8 t .rne sc o d m b c [m.base.spec, b.spec, c.spec]

/-! ### Fences (R261) -/

/-- The home slices a mask names. -/
def slicesOf (m : BitVec 64) : List Nat := (List.range 64).filter fun i => m.getLsbD i

/-- Sends a fence's probes and parks for their echoes; none are due at core scope or where no slice was touched. -/
def State.probes (m : BitVec 64) (sc : Scope) (s : State) : State :=
  let rs := (slicesOf m).map fun i =>
    { who := .thr s.th.key, ctx := s.th.ctx, key := s.cx.key, pa := i, rel := false, sc, port := none, body := .probe : Req }
  { s with reqs := s.reqs ++ rs }.park (.echoes rs.length)

/-- The slices of the atomics of the thread in focus that are on their way, which enter tsm only once they have written. -/
def State.atomSlices (s : State) : BitVec 64 :=
  s.before.foldl (fun m r => match r.body with
    | .amo .. => if s.owns r && !(noHome r.pa) then m ||| (1#64 <<< home r.pa) else m
    | _ => m) 0

/-- The release side of a fence: at core scope the thread's stores are performed at once; without earlier stores nothing is awaited. Stores
to a place without a home slice are waited for until they are performed, and at sys scope until they are acknowledged. -/
def State.fenceRel (sc : Scope) (o : Ord) (s : State) : Except Stop State :=
  if sc = .core then .ok s.flush
  else if s.before.any fun r => s.owns r && noHome r.pa && (sc = .sys || r.isStore) then blockE
  else
    let m := s.src.tsm ||| s.atomSlices ||| (if o = .ar then s.src.rsm else 0)
    .ok (if m = 0 then s else s.probes m sc)

/-- Every echo has returned: the bits probed are cleared. What an eddy wrote stays known to its read (R230). -/
def State.probed (o : Ord) (s : State) : State :=
  let s := match s.th.eddy with
    | some e => { s with bd := s.bd.updRead e.tag fun r => { r with slices := r.slices ||| s.src.tsm } }
    | none => s
  { s with th := { s.th with tsm := s.th.tsm &&& ~~~s.src.tsm, rsm := if o = .ar then s.th.rsm &&& ~~~s.src.rsm else s.th.rsm } }

def execFence (sc : Scope) (o : Ord) (s : State) : Out1 := s.finish (
  match s.th.wait with
  | some (.echoes 0) => .ok (s.probed o)
  | some (.echoes _) => blockE
  | _ => do
    let s ← s.begin [] []
    if isRel o then s.fenceRel sc o else .ok s)

end Sys2Proof.Machine
end

