-- ==== Sys2Proof/Machine/OpAccess.lean ====
section
/-! DEFINITION. Memory as an operation reaches it (R229, R235, R331, R447): translation without traps, reads and writes of byte ranges,
and the home slices an operation writes (R230). The bind record, core and context of the operation are in focus. -/
namespace Sys2Proof.Machine
open Sys2Proof

/-- Acts on a context's part of a core that is saved: its bind record and core are in focus meanwhile, the window from 0 on (R275). -/
def State.inSaved (core ctx : Nat) (f : State → State) (s : State) : State :=
  let s := s.focusCx ctx
  let here (v : Saved) : Bool := v.bd.core = core
  match s.cx.saved.find? here with
  | none => s
  | some v =>
    let r := f { s with bd := { v.bd with base := 0, gone := false }, core := v.core }
    { r with
      bd := s.bd, core := s.core
      cx := { r.cx with saved := r.cx.saved.map fun w => if here w then { w with bd := { r.bd with base := v.bd.base }, core := r.core } else w } }

/-- Some part of a context is saved from a core. -/
def State.isOut (s : State) (core ctx : Nat) : Bool :=
  (s.bind? core ctx).isNone && (s.cx? ctx).any fun x => x.saved.any fun v => v.bd.core = core

/-- Acts where an operation of a context on a core stands: on the core, or in what is saved of it. `f` learns whether it is out. -/
def State.whereOp (core ctx : Nat) (f : Bool → State → State) (s : State) : State :=
  if s.isOut core ctx then s.inSaved core ctx (f true) else f false (s.focusOn core ctx)

/-- The same, to look at: what an operation of a context on a core sees, on the core or in what is saved of it. -/
def State.opView (core ctx : Nat) (s : State) : State :=
  let t := s.focusOn core ctx
  match if s.isOut core ctx then t.cx.saved.find? (fun v : Saved => v.bd.core = core) else none with
  | some v => { t with bd := { v.bd with base := 0, gone := false }, core := v.core }
  | none => t

/-- Why an operation cannot reach a byte: an access condition, with the machine-check it raises if any, or a page not yet there. -/
inductive OpStop where
  | fail (mc : Option Nat)
  | wait (w : Walk)
  deriving DecidableEq, Repr

/-- The translation of a host page is complete (R445): the ATC covers its 64 KiB with the permission. -/
def State.atcHas (s : State) (e : Pte) (va : Nat) (wr : Bool) : Bool :=
  let a := e.loc.toNat + (va - e.va) / 65536 * 65536
  (List.range 16).all fun i => s.atc.any fun x =>
    x.func = e.func && x.pasid = e.pasid && x.iova = a + 4096 * i && (if wr then x.wr else x.rd)

/-- A function's requests may be sent (R447): a virtual function's only in RUN on a secure stream. -/
def State.tdiSends (s : State) (func : Nat) : Bool :=
  func = 0 || (decide ((s.tdi.toList[func]?) = some .run) && (s.ide.toList[func]?).getD false)

/-- The host page of an address, as a translation names it. -/
def Pte.hostPage (e : Pte) (va : Nat) (rd wr : Bool) : Atc :=
  { func := e.func, pasid := e.pasid, iova := e.loc.toNat + (va - e.va) / 65536 * 65536, rd, wr }
def Atc.same (a b : Atc) : Bool := a.func = b.func && a.pasid = b.pasid && a.iova = b.iova

/-- The host has refused the page to what waits for it (R445 item 5). -/
def State.pageRefused (s : State) (e : Pte) (va : Nat) : Bool := s.refusedPg.any (Atc.same (e.hostPage va true true))

/-- The place of a byte for an operation (R51, R163, R235, R331). -/
def State.opSpot (s : State) (va : Nat) (wr : Bool) : Except OpStop Spot :=
  if 2 ^ 56 ≤ va then .error (.fail none)
  else if isWin va then
    if va - winBase < s.bd.winSize then .ok (winSpot s.bd va) else .error (.fail none)
  else
    let w : Walk := ⟨s.cx.id, coreDie s.core.id, s.cx.leafBase va, wr⟩
    match s.cx.pte? va with
    | none => .error (.fail none)
    | some e =>
      if e.malformed then .error (.fail (some 2))
      else if e.key != s.cx.key then .error (.fail (some 3))
      else if !(e.allows s.cx.key wr) then .error (.fail none)
      else if e.state = 0 then .ok (e.spot va)
      else if e.state = 1 then .error (.wait w)
      else if !(s.tdiSends e.func) || s.pageRefused e va then .error (.fail none)
      else if s.atcHas e va wr then .ok (e.spot va)
      else .error (.wait w)

/-- The site of what the core in focus writes, or of the IOD where no core is (R348). -/
def State.opSite (s : State) : Fin 6 := if s.bd.gone then 4 else s.coreSite s.core.id

/-- The places of n bytes, up to the first that cannot be reached. -/
def State.opSpots (s : State) (va : Nat) (wr : Bool) : Nat → List Spot × Option OpStop
  | 0 => ([], none)
  | n + 1 => match s.opSpot va wr with
    | .error e => ([], some e)
    | .ok p => let r := s.opSpots (va + 1) wr n; (p :: r.1, r.2)

/-- A gated lee bank stands behind a place (R61). -/
def State.gatedAt (s : State) (p : Spot) : Bool :=
  p.win && match leeBank p.pa with | some b => s.core.banks[b] == .gated | none => false

/-- One byte as an operation reads it: zero from a gated bank. Under replay, host memory answers from the stream (R495). -/
def State.opByte (s : State) (p : Spot) : Byte :=
  if s.gatedAt p then 0
  else if p.win then s.core.spad.get p.pa
  else match if isHost p.pa then s.cx.replay else none with
    | some l => ((l.find? fun r => r.kind = 2 && r.addr ≤ p.va && p.va < r.addr + r.data.length).map fun r =>
        slice r.data (p.va - r.addr) 1).getD [0] |>.headD 0
    | none => s.memByte p.pa

def State.opPoison (s : State) (p : Spot) : Bool := s.poisonAt p 1

/-- What a stop leaves behind: the machine-check, or the walk that is waited for. -/
def State.opNote (va : Nat) (e : OpStop) (s : State) : State :=
  match e with
  | .fail (some k) => s.mcheck k s.cx.id va
  | .fail none => match s.cx.pte? va with
    | some e => { s with refusedPg := s.refusedPg.filter fun x => !(Atc.same (e.hostPage va true true) x) }
    | none => s
  | .wait w => s.startWalk w

/-- Marks what an operation's reads leave: accessed bits, and a capture record of what it read in host memory (R493). -/
def State.opReadNote (ps : List Spot) (s : State) : State :=
  let dev : List Spot := ps.filter fun p => !p.win
  let s := (dev.map fun p => p.pa / 64 * 64).eraseDups.foldl (fun s a => s.touchLine false a) s
  let s := { s with
    cx := dev.foldl (fun x (p : Spot) => x.touch p.va false) s.cx
    core := ps.foldl (fun (c : Core) (p : Spot) => if p.win then c.wakeAt p.pa else c) s.core }
  let out := ps.filter fun p => isHost p.pa
  match out with
  | [] => s
  | p :: _ => s.record 2 p.va (out.map s.opByte)

/-- Writes bytes at places, each under the bits it changes, at once: the operation's write is performed where it stands (R410). Under
replay no host byte is written (R495). -/
def State.opWriteM (l : List (Spot × Byte × Byte)) (s : State) : State :=
  let cells (l : List (Spot × Byte × Byte)) : List (Nat × Byte × Byte) := l.map fun x => (x.1.pa, x.2)
  let win := l.filter fun x => x.1.win
  let mem := l.filter fun x => !x.1.win
  let out := mem.filter fun x => isHost x.1.pa
  let mem := if s.cx.replay.isSome then mem.filter fun x => !(isHost x.1.pa) else mem
  let s := if win.isEmpty then s else { s with core := s.core.spadPut (cells win) }
  let s := match out with | x :: _ => s.output x.1.va (out.map fun y : Spot × Byte × Byte => y.2.1) | [] => s
  let s := if mem.isEmpty then s else s.perform s.opSite (cells mem)
  { s with cx := mem.foldl (fun x (c : Spot × Byte × Byte) => x.touch c.1.va true) s.cx }

def State.opWrite (l : List (Spot × Byte)) (s : State) : State := s.opWriteM (l.map fun x => (x.1, x.2, 0xFF))

/-- Poisons the units that bytes at places touch (R483). -/
def State.opPoisonAll (l : List Spot) (s : State) : State :=
  l.foldl (fun s (p : Spot) =>
    if p.win then { s with core := { s.core with spadPoison := addPoison s.core.spadPoison p.pa 1 } }
    else { s with poison := addPoison s.poison p.pa 1 }) s

/-- A completion word that a capture records and a replay answers (R493, R495, kind 5). -/
def State.wordOf (w : Word) (s : State) : Word × State :=
  match s.cx.replay with
  | none => (w, s.record 5 w.toNat [])
  | some l => match pick (fun r : CapRec => r.kind = 5) l with
    | some (r, rest) => (BitVec.ofNat 64 r.addr, { s with cx := { s.cx with replay := some rest } })
    | none => (w, s)

/-- The completion word of an operation of a core, which is an input where it met a host page. -/
def State.hostWord (host : Bool) (w : Word) (s : State) : Word × State := if host then s.wordOf w else (w, s)

def hostAny (l : List Spot) : Bool := l.any fun p => isHost p.pa

/-- The home slices that writes at places reach. -/
def slicesAt (l : List Spot) : BitVec 64 :=
  l.foldl (fun m (p : Spot) => if p.win || noHome p.pa then m else m ||| (1#64 <<< home p.pa)) 0

/-- A range of bytes that an operation reads whole: the bytes with their places, or the stop and the address it stopped at. -/
def State.opBytes (s : State) (va n : Nat) : Except (Nat × OpStop) (List Spot × List Byte) :=
  match s.opSpots va false n with
  | (ps, none) => .ok (ps, ps.map s.opByte)
  | (ps, some e) => .error (va + ps.length, e)

end Sys2Proof.Machine
end

