-- ==== Sys2Proof/Machine/System.lean ====
section
/-! DEFINITION. System registers, traps, pre-emption hints, heat notices, save records, marks and idling (R46 to R50, R277 to R291,
R305 to R307), and the two interrupts. -/
namespace Sys2Proof.Machine
open Sys2Proof

/-- What every system instruction begins with: presence, no eddy, the mode of Table 8-1, then waiting. -/
def State.beginSys (s : State) (op : Nat) (mode : Option Bool) (ds ss : List (BitVec 8)) : Except Stop State := do
  s.present (ds.map (fun d => (true, d)) ++ ss.map fun a => (false, a))
  s.noEddy op
  if mode.any (· != s.th.handler) then trap 0x60 op else s.begin ds ss

/-- The same for an instruction that writes a future: its destination is not waited for (R43). -/
def State.beginSysF (s : State) (op : Nat) (mode : Option Bool) (d : FDst) (ss : List (BitVec 8)) : Except Stop State := do
  s.present ((true, d.spec) :: ss.map fun a => (false, a))
  s.noEddy op
  if mode.any (· != s.th.handler) then trap 0x60 op else s.begin [] ss

/-- An operation that has ended when its instruction retires: its future holds the completion word at once. -/
def State.doneNow (d : FDst) (w : Word) (s : State) : State :=
  match d with
  | .w n => { s with th := { s.th.setW n w with latch := true } }
  | .g n => { s with th := { s.th.setG n w with latch := true } }
  | .bc _ | .zero => s

/-! ### System registers (R46 to R50, R280, R281) -/

def bit (b : Bool) (k : Nat) : Word := if b then 1#64 <<< k else 0

/-- tstat (Table 8-3). -/
def State.tstat (s : State) : Word :=
  bit s.th.tpair 0 ||| bit s.th.tmem 1 ||| bit s.th.handler 2 ||| bit s.th.tstep 3 ||| bit s.bd.irq.isSome 4 |||
  bit (!s.th.irqs.isEmpty) 5

def heatCode : Heat → Nat
  | .still => 0 | .breeze => 1 | .gale => 2

/-- A system register by number (Table 1-4). -/
def State.sysReg (s : State) (n : Nat) : Option Word :=
  let t := s.th
  match n with
  | 0x000 => some t.tcause
  | 0x001 => some t.tval
  | 0x002 => some t.tepc
  | 0x003 => some s.tstat
  | 0x004 => some t.tvec
  | 0x005 => some t.tscratch
  | 0x010 => some (t.wbase.setWidth 64)
  | 0x011 => some (BitVec.ofNat 64 t.wvalid)
  | 0x012 => some t.wsp
  | 0x018 => some t.lbeg[0]
  | 0x019 => some t.lend[0]
  | 0x01A => some t.lbeg[1]
  | 0x01B => some t.lend[1]
  | 0x020 => some (t.flags.setWidth 64)
  | 0x030 => some s.bd.ccount
  | 0x031 => some t.icount
  | 0x040 => some t.tid
  | 0x041 => some (BitVec.ofNat 64 (t.ctx % 128))
  | 0x042 => some (BitVec.ofNat 64 (heatCode s.bd.heat))
  | 0x050 => some t.tsm
  | _ => none

/-- Registers that task mode may write, and those that handler mode may write besides (Table 1-4). -/
def sysRw (n : Nat) (handler : Bool) : Bool :=
  [0x004, 0x005, 0x012, 0x018, 0x019, 0x01A, 0x01B, 0x020].contains n || (handler && [0x000, 0x001, 0x002, 0x003, 0x010, 0x011].contains n)

/-- A write of a system register; none where the value lies outside the register's range (R47). Reserved bits stay zero. -/
def Thread.setSys (t : Thread) (n : Nat) (v : Word) : Option Thread :=
  match n with
  | 0x000 => some { t with tcause := v &&& 0x800000000000FFFF }
  | 0x001 => some { t with tval := v }
  | 0x002 => some { t with tepc := v }
  | 0x003 => some { t with tpair := v.getLsbD 0, tmem := v.getLsbD 1, tstep := v.getLsbD 3 }
  | 0x004 => some { t with tvec := v }
  | 0x005 => some { t with tscratch := v }
  | 0x010 => if v.toNat < 256 then some { t with wbase := v.setWidth 8 } else none
  | 0x011 => if v.toNat ≤ 224 then some { t with wvalid := v.toNat } else none
  | 0x012 => if v.toNat % 8 = 0 then some { t with wsp := v } else none
  | 0x018 => some { t with lbeg := t.lbeg.set 0 v }
  | 0x019 => some { t with lend := t.lend.set 0 v }
  | 0x01A => some { t with lbeg := t.lbeg.set 1 v }
  | 0x01B => some { t with lend := t.lend.set 1 v }
  | 0x020 => some { t with flags := v.setWidth 8 }
  | _ => none

def execSysr (d : SDst) (a : SSrc) (s : State) : Out1 := s.finish (do
  let s ← s.beginSys 0xC0 none [d.spec] [a.spec]
  match s.sysReg (s.n64 a).toNat with
  | some v => .ok (s.put d v)
  | none => trapW 0x17 (s.n64 a))

def execSysw (a b : SSrc) (s : State) : Out1 := s.finish (do
  let s ← s.beginSys 0xC1 none [] [a.spec, b.spec]
  let n := (s.n64 a).toNat
  let v := s.n64 b
  if !(sysRw n s.th.handler) then trapW 0x17 (s.n64 a)
  else if n = 0x004 && !(s.checkTarget v).isOk then trap 0x17 4
  else match s.th.setSys n v with
    | some t => .ok { s with th := t }
    | none => trapW 0x17 (s.n64 a))

/-! ### Traps and returns (R282 to R285) -/

/-- The return of tret and dstep: the address check, then task mode at tepc. -/
def State.tretOr (s : State) (r : Except Stop State) : Out1 :=
  match r with
  | .ok t => if t.th.tepc.toNat / 2 ^ 56 != 0 then s.finish (trapW 2 t.th.tepc) else .next t.trapReturn
  | .error e => s.finish (.error e)

def execTret (s : State) : Out1 := s.tretOr (s.beginSys 0xC2 (some true) [] [])

def execDstep (s : State) : Out1 := s.tretOr (do
  let s ← s.beginSys 0xD4 (some true) [] []
  .ok { s with th := { s.th with tstep := true } })

/-- trap retires, and then the software trap is taken with the PC that would have issued next (R279, R285). -/
def State.softTrap (v : Word) (s : State) : State :=
  let r := loopTest s.th.lc s.th.lbeg s.th.lend [s.th.pc] s.following
  { s with th := { s.th with lc := r.1, icount := s.th.icount + 1 } }.takeTrap 0x63 v r.2 false false

def execTrap (a : SSrc) (s : State) : Out1 :=
  match s.beginSys 0xC3 (some false) [] [a.spec] with
  | .ok t => .next (t.softTrap (t.i64 a))
  | .error e => s.finish (.error e)

def execDbrk (s : State) : Out1 := s.finish (do
  let s ← s.beginSys 0xD3 none [] []
  trapW 0x64 s.th.pc)

/-! ### A requested swap-out (R288) -/

/-- A swap-out of the thread's task is requested and not complete. -/
def State.swapAsked (s : State) : Bool := match s.cx.task? s.th.task with | some k => k.st == .saving | none => false

/-- A thread stopped for the swap-out of its task: parked, or past the deadline (R288). An eddy is stopped with its core, as the fence of the
save begins (R59, R422). -/
def State.halted (s : State) (t : Thread) : Bool :=
  match s.cx.task? t.task with
  | some k => k.st == .saving && (t.probe.isSome || (t.eddy.isNone && (t.wait.isSome || t.retry.isSome || t.halt || k.deadline)))
  | none => false

/-- A thread in a wait without effect, which a swap-out of its task stops (R288). -/
def State.haltWaiting (k : TKey) (s : State) : State :=
  match s.thread? k with
  | some t => if t.eddy.isNone && ((s.cx? t.ctx).bind (·.task? t.task)).any (fun x => x.st == .saving) then
      s.updTh k fun t => { t with halt := true } else s
  | none => s

/-! ### Interrupts (R286, R306) -/

/-- The thread in focus stands at an issue boundary in task mode, with a handler, and no step armed. -/
def Thread.canTake (t : Thread) : Bool :=
  !t.exited && t.eddy.isNone && !t.handler && t.tvec != 0 && !t.tstep && t.busy = 0 &&
  match t.wait with | some (.value _) => false | _ => true

/-- The PC of the instruction that has not yet issued; of a parked idle, the one after it (R279, R307). -/
def Thread.irqPc (t : Thread) : Word := match t.wait with | some (.event true) => nextPc t.pc false | _ => t.pc

def irqHeat : Word := 0x8000000000000001
def irqWarrant : Word := 0x8000000000000002

/-- A thread that stopped at a phint and was resumed stands after it (R288): the hint retires before an interrupt is taken. -/
def State.pastHint (s : State) : State :=
  match s.th.wait with
  | some (.hint _) => ({ s with iss := {} }).retire
  | _ => s

/-- A notice word with the µs that are left before hardware acts (R286). -/
def State.noticeNow (s : State) (w : Word) : Word :=
  (w &&& ~~~0xFFFFFFFF0000#64) ||| BitVec.ofNat 64 ((s.bd.due - s.iod) % 2 ^ 32 * 2 ^ 16)

def State.takeHeat (s : State) : State :=
  match s.bd.irq.map s.noticeNow with
  | some w => if s.th.canTake && !(s.halted s.th) then
      let s := ({ s with bd := { s.bd with irq := none } }.record 7 w.toNat []).pastHint
      s.takeTrap irqHeat w s.th.irqPc false false
    else s
  | none => s

def State.takeWarrant (s : State) : State :=
  match s.th.irqs with
  | w :: r => if s.th.canTake && !(s.halted s.th) then
      let s := { s with th := { s.th with irqs := r } }.pastHint
      s.takeTrap irqWarrant w s.th.irqPc false false
    else s
  | [] => s

/-- An interrupt is held that the thread in focus can take. -/
def State.irqDue (s : State) : Bool := s.th.canTake && (s.bd.irq.isSome || !s.th.irqs.isEmpty)

/-- Takes a held interrupt: the heat notice before a warrant event (log 17). -/
def State.takeIrq (s : State) : State := if s.bd.irq.isSome then s.takeHeat else s.takeWarrant

/-- Brings a thread into focus and acts; nothing where no such thread exists. -/
def State.withThread (k : TKey) (f : State → State) (s : State) : State := if (s.thread? k).isSome then f (s.focus k) else s

def execHeatNoticeInterrupt (core ctx thr : Nat) (s : State) : Out1 := .next (s.withThread ⟨core, ctx, thr⟩ State.takeHeat)
def execWarrantEventInterrupt (core ctx thr : Nat) (s : State) : Out1 := .next (s.withThread ⟨core, ctx, thr⟩ State.takeWarrant)

/-! ### Heat (R287) -/

def State.noticeOut (s : State) : Bool := s.bd.notice != 0 && !(s.bd.notice.getLsbD 63)

def execHeatAck (s : State) : Out1 := s.finish (do
  let s ← s.beginSys 0xC5 none [] []
  .ok (if s.noticeOut then { s with bd := { s.bd with
    notice := s.bd.notice ||| 0x8000000000000000
    irq := s.bd.irq.map (· ||| 0x8000000000000000) } } else s))

def execHeatCap (a : SSrc) (s : State) : Out1 := s.finish (do
  let s ← s.beginSys 0xC5 none [] [a.spec]
  let n := (s.n64 a).toNat
  if 1 ≤ n ∧ n ≤ 8 then .ok { s with bd := { s.bd with cap := n } } else trap 0x17 0)

def execHeatUncap (s : State) : Out1 := s.finish (do
  let s ← s.beginSys 0xC5 none [] []
  .ok { s with bd := { s.bd with cap := 8 } })

def execHnote (d : SDst) (s : State) : Out1 := s.finish (do
  let s ← s.beginSys 0xD6 none [d.spec] []
  .ok (s.put d (s.noticeNow s.bd.notice)))

/-! ### Pre-emption hints (R288 to R290) -/

/-- A reserved byte or bit of Table 8-4 is set. -/
def hintBad (l : List Byte) : Bool :=
  fieldAt l 6 1 % 2 != 0 || 16 ≤ fieldAt l 7 1 || (l.drop 48).any (· != 0) ||
  (List.range 8).any fun i => fieldAt l (16 + 4 * i) 4 &&& 0x7C00FC00 != 0

/-- The descriptor line of a phint.pt, with its checks (R289). -/
def State.hintLine (s : State) (a : Word) : Except Stop (List Byte) :=
  match s.lineAt a with
  | none => trapW 1 a
  | some pa =>
    let l := lineOf s.mem pa
    let b := s.mem.bytes pa 60
    if !l.lwpOk then trapW 0x11 a
    else if l.pair != 15 || l.word.toNat / 2 ^ 10 % 32 != 0 || hintBad b then trapW 0x62 a
    else .ok b

def execPhintPt (off : W32) (s : State) : Out1 := s.finish (do
  let s ← s.beginSys 0xC4 none [] []
  match s.th.wait with
  | some (.hint _) => .ok s
  | _ => do
    let b ← s.hintLine (((s.th.pc >>> 6) + off.signExtend 64) <<< 6)
    if s.swapAsked && !s.th.handler then .ok (s.park (.hint b)) else .ok s)

def execPhintTest (d : Fin 8) (s : State) : Out1 := s.finish (do
  let s ← s.beginSys 0xC4 none [specOf 0xB8 d] []
  .ok (s.setP d s.swapAsked))

/-! ### Save records (R305) -/

def pad64 (l : List Byte) : List Byte := l ++ List.replicate ((64 - l.length % 64) % 64) 0

/-- The bytes of one class of the save record. -/
def State.saveClass (s : State) (k : Nat) : List Byte :=
  let t := s.th
  let w (v : Word) : List Byte := leBytes v.toNat 8
  match k with
  | 0 => ((List.finRange 32).flatMap fun n => w (t.regW n).val) ++ w t.wsp
  | 1 => w (t.wbase.setWidth 64) ++ leBytes t.wvalid 8 ++
      (List.range t.wvalid).flatMap fun j => w t.w[stackIx (t.wbase - BitVec.ofNat 8 t.wvalid) j].val
  | 2 => (List.finRange 8).flatMap fun n => w t.g[n].val
  | 3 => (List.finRange 32).flatMap fun n => leBytes t.v[n].toNat 96
  | 4 => (List.finRange 32).flatMap fun n => leBytes (t.v[32 + n.val]'(by omega)).toNat 96
  | 5 => ((List.finRange 8).flatMap fun n => leBytes t.m[n].toNat 12) ++
      leBytes ((List.finRange 8).foldl (fun x n => x + if t.pred n then 2 ^ n.val else 0) 0) 1
  | 6 => w (t.lc[0].setWidth 64) ++ w (t.lc[1].setWidth 64) ++ w t.lbeg[0] ++ w t.lend[0] ++ w t.lbeg[1] ++ w t.lend[1]
  | 7 => w (t.flags.setWidth 64) ++ w t.tvec ++ w t.tscratch ++ w t.tepc ++ w t.tcause ++ w t.tval ++ w s.tstat
  | _ => []

/-- The size of a class, unpadded, for a number of resident entries. -/
def classSize (wvalid : Nat) : Nat → Nat
  | 0 => 264 | 1 => 16 + 8 * wvalid | 2 => 64 | 3 => 3072 | 4 => 3072 | 5 => 97 | 6 => 48 | 7 => 56 | _ => 0

def classesOf (mask : Nat) : List Nat := (List.range 8).filter fun k => mask.testBit k

/-- The offset of a class in a record, or the record's size for k = 8. -/
def classOff (wvalid mask k : Nat) : Nat :=
  64 + (((classesOf mask).filter (· < k)).map fun c => (classSize wvalid c + 63) / 64 * 64).sum

def State.saveRecord (s : State) (mask : Nat) : List Byte :=
  leBytes mask 8 ++ leBytes (classOff s.th.wvalid mask 8) 8 ++ leBytes s.bd.ccount.toNat 8 ++ List.replicate 40 0 ++
  (classesOf mask).flatMap fun k => pad64 (s.saveClass k)

/-- A register of the classes in the mask is pending (R44). -/
def Thread.savePending (t : Thread) (mask : Nat) : Bool :=
  (mask.testBit 0 && (List.finRange 32).any fun n => (t.regW n).fut.isSome) ||
  (mask.testBit 1 && (List.range t.wvalid).any fun j => t.w[stackIx (t.wbase - BitVec.ofNat 8 t.wvalid) j].fut.isSome) ||
  (mask.testBit 2 && (List.finRange 8).any fun n => t.g[n].fut.isSome)

/-- The places of n bytes, up to the first that cannot be accessed. -/
def State.byteSpots (s : State) (va : Word) (wr : Bool) : Nat → List Spot × Option Stop
  | 0 => ([], none)
  | n + 1 => match s.spot va.toNat wr with
    | .error e => ([], some e)
    | .ok p => let r := s.byteSpots (va + 1) wr n; (p :: r.1, r.2)

def Stop.isTrap : Stop → Bool
  | .trap _ _ => true
  | _ => false

def State.saveOk (s : State) (mask : Word) : Except Stop Unit :=
  if mask.getLsbD 4 && !s.hasUpper then trap 3 0x60 else .ok ()

def execSvsave (d : FDst) (a b : SSrc) (s : State) : Out1 := s.finish (do
  let s ← s.beginSysF 0xD0 (some true) d [a.spec, b.spec]
  addrs [s.n64 a]
  let m := (s.n64 b).toNat
  if 256 ≤ m then .ok (s.doneNow d 0x20)
  else do
    s.saveOk (s.n64 b)
    if s.th.savePending m then blockE
    else do
      let s := if m.testBit 4 then s.wakeRegs [0x60] else s
      let bytes := s.saveRecord m
      s.scoreboard (s.n64 a).toNat bytes.length
      let ps := s.byteSpots (s.n64 a) true bytes.length
      match ps.2 with
      | some e => if e.isTrap then .ok () else .error e
      | none => .ok ()
      let cells := (ps.1.zip bytes).map fun x => (x.1.pa, x.2, (0xFF : Byte))
      let win := match ps.1 with | p :: _ => p.win | [] => false
      let s := if cells.isEmpty then s else s.store win cells false .core none
      let s := s.noteWrite ((ps.1.filter fun p => !p.win).map (·.va))
      .ok (s.doneNow d (if ps.2.isSome then 4 else 0)))

/-- The bytes of a range, or none where some byte cannot be read; poison traps (R483). -/
def State.loadBytes (s : State) (va : Word) (n : Nat) : Except Stop (Option (List Byte × List Spot)) := do
  s.scoreboard va.toNat n
  let ps := s.byteSpots va false n
  match ps.2 with
  | some e => if e.isTrap then .ok none else .error e
  | none => match ps.1.find? fun p => s.poisonAt p 1 with
    | some p => trap 1 p.va
    | none => .ok (some (ps.1.flatMap fun p => s.readAt p 1, ps.1))

/-- Writes the registers of one class from a record; a restored register is not pending. -/
def Thread.loadClass (t : Thread) (r : List Byte) (o k : Nat) : Thread :=
  let w (i : Nat) : Word := BitVec.ofNat 64 (fieldAt r (o + 8 * i) 8)
  match k with
  | 0 => { (List.finRange 32).foldl (fun t n => t.setW n (w n.val)) t with wsp := w 32 &&& ~~~7#64 }
  | 1 =>
    let t := { t with wbase := (w 0).setWidth 8, wvalid := (w 1).toNat }
    (List.range t.wvalid).foldl (fun t j =>
      { t with w := t.w.set (stackIx (t.wbase - BitVec.ofNat 8 t.wvalid) j) { val := w (2 + j) } }) t
  | 2 => (List.finRange 8).foldl (fun t n => t.setG n (w n.val)) t
  | 3 => (List.finRange 32).foldl (fun t (n : Fin 32) => { t with v := t.v.set n.val (BitVec.ofNat 768 (fieldAt r (o + 96 * n.val) 96)) }) t
  | 4 => (List.finRange 32).foldl (fun t (n : Fin 32) =>
      { t with v := t.v.set (32 + n.val) (BitVec.ofNat 768 (fieldAt r (o + 96 * n.val) 96)) (by omega) }) t
  | 5 =>
    let t := (List.finRange 8).foldl (fun t n => { t with m := t.m.set n (BitVec.ofNat 96 (fieldAt r (o + 12 * n.val) 12)) }) t
    { t with p := Vector.ofFn fun n : Fin 8 => n != 0 && (fieldAt r (o + 96) 1).testBit n.val }
  | 6 => { t with lc := #v[(w 0).setWidth 32, (w 1).setWidth 32], lbeg := #v[w 2, w 4], lend := #v[w 3, w 5] }
  | 7 => { t with
      flags := (w 0).setWidth 8, tvec := w 1, tscratch := w 2, tepc := w 3, tcause := w 4 &&& 0x800000000000FFFF, tval := w 5
      tpair := (w 6).getLsbD 0, tmem := (w 6).getLsbD 1, tstep := (w 6).getLsbD 3 }
  | _ => t

/-- The classes in the order they are restored: the window base before the window's registers. -/
def loadOrder (mask : Nat) : List Nat := ([1, 0, 2, 3, 4, 5, 6, 7] : List Nat).filter fun k => mask.testBit k

def execSvload (d : FDst) (a b : SSrc) (s : State) : Out1 := s.finish (do
  let s ← s.beginSysF 0xD1 (some true) d [a.spec, b.spec]
  addrs [s.n64 a]
  let m := (s.n64 b).toNat
  if 256 ≤ m then .ok (s.doneNow d 0x20)
  else do
    s.saveOk (s.n64 b)
    match ← s.loadBytes (s.n64 a) 64 with
    | none => .ok (s.doneNow d 4)
    | some h => do
      let o := classOff 0 m 1
      let wv ← (if m.testBit 1 then do
          match ← s.loadBytes (s.n64 a + BitVec.ofNat 64 o) 16 with
          | none => .ok none
          | some x => .ok (some (fieldAt x.1 8 8))
        else .ok (some 0))
      match wv with
      | none => .ok (s.doneNow d 4)
      | some v =>
        let size := classOff v m 8
        if fieldAt h.1 0 8 != m || 224 < v || fieldAt h.1 8 8 != size then .ok (s.doneNow d 0x20)
        else match ← s.loadBytes (s.n64 a) size with
          | none => .ok (s.doneNow d 4)
          | some r =>
            let s := r.2.foldl (fun s p => s.noteRead p 1) s
            let s := if m.testBit 4 then s.wakeRegs [0x60] else s
            let t := (loadOrder m).foldl (fun t k => t.loadClass r.1 (classOff v m k) k) s.th
            .ok ({ s with th := t }.doneNow d 0))

def execSvsize (d : SDst) (a : SSrc) (s : State) : Out1 := s.finish (do
  let s ← s.beginSys 0xD2 none [d.spec] [a.spec]
  .ok (s.put d (BitVec.ofNat 64 (classOff s.th.wvalid (s.n64 a).toNat 8))))

/-! ### Marks and idling (R307) -/

def execCmark (d : SDst) (a : SSrc) (s : State) : Out1 := s.finish (do
  let s ← s.beginSys 0xD5 none [d.spec] [a.spec]
  let v := s.i64 a
  .ok ((s.put d s.bd.ccount).record 6 v.toNat (leBytes s.bd.ccount.toNat 8)))

/-- Waits for the event latch, and clears it (R266). -/
def State.awaitEvent (idle : Bool) (s : State) : State :=
  if s.th.latch then { s with th := { s.th with latch := false } } else s.park (.event idle)

def execIdle (s : State) : Out1 := s.finish (do
  let s ← s.beginSys 0xD7 none [] []
  .ok (s.awaitEvent true))

end Sys2Proof.Machine
end

