-- ==== Sys2Proof/Machine/Copy.lean ====
section
/-! DEFINITION. Ring handles (R240 to R247), copy commands (R231 to R236), the copy engine (R408, R409) and the combining node
(R415 to R417). -/
namespace Sys2Proof.Machine
open Sys2Proof

/-! ### Rings -/

/-- A ring as a handle reaches it: its owner's thread and handle, the owner's record, and whether the handle is a view. -/
structure RingRef where
  thr : Nat
  k : Nat
  off : Nat
  lines : Nat
  n : Nat
  fill : Nat
  drain : Nat
  peer : Option (Nat × Nat)
  view : Bool
  deriving DecidableEq, Repr

def Thread.ring (t : Thread) (k : Nat) : Ring := (t.k.toList[k]?).getD .none

/-- The ring behind handle k of a thread of the core and context; a view holds only while its owner's ring names it as its peer. -/
def State.ringOf (s : State) (core ctx thr k : Nat) : Option RingRef :=
  match (s.thread? ⟨core, ctx, thr⟩).map fun t : Thread => t.ring k with
  | some (.own off lines n fill drain peer) => some ⟨thr, k, off, lines, n, fill, drain, peer, false⟩
  | some (.view o h) =>
    match (s.thread? ⟨core, ctx, o⟩).map fun t : Thread => t.ring h with
    | some (.own off lines n fill drain peer) =>
      if peer = some (thr, k) then some ⟨o, h, off, lines, n, fill, drain, peer, true⟩ else none
    | _ => none
  | _ => none

/-- Slots filled (R242). -/
def RingRef.filled (r : RingRef) : Nat := (r.fill + 2 * r.n - r.drain) % (2 * r.n)

def Thread.setRing (k : Nat) (r : Ring) (t : Thread) : Thread := { t with k := Vector.ofFn fun i : Fin 16 => if i.val = k then r else t.k[i] }

/-- Writes a ring's pointers, and sets the latch of every holder other than the party that changed them (R266). -/
def State.moveRing (core ctx : Nat) (r : RingRef) (fill drain : Nat) (by_ : Option Nat) (s : State) : State :=
  let s := s.updTh ⟨core, ctx, r.thr⟩ (Thread.setRing r.k (.own r.off r.lines r.n fill drain r.peer))
  let holders := r.thr :: (match r.peer with | some (p, _) => [p] | none => [])
  (holders.filter fun h => some h != by_).foldl (fun s h => s.updTh ⟨core, ctx, h⟩ fun t => { t with latch := true }) s

/-- The ring trap: handle and reason (Table 7-12). -/
def ringTrap {α : Type} (k : Fin 16) (reason : Nat) : Except Stop α := trap 0x50 (k.val + 256 * reason)

/-- A cpy.ring that names a ring has not completed (R245, R246). -/
def State.ringBusy (s : State) (core ctx : Nat) (r : RingRef) : Bool :=
  (s.bind? core ctx).any fun b => b.copies.any fun c => match c.op with
    | .ring k _ _ => match s.ringOf core ctx c.thr k with
      | some x => decide (x.thr = r.thr) && decide (x.k = r.k)
      | none => false
    | _ => false

/-- The ring of a handle of the thread in focus, or the trap of an uninitialised handle or ended view. -/
def State.myRing (s : State) (k : Fin 16) : Except Stop RingRef :=
  match s.ringOf s.th.core s.th.ctx s.th.slot k.val with
  | some r => .ok r
  | none => ringTrap k 1

/-- kfree's effect: the ring with its view, or the view alone, ends (R244, R245). -/
def State.freeRing (k : Fin 16) (s : State) : State :=
  match s.ringOf s.th.core s.th.ctx s.th.slot k.val with
  | some r =>
    let s := if r.view then
        s.updTh ⟨s.th.core, s.th.ctx, r.thr⟩ (Thread.setRing r.k (.own r.off r.lines r.n r.fill r.drain none))
      else s
    { s with th := s.th.setRing k.val .none }
  | none => { s with th := s.th.setRing k.val .none }

/-- kfree waits until every command that names the ring has completed. -/
def State.freeReady (s : State) (k : Fin 16) : Except Stop Unit :=
  match s.ringOf s.th.core s.th.ctx s.th.slot k.val with
  | some r => if s.ringBusy s.th.core s.th.ctx r then blockE else .ok ()
  | none => .ok ()

def kSpec (k : Fin 16) : BitVec 8 := specOf 0x90 k

/-- What every ring instruction begins with. -/
def State.beginRing (s : State) (op : Nat) (wr : Bool) (k : Fin 16) (ds ss : List (BitVec 8)) : Except Stop State := do
  s.present (ds.map (fun d => (true, d)) ++ [(wr, kSpec k)] ++ ss.map fun a => (false, a))
  s.noEddy op
  s.begin ds ss

def execKinitOwn (k : Fin 16) (a b : SSrc) (s : State) : Out1 := s.finish (do
  let s ← s.beginRing 0x9A true k [] [a.spec, b.spec]
  let off := (s.n64 a).toNat
  let v := (s.n64 b).toNat
  let lines := v % 128
  let n := v / 2 ^ 16 % 512
  if v != lines + n * 2 ^ 16 || off % 512 != 0 || lines < 1 || 64 < lines || n < 2 || 256 < n ||
      s.bd.winSize < off + lines * n * 512 then ringTrap k 2
  s.freeReady k
  let s := s.freeRing k
  .ok { s with th := s.th.setRing k.val (.own off lines n 0 0 none) })

def execKinitPeer (k : Fin 16) (a b : SSrc) (s : State) : Out1 := s.finish (do
  let s ← s.beginRing 0x9A true k [] [a.spec, b.spec]
  let o := (s.n64 a).toNat
  let h := (s.n64 b).toNat
  if o = s.th.slot || 7 < o || 15 < h || (s.thread? ⟨s.th.core, s.th.ctx, o⟩).all fun t => t.task != s.th.task then ringTrap k 1
  match s.ringOf s.th.core s.th.ctx o h with
  | some r =>
    if r.view || r.peer.isSome then ringTrap k 1
    else do
      s.freeReady k
      let s := s.freeRing k
      let s := s.updTh ⟨s.th.core, s.th.ctx, o⟩ (Thread.setRing h (.own r.off r.lines r.n r.fill r.drain (some (s.th.slot, k.val))))
      .ok { s with th := s.th.setRing k.val (.view o h) }
  | none => ringTrap k 1)

/-- A use of a ring on the producer's or the consumer's side, with its count (R242, R244). -/
def State.useRing (s : State) (k : Fin 16) (producer : Bool) (n : Nat) : Except Stop RingRef := do
  let r ← s.myRing k
  if r.peer.isSome && r.view != producer then ringTrap k 5
  if n = 0 || r.n < n then ringTrap k 3
  .ok r

def State.moveMine (r : RingRef) (fill drain : Nat) (s : State) : State :=
  s.moveRing s.th.core s.th.ctx r fill drain (some s.th.slot)

def execKwaitFill (d : SDst) (k : Fin 16) (b : SSrc) (s : State) : Out1 := s.finish (do
  let s ← s.beginRing 0x9B false k [d.spec] [b.spec]
  let n := (s.n64 b).toNat
  let r ← s.useRing k false n
  if r.filled < n then waitE
  else .ok (s.put d (BitVec.ofNat 64 (r.off + r.drain % r.n * (r.lines * 512)))))

def execKwaitFree (d : SDst) (k : Fin 16) (b : SSrc) (s : State) : Out1 := s.finish (do
  let s ← s.beginRing 0x9B false k [d.spec] [b.spec]
  let n := (s.n64 b).toNat
  let r ← s.useRing k true n
  if r.n - r.filled < n then waitE
  else .ok (s.put d (BitVec.ofNat 64 (r.off + r.fill % r.n * (r.lines * 512)))))

def execKfree (k : Fin 16) (s : State) : Out1 := s.finish (do
  let s ← s.beginRing 0x9C false k [] []
  s.freeReady k
  .ok (s.freeRing k))

def execKadvFill (k : Fin 16) (b : SSrc) (s : State) : Out1 := s.finish (do
  let s ← s.beginRing 0x9D false k [] [b.spec]
  let n := (s.n64 b).toNat
  let r ← s.useRing k true n
  if s.ringBusy s.th.core s.th.ctx r then ringTrap k 4
  if r.n - r.filled < n then ringTrap k 6
  .ok (s.flush.moveMine r ((r.fill + n) % (2 * r.n)) r.drain))

def execKadvDrain (k : Fin 16) (b : SSrc) (s : State) : Out1 := s.finish (do
  let s ← s.beginRing 0x9D false k [] [b.spec]
  let n := (s.n64 b).toNat
  let r ← s.useRing k false n
  if r.filled < n then ringTrap k 6
  .ok (s.moveMine r r.fill ((r.drain + n) % (2 * r.n))))

/-! ### Issue of a copy -/

/-- A scoreboard range, rounded outward to 64 bytes (R313). -/
def extent (tag a n : Nat) : Rng := ⟨a / 64 * 64, (a + n - 1) / 64 * 64 + 63, tag⟩

/-- The least and the end address of `rows` rows of `rb` bytes, `pitch` apart. -/
def span2d (a : Nat) (pitch : Int) (rb rows : Nat) : Nat × Nat :=
  let last : Int := a + pitch * ((rows : Int) - 1)
  ((min (a : Int) last).toNat, (max (a : Int) last).toNat + rb - (min (a : Int) last).toNat)

/-- The ranges a command enters at issue, as address and length (R234). -/
def CopyOp.extents : CopyOp → List (Nat × Nat)
  | .mem d a n => [(d, n), (a, n)]
  | .ring .. => []
  | .into d a p rb rows => [(d, rb * rows), span2d a p rb rows]
  | .out d a p rb rows => [span2d d p rb rows, (a, rb * rows)]
  | .gath d _ i e n => [(d, n * 2 ^ e), (i, 4 * n)]
  | .scat _ a i e n => [(a, n * 2 ^ e), (i, 4 * n)]
  | .fill d _ w n => [(d, n * 2 ^ w)]

/-- The bytes a command moves. -/
def CopyOp.size : CopyOp → Nat
  | .mem _ _ n => n
  | .ring _ _ n => n
  | .into _ _ _ rb rows | .out _ _ _ rb rows => rb * rows
  | .gath _ _ _ e n | .scat _ _ _ e n => n * 2 ^ e
  | .fill _ _ w n => n * 2 ^ w

/-- The command trap: op and field position (Table 7-12). -/
def cmdTrap {α : Type} (op field : Nat) : Except Stop α := trap 0x55 (256 * op + field)

/-- Enters ranges in the scoreboard of the thread in focus; waits while too few of its 16 are free. -/
def State.enterRanges (tag : Nat) (l : List (Nat × Nat)) (s : State) : Except Stop State :=
  if 16 < s.th.rngs.length + l.length then blockE
  else .ok { s with th := { s.th with rngs := s.th.rngs ++ l.map fun x => extent tag x.1 x.2 } }

/-- What an asynchronous command begins with: presence, no eddy, and its sources; its destination is not waited for (R43). -/
def State.beginCmd (s : State) (op : Nat) (d : FDst) (ss : List (BitVec 8)) : Except Stop State := do
  s.present ((true, d.spec) :: ss.map fun a => (false, a))
  s.noEddy op
  s.begin [] ss

/-- The commands that wait in the copy queue: copies not begun, and handler reads whose requests are not sent (R233, R408). -/
def Bind.copyWaiting (b : Bind) : Nat :=
  (b.copies.filter fun c => !c.begun && !c.ended).length + (b.reads.filter fun r => !r.asked).length

/-- Forks a copy: its place in the queue, its ranges, its future (R229, R233, R234). -/
def State.forkCopy (op : CopyOp) (comb : Bool) (sc : Scope) (d : FDst) (s : State) : Except Stop State := do
  if op.size = 0 then .ok (s.doneNow d 0)
  else if 2 ≤ s.bd.copyWaiting || !(s.poolGrant s.bd 0) then blockE
  else do
    let s ← s.enterRanges s.nextTag op.extents
    let f := s.flush.fork d
    .ok { f.2 with bd := { f.2.bd with copies := f.2.bd.copies ++ [{ tag := f.1, thr := s.th.slot, op, sc, comb }] } }

def execCpyMem (comb : Bool) (sc : Scope) (d : FDst) (a b c : SReg) (s : State) : Out1 := s.finish (do
  let s ← s.beginCmd 0x90 d [a.spec, b.spec, c.spec]
  addrs [s.sreg a, s.sreg b]
  let n := (s.sreg c).toNat
  if comb && !(isWin (s.sreg a).toNat) then cmdTrap 0x90 1
  if 2 ^ 40 < n then cmdTrap 0x90 3
  s.forkCopy (.mem (s.sreg a).toNat (s.sreg b).toNat n) comb sc d)

def execCpyRing (sc : Scope) (d : FDst) (k : Fin 16) (b c : SReg) (s : State) : Out1 := s.finish (do
  s.present [(true, d.spec), (false, kSpec k), (false, b.spec), (false, c.spec)]
  s.noEddy 0x90
  let s ← s.begin [] [b.spec, c.spec]
  let r ← s.myRing k
  if r.peer.isSome && !r.view then ringTrap k 5
  addrs [s.sreg b]
  let n := (s.sreg c).toNat
  if n = 0 || r.lines * 512 < n then cmdTrap 0x90 3
  s.forkCopy (.ring k.val (s.sreg b).toNat n) false sc d)

def execCpy2d (out comb : Bool) (sc : Scope) (rb1 : BitVec 20) (rows1 : BitVec 16) (d : FDst) (a b c : SReg) (s : State) : Out1 :=
  s.finish (do
    let s ← s.beginCmd 0x91 d [a.spec, b.spec, c.spec]
    addrs [s.sreg a, s.sreg b]
    if comb && !(isWin (s.sreg a).toNat) then cmdTrap 0x91 1
    let x := (s.sreg a).toNat
    let y := (s.sreg b).toNat
    let p := (s.sreg c).toInt
    s.forkCopy (if out then .out x y p (rb1.toNat + 1) (rows1.toNat + 1) else .into x y p (rb1.toNat + 1) (rows1.toNat + 1)) comb sc d)

def execCpyg (sc : Scope) (e : Fin 10) (n1 : BitVec 16) (d : FDst) (a b c : SReg) (s : State) : Out1 := s.finish (do
  let s ← s.beginCmd 0x92 d [a.spec, b.spec, c.spec]
  addrs [s.sreg a, s.sreg b, s.sreg c]
  s.forkCopy (.gath (s.sreg a).toNat (s.sreg b).toNat (s.sreg c).toNat e.val (n1.toNat + 1)) false sc d)

def execCpys (sc : Scope) (e : Fin 10) (n1 : BitVec 16) (d : FDst) (a b c : SReg) (s : State) : Out1 := s.finish (do
  let s ← s.beginCmd 0x93 d [a.spec, b.spec, c.spec]
  addrs [s.sreg a, s.sreg b, s.sreg c]
  s.forkCopy (.scat (s.sreg a).toNat (s.sreg b).toNat (s.sreg c).toNat e.val (n1.toNat + 1)) false sc d)

def execCpyf (sc : Scope) (w : Fin 4) (d : FDst) (a b c : SReg) (s : State) : Out1 := s.finish (do
  let s ← s.beginCmd 0x94 d [a.spec, b.spec, c.spec]
  addrs [s.sreg a]
  let n := (s.sreg c).toNat
  if 2 ^ 37 < n then cmdTrap 0x94 3
  s.forkCopy (.fill (s.sreg a).toNat (s.sreg b) w.val n) false sc d)

/-! ### The transfer -/

/-- A run of bytes of a command: destination, source (an address, or the bytes themselves), and length. -/
structure Seg where
  dst : Nat
  src : Nat ⊕ List Byte
  len : Nat
  deriving DecidableEq, Repr

/-- Addresses are reckoned modulo 2^64. -/
def va64 (x : Int) : Nat := (x % 2 ^ 64).toNat

/-- The longest run from byte `pos` of a command on; `claim` is the ring slot's window offset, `idx` the element's index. -/
def CopyOp.seg (op : CopyOp) (claim idx pos : Nat) : Seg :=
  match op with
  | .mem d a n => ⟨va64 (d + pos), .inl (va64 (a + pos)), n - pos⟩
  | .ring _ a n => ⟨winBase + claim + pos, .inl (va64 (a + pos)), n - pos⟩
  | .into d a p rb _ => ⟨va64 (d + pos), .inl (va64 (a + (pos / rb : Nat) * p + (pos % rb : Nat))), rb - pos % rb⟩
  | .out d a p rb _ => ⟨va64 (d + (pos / rb : Nat) * p + (pos % rb : Nat)), .inl (va64 (a + pos)), rb - pos % rb⟩
  | .gath d a _ e _ => ⟨va64 (d + pos), .inl (va64 (a + idx * 2 ^ e + pos % 2 ^ e)), 2 ^ e - pos % 2 ^ e⟩
  | .scat d a _ e _ => ⟨va64 (d + idx * 2 ^ e + pos % 2 ^ e), .inl (va64 (a + pos)), 2 ^ e - pos % 2 ^ e⟩
  | .fill d v w n =>
    let l := min (n * 2 ^ w - pos) 512
    ⟨va64 (d + pos), .inr ((List.range l).map fun i => (v >>> (8 * ((pos + i) % 2 ^ w))).setWidth 8), l⟩

/-- Whether the extents of a cpy.mem overlap (R232). -/
def CopyOp.overlaps : CopyOp → Bool
  | .mem d a n => decide (a < d + n) && decide (d < a + n)
  | _ => false

/-- The destination is written from its start on without a gap. -/
def CopyOp.solid : CopyOp → Bool
  | .mem .. | .ring .. | .into .. | .gath .. | .fill .. => true
  | .out _ _ p rb _ => p = rb
  | .scat .. => false

/-- Rows or elements may share an aligned 8-byte unit of the destination. -/
def CopyOp.shares : CopyOp → Bool
  | .out d _ p rb _ => p != rb && (d % 8 != 0 || rb % 8 != 0 || p % 8 != 0)
  | .scat d _ _ e _ => d % 8 != 0 || e < 3
  | _ => false

/-- How many bytes a transfer moves at once, from a byte whose run is `g` on: up to the next 512 B boundary of the destination, so that no
aligned 8-byte unit is written twice (R232); all that is left, where the extents of a cpy.mem overlap or where rows or elements may share a
unit. -/
def CopyOp.stride (op : CopyOp) (g : Seg) (pos : Nat) : Nat :=
  let left := op.size - pos
  if op.overlaps || op.shares then left
  else if op.solid then min left (512 - g.dst % 512)
  else min g.len (512 - g.dst % 512)

/-- What a transfer found: the bytes with the places they go to and, for those read, the places they come from; and where it must stop. -/
structure Moved where
  dst : List Spot := []
  src : List Spot := []
  bytes : List Byte := []
  stop : Option (Nat × OpStop) := none
  lost : Option Nat := none
  deriving DecidableEq, Repr

/-- The index of the element at `pos` of cpyg and cpys; it is read as the element is reached. -/
def State.copyIndex (s : State) (op : CopyOp) (pos : Nat) : Except (Nat × OpStop ⊕ Nat) Nat :=
  let rd (i e : Nat) : Except (Nat × OpStop ⊕ Nat) Nat :=
    let a := va64 (i + 4 * (pos / 2 ^ e : Nat))
    match s.opBytes a 4 with
    | .error x => .error (.inl x)
    | .ok (ps, b) => if ps.any s.opPoison then .error (.inr a) else .ok (leNat b)
  match op with
  | .gath _ _ i e _ | .scat _ _ i e _ => rd i e
  | _ => .ok 0

/-- Reads and places `n` bytes of a command from byte `pos` on, piece by piece; the first argument bounds the pieces. -/
def State.copyMove (s : State) (op : CopyOp) (claim : Nat) : Nat → Nat → Nat → Moved
  | 0, _, _ => {}
  | f + 1, pos, n =>
    if n = 0 then {}
    else match s.copyIndex op pos with
      | .error (.inl x) => { stop := some x }
      | .error (.inr a) => { lost := some a }
      | .ok i =>
        let g := op.seg claim i pos
        let k := min n g.len
        let w := s.opSpots g.dst true k
        let r : List Spot × Option OpStop := match g.src with | .inl a => s.opSpots a false k | .inr _ => ([], none)
        let bytes := match g.src with | .inl _ => r.1.map s.opByte | .inr l => l.take k
        let m := min w.1.length bytes.length
        let stop := if m = k then none
          else if bytes.length = m && r.2.isSome then r.2.map fun e => ((match g.src with | .inl a => a | .inr _ => 0) + m, e)
          else w.2.map fun e => (g.dst + m, e)
        let x : Moved := { dst := w.1.take m, src := r.1.take m, bytes := bytes.take m, stop }
        if stop.isSome then x
        else
          let y := s.copyMove op claim f (pos + k) (n - k)
          { y with dst := x.dst ++ y.dst, src := x.src ++ y.src, bytes := x.bytes ++ y.bytes }

/-- Sets a command's flags. -/
def CopyCmd.stop (c : CopyCmd) (e : OpStop) : CopyCmd :=
  match e with
  | .fail _ => { c with access := true, ended := true }
  | .wait _ => c

/-- Moves what a transfer found; a page that is not there yet makes it wait with nothing done. -/
def State.copyRun (m : Moved) (c : CopyCmd) (s : State) : CopyCmd × State :=
  match m.stop with
  | some (a, .wait w) => (c, s.opNote a (.wait w))
  | _ =>
    let bad := (m.src.zip m.dst).filter fun x => s.opPoison x.1
    let gated := m.src.any s.gatedAt
    let s1 := (s.opReadNote m.src).opWrite (m.dst.zip m.bytes)
    let s2 := s1.opPoisonAll (bad.map (·.2))
    let s3 := match bad with | x :: _ => s2.mcheck 4 s2.cx.id x.1.pa | [] => s2
    let c := { c with
      pos := c.pos + m.dst.length, error := c.error || !bad.isEmpty || m.lost.isSome, gated := c.gated || gated
      host := c.host || hostAny m.src || hostAny m.dst
      slices := c.slices ||| slicesAt m.dst }
    match m.stop, m.lost with
    | some (a, e), _ => (c.stop e, s3.opNote a e)
    | none, some a => ({ c with ended := true }, s3.mcheck 4 s3.cx.id a)
    | none, none => ({ c with ended := decide (c.op.size ≤ c.pos) }, s3)

/-- The next transfer of a command that has begun. A cancelled one stops at the next 512 B boundary of the destination (R239); one whose
destination has gaps stops at the end of a row or element too (DEDUCED, log 24). -/
def State.copyOn (c : CopyCmd) (s : State) : CopyCmd × State :=
  let claim := c.claim.getD 0
  let g := c.op.seg claim 0 c.pos
  if c.cancelled && (c.pos = 0 || !c.op.solid || g.dst % 512 = 0) then ({ c with ended := true }, s)
  else
    let g := match s.copyIndex c.op c.pos with | .ok i => c.op.seg claim i c.pos | .error _ => g
    let n := c.op.stride g c.pos
    s.copyRun (s.copyMove c.op claim n c.pos n) c

/-! ### The combining node (R415 to R417) -/

def Bind.updCopy (tag : Nat) (f : CopyCmd → CopyCmd) (b : Bind) : Bind :=
  { b with copies := b.copies.map fun c => if c.tag = tag then f c else c }

/-- A copy may be offered to the node: comb, with a source outside the window. -/
def CopyCmd.offered (c : CopyCmd) : Bool :=
  c.comb && match c.op with | .mem _ a _ | .into _ a .. => !(isWin a) | _ => false

/-- The physical row of a logical core, if it stands anywhere. -/
def State.physRow? (s : State) (core : Nat) : Option Nat := (s.phys? core).map (· / 16)

def Group.open_ (g : Group) : Bool := !g.closed

/-- Offers a command to its row's node: the group it joins or opens, or none. -/
def State.offer (core : Nat) (c : CopyCmd) (s : State) : Option Nat × State :=
  match s.physRow? core with
  | none => (none, s)
  | some row =>
    let fits (g : Group) : Bool :=
      g.open_ && decide (g.row = row) && decide (g.ctx = s.bd.ctx) && decide (g.op = c.op) && decide (g.sc = c.sc) &&
      decide (g.members.length < 16) && !(g.members.any fun m => m.1 = core) && g.members.all fun m => m.1 / 16 = core / 16
    match s.groups.find? fits with
    | some g =>
      (some g.id, { s with groups := s.groups.map fun x => if x.id = g.id then { x with members := x.members ++ [(core, c.tag)] } else x })
    | none =>
      if 4 ≤ (s.groups.filter fun g => g.open_ && g.row = row).length then (none, s)
      else
        let t := s.newTag
        (some t.1, { t.2 with groups := t.2.groups ++ [{ id := t.1, row, ctx := s.bd.ctx, op := c.op, sc := c.sc, members := [(core, c.tag)] }] })

/-- Closes a group: its source is read once, as far as it can be read. -/
def State.closeGroup (grp : Nat) (s : State) : State :=
  match s.groups.find? fun g => g.id = grp && g.open_ with
  | none => s
  | some g =>
    let core := (g.members.head?.map (·.1)).getD 0
    let s := s.focusOn core g.ctx
    -- the source bytes of every run, in the order of the destination
    let rec reads (fuel pos : Nat) (s : State) : List Spot × Option (Nat × OpStop) :=
      match fuel with
      | 0 => ([], none)
      | f + 1 =>
        if g.op.size ≤ pos then ([], none)
        else
          let x := g.op.seg 0 0 pos
          match x.src with
          | .inr _ => ([], none)
          | .inl a =>
            match s.opSpots a false x.len with
            | (ps, some e) => (ps, some (a + ps.length, e))
            | (ps, none) => let r := reads f (pos + x.len) s; (ps ++ r.1, r.2)
    let rows := match g.op with | .into _ _ _ _ n => n | _ => 1
    let r := reads rows 0 s
    match r.2 with
    | some (a, .wait w) => s.opNote a (.wait w)
    | _ =>
      let bad := (List.range r.1.length).filter fun i => match r.1[i]? with | some p => s.opPoison p | none => false
      let s1 := s.opReadNote r.1
      let s2 := match r.2 with | some (a, e) => s1.opNote a e | none => s1
      let s3 := if bad.isEmpty then s2 else s2.mcheck 4 g.ctx 0
      { s3 with groups := s3.groups.map fun x => if x.id = grp then
          { x with closed := true, bytes := r.1.map s.opByte, pois := bad, access := r.2.isSome, error := !bad.isEmpty, host := hostAny r.1 }
          else x }

/-- A member's delivery: the common bytes at the common offset of its own window. A cancelled member's stops at the next boundary. -/
def State.deliver (g : Group) (core tag : Nat) (s : State) : State :=
  let s := s.focusOn core g.ctx
  match s.bd.copies.find? fun c => c.tag = tag with
  | none => s
  | some c =>
    let d := match g.op with | .mem d .. | .into d .. => d | _ => 0
    let lim := if c.cancelled then min g.bytes.length ((512 - d % 512) % 512) else g.bytes.length
    let w := s.opSpots d true lim
    let s1 := s.opWrite (w.1.zip g.bytes)
    let s2 := s1.opPoisonAll ((g.pois.filterMap fun i => w.1[i]?))
    { s2 with bd := s2.bd.updCopy tag fun c => { c with
        pos := w.1.length, ended := true, error := g.error, host := g.host
        access := (g.access && lim = g.bytes.length) || w.2.isSome } }

/-- One member of a closed group is served; the group ends with its last. -/
def State.multicastOne (grp : Nat) (s : State) : State :=
  match s.groups.find? fun g => g.id = grp && g.closed with
  | none => s
  | some g =>
    match g.members with
    | [] => { s with groups := s.groups.filter fun x => x.id != grp }
    | (core, tag) :: r =>
      let s := s.deliver g core tag
      { s with groups := (s.groups.map fun x => if x.id = grp then { x with members := r } else x).filter fun x =>
          !(x.closed && x.members.isEmpty) }

def execCombiningGroupClose (_row grp : Nat) (s : State) : Out1 := .next (s.closeGroup grp)
def execMulticast (_row grp : Nat) (s : State) : Out1 := .next (s.multicastOne grp)

/-! ### The engine's moves -/

/-- Copies of the core in transfer. -/
def State.inTransfer (s : State) (core : Nat) : Nat :=
  ((s.binds.filter fun b => b.core = core).flatMap fun b => b.copies.filter fun c => c.begun && !c.ended).length

/-- A ring copy at the head of the queue, every earlier copy having completed, claims its slot, once one is free (R247). -/
def State.ringClaim (c : CopyCmd) (s : State) : CopyCmd × State :=
  match c.op with
  | .ring k a n =>
    match s.ringOf s.bd.core s.bd.ctx c.thr k with
    | none => ({ c with ended := true, access := true }, s)
    | some r =>
      let off := r.off + r.fill % r.n * (r.lines * 512)
      let key : TKey := ⟨s.bd.core, s.bd.ctx, c.thr⟩
      if s.bd.copies.head?.any (fun x : CopyCmd => x.tag != c.tag) || r.n ≤ r.filled || (s.thread? key).any fun t => 14 < t.rngs.length then (c, s)
      else
        ({ c with begun := true, claim := some off },
          s.updTh key fun t => { t with rngs := t.rngs ++ [extent c.tag (winBase + off) n, extent c.tag a n] })
  | _ => (c, s)

/-- A handler read that has reached the head of the copy queue: every copy issued before it has begun. Tags rise in issue order. -/
def Bind.readAtHead (b : Bind) : Option HRead :=
  (b.reads.find? fun r => !r.asked).filter fun r => b.copies.all fun c => c.begun || c.ended || r.tag < c.tag

/-- A swap-out of the task of a bind is requested: its bursts are held, and no copy of it joins a group (R253, R417). -/
def State.saving (s : State) (b : Bind) : Bool := ((s.cx? b.ctx).bind (·.task? b.task)).any fun t => t.st == .saving

/-- A request to save or move a core before a group closes: the member leaves, as one that has not begun (R417). -/
def State.leaveGroups (core ctx : Nat) (s : State) : State :=
  let s := s.focusOn core ctx
  let here (c : CopyCmd) : Bool := c.group.any fun g => s.groups.any fun x => x.id = g && x.open_
  let gone := (s.bd.copies.filter here).map (·.tag)
  { s with
    bd := { s.bd with copies := s.bd.copies.map fun c => if here c then { c with begun := false, group := none } else c }
    groups := (s.groups.map fun g : Group => { g with members := g.members.filter fun m => !(m.1 = core && gone.contains m.2) }).filter fun g =>
      !(g.open_ && g.members.isEmpty) }

/-- The copy engine takes the context's next step: a handler read at the head of the queue sends its requests, or the first copy that has not
ended begins, or moves its next run. -/
def State.copyExec (core ctx : Nat) (s : State) : State :=
  if (s.bind? core ctx).isNone then s
  else
    let s := s.focusOn core ctx
    match s.bd.readAtHead, s.bd.copies.find? fun c => !c.ended with
    | some r, _ => { s with bd := s.bd.updRead r.tag fun r => { r with asked := true } }
    | none, none => s
    | none, some c =>
      let put (x : CopyCmd × State) : State := { x.2 with bd := x.2.bd.updCopy c.tag fun _ => x.1 }
      if c.group.isSome then s
      else if c.begun then put (s.copyOn c)
      else if 4 ≤ s.inTransfer core then s
      else match c.op with
        | .ring .. => put (s.ringClaim c)
        | _ =>
          if c.offered && s.saving s.bd then s
          else if c.offered then
            let o := s.offer core c
            put ({ c with begun := true, group := o.1 }, o.2)
          else put (s.copyOn { c with begun := true })

/-- The claim alone, where the head is a ring copy that waits for a slot. -/
def State.ringClaimAt (core ctx : Nat) (s : State) : State :=
  if (s.bind? core ctx).isNone then s
  else
    let s := s.focusOn core ctx
    match s.bd.copies.find? fun c => !c.ended with
    | some c => match c.op, c.begun with
      | .ring .., false => let x := s.ringClaim c; { x.2 with bd := x.2.bd.updCopy c.tag fun _ => x.1 }
      | _, _ => s
    | none => s

/-- The status of a copy that has ended (R235, R239). -/
def CopyCmd.status (c : CopyCmd) : BitVec 8 :=
  if c.access then 4
  else if c.cancelled && c.pos < c.op.size then 3
  else if c.error then 1 else if c.gated then 5 else 0

/-- The oldest copy completes, if it has ended: its word lands, and a begun ring copy fills its slot (R233, R247). -/
def State.copyComplete (core ctx : Nat) (s : State) : State :=
  if (s.bind? core ctx).isNone then s
  else
    let s := s.focusOn core ctx
    match s.bd.copies with
    | c :: r =>
      if c.ended then
        let s := match c.op, c.claim with
          | .ring k _ _, some _ => match s.ringOf core ctx c.thr k with
            | some x => s.moveRing core ctx x ((x.fill + 1) % (2 * x.n)) x.drain none
            | none => s
          | _, _ => s
        let x := { s with bd := { s.bd with copies := r } }.hostWord c.host (doneWord c.pos c.status)
        x.2.complete c.tag x.1 c.slices
      else s
    | [] => s

def execCopyExecution (core ctx : Nat) (s : State) : Out1 := .next (s.copyExec core ctx)
def execCopyCompletion (core ctx : Nat) (s : State) : Out1 := .next (s.copyComplete core ctx)
def execRingCopySlotClaim (core ctx : Nat) (s : State) : Out1 := .next (s.ringClaimAt core ctx)

end Sys2Proof.Machine
end

