-- ==== Sys2Proof/Machine/Future.lean ====
section
/-! DEFINITION. Future instructions (R237 to R239), handler reads and eddies (R248 to R252, R418 to R421). -/
namespace Sys2Proof.Machine
open Sys2Proof

/-- The future trap: register specifier and reason (Table 7-12). -/
def futTrap {α : Type} (sp : BitVec 8) (reason : Nat) : Except Stop α := trap 0x51 (sp.toNat + 256 * reason)

def execFwait (d : SDst) (a : FReg) (s : State) : Out1 := s.finish (do
  s.present [(true, d.spec), (false, a.spec)]
  s.noEddy 0x95
  if !(s.settled [a.spec]) then waitE
  let s ← s.begin [d.spec] [a.spec]
  .ok (s.put d ((s.src.reg? a.spec).map (·.val) |>.getD 0)))

def execFtest (d : Fin 8) (a : FReg) (s : State) : Out1 := s.finish (do
  s.present [(true, specOf 0xB8 d), (false, a.spec)]
  s.noEddy 0x96
  if s.settled [a.spec] then .ok ((s.joinAll [a.spec]).setP d true) else .ok (s.setP d false))

/-- fpass (R238): the future, or the value with what is left to join, moves; a is left zero. -/
def execFpass (d : FDst) (a : FReg) (s : State) : Out1 := s.finish (do
  s.present [(true, d.spec), (false, a.spec)]
  s.noEddy 0x98
  if !(s.settled [d.spec]) then futTrap d.spec 2
  match s.src.reg? a.spec with
  | none => .ok s
  | some r =>
    let t := s.th.updReg d.spec fun _ => r
    .ok { s with th := t.updReg a.spec fun _ => {} })

/-- The registers of an fany mask, lowest-numbered first, with their specifiers. -/
def fanyRegs (m : Nat) : List (Nat × BitVec 8) := ((List.range 40).filter fun i => m.testBit i).map fun i => (i, BitVec.ofNat 8 i)

def execFany (d : SDst) (a : SSrc) (s : State) : Out1 := s.finish (do
  let s ← s.beginTh 0x99 [d.spec] [a.spec]
  let m := (s.n64 a).toNat
  if m = 0 || 2 ^ 40 ≤ m then futTrap a.spec 1
  match (fanyRegs m).find? fun x => s.settled [x.2] with
  | none => waitE
  | some x => .ok ((s.joinAll [x.2]).put d (BitVec.ofNat 64 x.1)))

/-! ### Cancellation (R239) -/

/-- A copy that fcancel removes: one that has not begun, or whose group has not closed. -/
def State.copyWaits (s : State) (c : CopyCmd) : Bool :=
  !c.ended && (!c.begun || match c.group with | some g => s.groups.any fun x => x.id = g && x.open_ | none => false)

/-- A copy is cancelled: one that waits moves nothing and leaves its group, and completes in its turn (R233); one that has begun stops. -/
def State.cancelCopy (tag : Nat) (s : State) : State :=
  let gone : Bool := s.bd.copies.any fun c => c.tag = tag && s.copyWaits c
  let bd := s.bd.updCopy tag fun c => if c.ended then c else { c with cancelled := true, ended := gone }
  if gone then
    let groups := (s.groups.map fun (g : Group) =>
      { g with members := g.members.filter fun (m : Nat × Nat) => m.2 != tag }).filter fun g => !(g.open_ && g.members.isEmpty)
    { s with groups, bd }
  else { s with bd }

/-- A matrix command that fcancel removes. -/
def MCmd.waits (c : MCmd) : Bool := !c.begun && !c.ended

/-- A matrix command that has not begun does nothing, and completes in its turn (R200). -/
def Engine.cancel (tag : Nat) (e : Engine) : Engine :=
  { e with queue := e.queue.map fun c => if c.tag = tag && c.waits then { c with stop := some 3, ended := true } else c }

def NetCmd.cancel (n : NetCmd) : NetCmd := if n.begun then n else { n with cancelled := true, status := some 3 }

/-- Requests the cancellation of the operation that a tag names. An operation of any other kind is left alone. -/
def State.cancelOp (tag : Nat) (s : State) : State :=
  let sent := s.pkts.any fun p => match p with | .msg m | .refuse m _ => m.tag = some tag | _ => false
  let msg (m : Msg) : Bool := m.tag = some tag && !sent
  let queued := s.bd.sends.any msg || s.th.held.any msg
  let s := s.cancelCopy tag
  let s := { s with
    core := { s.core with eng := s.core.eng.cancel tag }
    bd := { s.bd.updRead tag (fun r => { r with cancelled := true }) with sends := s.bd.sends.filter fun m => !(msg m) }
    th := { s.th with held := s.th.held.filter fun m => !(msg m) } }
  let s := s.updNet tag NetCmd.cancel
  if queued then s.complete tag 3 0 else s

def execFcancel (a : FReg) (s : State) : Out1 := s.finish (do
  s.present [(false, a.spec)]
  s.noEddy 0x97
  match (s.src.reg? a.spec).bind (·.fut) with
  | some tag => .ok (s.cancelOp tag)
  | none => .ok s)

/-! ### Handler reads (R248 to R250) -/

/-- The bursts of a row. -/
def burstsOf (rb : Nat) : Nat := (rb + 191) / 192

def HRead.bursts (r : HRead) : Nat := r.rows * burstsOf r.rb

/-- Burst n of a read: its address, length, and coordinates (R249). -/
def HRead.burst (r : HRead) (n : Nat) : Nat × Nat × Vector Word 4 :=
  let w (x : Nat) : Word := BitVec.ofNat 64 x
  let per := burstsOf r.rb
  let j := n / per
  let i := n % per
  let len := min 192 (r.rb - 192 * i)
  (va64 (r.src + j * r.pitch + 192 * i), len,
    if r.two then #v[w (j * r.rb + 192 * i), w j, w i, w (j * per + i)] else #v[w (192 * n), 0, 0, w n])

/-- The shape of a read, as bytes of a row, rows and pitch; none where c is out of range (R248). -/
def hreadShape (v : HForm) (c : Word) : Option (Nat × Nat × Nat) :=
  match v with
  | .one => if c = 0 || 2 ^ 24 * 192 < c.toNat then none else some (c.toNat, 1, 0)
  | .two p =>
    let rb := c.toNat % 2 ^ 32 + 1
    let rows := c.toNat / 2 ^ 32 % 2 ^ 16 + 1
    if 2 ^ 48 ≤ c.toNat || 2 ^ 24 < rows * burstsOf rb then none else some (rb, rows, p.toNat)

def execHread (v : HForm) (sc : Scope) (d : FDst) (a b c : SReg) (s : State) : Out1 := s.finish (do
  let s ← s.beginCmd 0x9E d [a.spec, b.spec, c.spec]
  match hreadShape v (s.sreg c) with
  | none => cmdTrap 0x9E 3
  | some (rb, rows, pitch) => do
    addrs [s.sreg a]
    s.checkTarget (s.sreg b)
    if 2 ≤ s.bd.copyWaiting || !(s.poolGrant s.bd 0) then blockE
    let r : HRead := { tag := s.nextTag, thr := s.th.slot, src := (s.sreg a).toNat, rb, rows, pitch, two := v != .one,
                       handler := s.sreg b, sc, g := s.src.g }
    let f := s.flush.fork d
    .ok { f.2 with bd := { f.2.bd with reads := f.2.bd.reads ++ [r] } })

/-- Burst n of a read is dealt with. -/
def State.burstGot (tag n : Nat) (f : HRead → HRead) (s : State) : State :=
  { s with bd := s.bd.updRead tag fun r => f { r with delivered := insertNat n r.delivered } }

/-- BURST_DELIVERY: burst n of a read whose requests are sent reaches the eddy queue, if a cell can be had (R250, R418); while the task is out
it is held with what is saved (R253). -/
def State.burstAt (core ctx tag n : Nat) (s : State) : State :=
  s.whereOp core ctx fun out s =>
    match s.bd.reads.find? fun r => r.tag = tag with
    | none => s
    | some r =>
      if !r.asked || r.cancelled || r.bursts ≤ n || r.delivered.contains n || !(out || s.poolGrant s.bd 4) then s
      else
        let x := r.burst n
        match s.opBytes x.1 x.2.1 with
        | .error (a, .wait w) => s.opNote a (.wait w)
        | .error (a, e) => (s.opNote a e).burstGot tag n fun r => { r with access := true }
        | .ok (ps, b) =>
          if ps.any s.opPoison then (s.mcheck 4 ctx x.1).burstGot tag n fun r => { r with error := true }
          else
            let v (o : Nat) : VWord := BitVec.ofNat 768 (leNat (slice b o 96))
            let s1 := (s.opReadNote ps).burstGot tag n fun r => { r with gated := r.gated || ps.any s.gatedAt, host := r.host || hostAny ps }
            { s1 with bd := { s1.bd with bursts := s1.bd.bursts ++ [⟨tag, n, v 0, v 96⟩] } }

/-! ### Eddies (R25, R48, R419) -/

/-- The identity word of a thread (Table 1-5). -/
def Task.tid (t : Task) (core thr : Nat) (eslot : Option Nat) : Word :=
  let e := match eslot with | some e => 2 ^ 28 + e * 2 ^ 29 | none => 0
  BitVec.ofNat 64 (thr + 8 * (t.thr - 1) + 2 ^ 6 * (coreRow core - t.lrow) + 2 ^ 12 * (coreCol core - t.lcol) + 2 ^ 16 * coreRow core +
    2 ^ 22 * coreCol core + 2 ^ 26 * coreDie core + e + 2 ^ 32 * (t.rows - 1) + 2 ^ 38 * (t.cols - 1))

/-- An eddy context of a core that is free: no eddy holds it, and no request of its last eddy is under way. -/
def State.eddyFree (s : State) (core e : Nat) : Bool :=
  !(s.threads.any fun t => t.core = core && t.slot = 8 + e) &&
  !(s.reqs.any fun r => match r.who with | .thr k => decide (k.core = core) && decide (k.slot = 8 + e) | _ => false)

/-- A saved eddy that resumes on the core takes the eddy context first (R422). -/
def State.eddyTaken (s : State) (core e : Nat) : Bool :=
  s.pends.any fun p => p.core = core && p.rec_[0].toNat % 8 = 2 &&
    (s.cx? (p.rec_[0].toNat / 2 ^ 8 % 128)).any fun x => x.saved.any fun v => v.bd.core = core && v.ths.any fun t => t.slot = 8 + e

/-- The eddy contexts that a burst may be born into. -/
def State.freeEddy (s : State) (core : Nat) : List Nat := (List.range 8).filter fun e => s.eddyFree core e && !(s.eddyTaken core e)


/-- The context that is served next: those that hold no eddy context first, in ascending number after the last served. -/
def State.eddyCtx (s : State) (core : Nat) : Option Nat :=
  let last := (s.core? core).lastServed
  let wait := ((s.binds.filter fun b => b.core = core && !b.bursts.isEmpty && !(s.saving b)).map (·.ctx)).mergeSort
  let turn := (wait.filter (last < ·)) ++ wait.filter (· ≤ last)
  let none_ (c : Nat) : Bool := !(s.threads.any fun t => t.core = core && t.ctx = c && 8 ≤ t.slot)
  match turn.filter none_ with
  | c :: _ => some c
  | [] => turn.head?

/-- The eddy born of a burst. -/
def eddyOf (core ctx task e : Nat) (tid : Word) (r : HRead) (b : Burst) : Thread :=
  { core, ctx, slot := 8 + e, task, eddy := some ⟨r.tag, (r.burst b.n).2.2⟩, pc := r.handler, g := r.g
    v := ((Vector.replicate 64 0).set 0 b.v0).set 1 b.v1, tid, started := true }

/-- EDDY_BIRTH. -/
def State.birth (core : Nat) (s : State) : State :=
  match s.freeEddy core, s.eddyCtx core with
  | e :: _, some ctx =>
    let s := s.focusOn core ctx
    match s.bd.bursts with
    | [] => s
    | b :: rest =>
      match s.bd.reads.find? fun r => r.tag = b.tag with
      | none => s
      | some r =>
        let tid := ((s.cx.task? s.bd.task).map fun t => t.tid core r.thr (some e)).getD 0
        let s := { s with
          bd := { s.bd with bursts := rest }.updRead r.tag fun r => { r with live := r.live + 1 }
          core := { s.core with lastServed := ctx } }
        s.addThread (eddyOf core ctx s.bd.task e tid r b)
  | _, _ => s

/-- hret (R252). -/
def execHret (s : State) : Out1 := s.finish (
  match s.th.eddy with
  | none => trap 0x56 0x9F
  | some e => .ok { s with
      bd := s.bd.updRead e.tag fun r => { r with live := r.live - 1, rets := r.rets + 1, slices := r.slices ||| s.th.tsm }
      th := { s.th with exited := true } })

/-- A read's status (R250). -/
def HRead.status (r : HRead) : BitVec 8 :=
  if r.error then 1 else if r.access then 4 else if r.cancelled then 3 else if r.trapped then 0x12 else if r.gated then 5 else 0

/-- Every burst is delivered or discarded, every eddy of the read has ended, and what eddies wrote is performed (R250, R419). -/
def State.readOver (s : State) (r : HRead) : Bool :=
  (r.cancelled || decide (r.bursts ≤ r.delivered.length)) && r.live = 0 && !(s.bd.bursts.any fun b => b.tag = r.tag) &&
  !(s.reqs.any fun q => q.isStore && match q.who with
    | .thr k => decide (k.core = s.bd.core) && decide (k.ctx = s.bd.ctx) && decide (8 ≤ k.slot)
    | _ => false)

/-- LAST_BURST_EVENT: the completion word lands, and the issuing thread's latch is set, with or without a register that waits. -/
def State.lastBurst (core ctx tag : Nat) (s : State) : State :=
  s.whereOp core ctx fun _ s =>
    match s.bd.reads.find? fun r => r.tag = tag with
    | none => s
    | some r =>
      if s.readOver r then
        let x := { s with bd := { s.bd with reads := s.bd.reads.filter fun x => x.tag != tag } }.hostWord r.host
          (doneWord (r.rets * 2 ^ 32 + r.cause * 2 ^ 16) r.status)
        (x.2.complete tag x.1 r.slices).updAny ⟨core, ctx, r.thr⟩ fun t => { t with latch := true }
      else s

def execBurstDelivery (core ctx tag n : Nat) (s : State) : Out1 := .next (s.burstAt core ctx tag n)
def execEddyBirth (core : Nat) (s : State) : Out1 := .next (s.birth core)
def execLastBurstEvent (core ctx tag : Nat) (s : State) : Out1 := .next (s.lastBurst core ctx tag)

end Sys2Proof.Machine
end

