-- ==== Sys2Proof/Machine/Message.lean ====
section
/-! DEFINITION. Messages, deposits and the mailbox (R254 to R258, R413, R414, R436). -/
namespace Sys2Proof.Machine
open Sys2Proof

/-! ### The sender's engine -/

/-- A message of the pair is on its way (R436). -/
def State.pairBusy (s : State) (src : TKey) (dst : Word) : Bool :=
  s.pkts.any fun p => match p with | .msg m | .refuse m _ => decide (m.src = src) && decide (m.dst = dst) | _ => false

/-- Commands of a core's message engine in flight: messages on their way, gangs, and network commands that have begun (R409). -/
def State.inFlight (s : State) (core : Nat) : Nat :=
  (s.pkts.filter fun p => match p with | .msg m | .refuse m _ => m.src.core = core | _ => false).length +
  (s.threads.filter fun t => t.core = core && match t.gang with | .leader .. => true | _ => false).length +
  (s.nets.filter fun n => n.begun && n.core = core).length

/-- The first message of a hold buffer that mcommit has released. -/
def Thread.committed? (t : Thread) : Option Msg := t.held.find? fun m => !m.held

/-- Released messages of the threads of a core enter the message queue as it has cells for them, in issue order (R257, R391). The first
argument bounds how many. -/
def State.feedSends (core : Nat) : Nat → State → State
  | 0, s => s
  | n + 1, s =>
    let next (t : Thread) : Option (TKey × Msg) :=
      if t.core = core && (s.bind? core t.ctx).any fun b => s.poolGrant b 2 then t.committed?.map fun m => (t.key, m) else none
    match s.threads.findSome? next with
    | none => s
    | some (k, m) =>
      let s := s.updTh k fun t => { t with held := t.held.filter fun x => x.tag != m.tag }
      State.feedSends core n (s.updBd core k.ctx fun b => { b with sends := b.sends ++ [m] })

/-- Sends what may leave: one message for each pair of sender and receiver, eight for a core (R409, R436). -/
def State.pump (core : Nat) (s : State) : State :=
  let s := s.feedSends core 256
  let waiting := (s.binds.filter fun b => b.core = core).flatMap (·.sends)
  waiting.foldl (fun s m => if s.pairBusy m.src m.dst || 8 ≤ s.inFlight core then s else { s with pkts := s.pkts ++ [.msg m] }) s

/-- The fields of a destination word: task, row, column, thread (R254). -/
def dstTask (w : Word) : Nat := w.toNat % 2 ^ 16
def dstRow (w : Word) : Nat := w.toNat / 2 ^ 16 % 64
def dstCol (w : Word) : Nat := w.toNat / 2 ^ 22 % 16
def dstThr (w : Word) : Nat := w.toNat / 2 ^ 26 % 8

def msgTrap {α : Type} (reason : Nat) : Except Stop α := trap 0x53 (256 * reason)

/-- The checks of a destination word. -/
def State.dstOk (s : State) (w : Word) : Except Stop Unit :=
  if w.toNat / 2 ^ 29 != 0 then msgTrap 1
  else match s.cx.task? (dstTask w) with
    | none => msgTrap 2
    | some t => if t.rows ≤ dstRow w || t.cols ≤ dstCol w || t.thr ≤ dstThr w then msgTrap 3 else .ok ()

/-- The message of the thread in focus, under its next sequence number. -/
def State.newMsg (s : State) (tag : Nat) (dst : Word) (greg : Option Nat) (data : VWord) (rel : Bool) (sc : Scope) (held : Bool) : Msg :=
  { dst, src := s.th.key, srcTask := s.th.task, seq := s.th.seq, greg, data, rel, sc, tag := some tag, held }

/-- Forks a send: into the sender's queue, or the hold buffer. -/
def State.send (dst : Word) (greg : Option Nat) (data : VWord) (rel : Bool) (sc : Scope) (held : Bool) (d : FDst) (s : State) :
    Except Stop State := do
  s.dstOk dst
  if !(s.poolGrant s.bd (if held then 5 else 2)) then blockE
  let f := s.flush.fork d
  let m := s.newMsg f.1 dst greg data rel sc held
  let t := { f.2 with th := { f.2.th with seq := f.2.th.seq + 1 } }
  .ok (if held then { t with th := { t.th with held := t.th.held ++ [m] } }
    else ({ t with bd := { t.bd with sends := t.bd.sends ++ [m] } }).pump s.th.core)

def execMsendQ (sc : Scope) (o : Ord) (d : FDst) (a : SReg) (b : Fin 64) (s : State) : Out1 := s.finish (do
  s.present [(true, d.spec), (false, a.spec), (false, specOf 0x40 b)]
  let s ← s.begin [] [a.spec]
  (s.wakeRegs [specOf 0x40 b]).send (s.sreg a) none s.src.v[b] (isRel o) sc false d)

def execMsendDep (sc : Scope) (o : Ord) (g : Fin 8) (d : FDst) (a b : SReg) (s : State) : Out1 := s.finish (do
  s.present [(true, d.spec), (false, a.spec), (false, b.spec)]
  let s ← s.begin [] [a.spec, b.spec]
  s.send (s.sreg a) (some g.val) ((s.sreg b).setWidth 768) (isRel o) sc false d)

def execMsendSpec (sc : Scope) (o : Ord) (d : FDst) (a : SReg) (b : Fin 64) (s : State) : Out1 := s.finish (do
  s.present [(true, d.spec), (false, a.spec), (false, specOf 0x40 b)]
  s.noEddy 0xA0
  let s ← s.begin [] [a.spec]
  (s.wakeRegs [specOf 0x40 b]).send (s.sreg a) none s.src.v[b] (isRel o) sc true d)

/-- mcommit (R257): the held messages are released, and enter the queue in issue order. -/
def execMcommit (s : State) : Out1 := s.finish (do
  s.noEddy 0xA1
  let l := s.th.held.map fun m : Msg => { m with held := false }
  .ok (({ s with th := { s.th with held := l } }).pump s.th.core))

/-- mabort (R257): the messages still held are discarded. -/
def execMabort (s : State) : Out1 := s.finish (do
  s.noEddy 0xA2
  let s' := { s with th := { s.th with held := s.th.held.filter fun m => !m.held } }
  .ok (((s.th.held.filter (·.held)).filterMap (·.tag)).foldl (fun s t => s.complete t 3 0) s'))

/-! ### The receiver (R258) -/

def execMrecvPop (_sc : Scope) (_o : Ord) (d : Fin 64) (s : State) : Out1 := s.finish (do
  s.present [(true, specOf 0x40 d)]
  s.noEddy 0xA3
  match s.th.msgs with
  | [] => waitE
  | m :: r => .ok ((({ s with th := { s.th with msgs := r } }).wakeRegs [specOf 0x40 d]).setV d m.data))

def execMrecvCnt (d : SDst) (s : State) : Out1 := s.finish (do
  let s ← s.beginTh 0xA3 [d.spec] []
  .ok (s.put d (BitVec.ofNat 64 s.th.msgs.length)))

/-! ### Delivery (R255, R256, R436) -/

/-- What a receiver answers: delivered, not now, or a refusal with its reason. -/
inductive Answer where
  | room (k : TKey)
  | full
  | refuse (reason : Nat)
  deriving DecidableEq, Repr

/-- The receiver of a message, as a thread of its task where it is placed. -/
def Task.thread (t : Task) (ctx : Nat) (w : Word) : TKey := ⟨t.core (dstRow w) (dstCol w), ctx, dstThr w⟩

/-- Whether a receiver thread has room for a message: a queue cell, or a g register that holds no future. -/
def State.hasRoom (s : State) (k : TKey) (m : Msg) : Bool :=
  match s.thread? k, m.greg with
  | some t, some g => ((t.g.toList[g]?).map (·.fut.isNone)).getD true
  | some _, none => (s.bind? k.core k.ctx).any fun b => s.poolGrant b 3
  | none, _ => false

/-- The answer to a message; `direct` is false for a mailbox record, which goes before any direct message. -/
def State.answer (s : State) (ctx : Nat) (m : Msg) (direct : Bool) : Answer :=
  match (s.cx? ctx).bind fun x => (x.task? (dstTask m.dst)).map fun t => (x, t) with
  | none => .refuse 3
  | some (x, t) =>
    match t.st with
    | .waiting | .saved => .refuse 1
    | .saving => .refuse 2
    | .done _ => .refuse 3
    | .placed =>
      let k := t.thread ctx m.dst
      if direct && x.mail.any fun r => !r.held && dstTask r.dst = dstTask m.dst then .refuse 1
      else if (s.bind? k.core ctx).isNone then .refuse 1
      else if (s.thread? k).isNone then .refuse 3
      else if s.hasRoom k m then .room k
      else .full

/-- A message or deposit takes effect at its receiver, and sets its event latch. -/
def Thread.receive (m : Msg) (t : Thread) : Thread :=
  match m.greg with
  | some g => { t with g := Vector.ofFn fun i : Fin 8 => if i.val = g then { val := m.data.setWidth 64 } else t.g[i], latch := true }
  | none => { t with msgs := t.msgs ++ [m], latch := true }

/-- The sender's cell is freed, its word lands, and the next message of the pair leaves. -/
def State.sent (m : Msg) (w : Word) (s : State) : State :=
  let keep (b : Bind) : Bind := { b with sends := b.sends.filter fun x => x.tag != m.tag }
  let s := s.mapBinds keep
  let s := s.mapCxs fun x => { x with saved := x.saved.map fun v => { v with bd := keep v.bd } }
  let s := match m.tag with | some t => s.complete t w 0 | none => s
  s.pump m.src.core

/-- A message reaches its receiver. Poisoned data would stand in registers, which carry no mark: the receiver's task ends as R484 gives
(log 48). -/
def State.handOver (t : TKey) (m : Msg) (s : State) : State :=
  if m.pois then (s.mcheck 11 t.ctx t.core).failTask t.ctx (((s.thread? t).map (·.task)).getD 0) 0x44
  else s.updTh t (Thread.receive m)

/-- MESSAGE: the k-th packet arrives at its receiver. -/
def State.messageAt (k : Nat) (s : State) : State :=
  match s.pkts[k]? with
  | some (.msg m) =>
    match s.answer m.src.ctx m true with
    | .room t => (({ s with pkts := s.pkts.eraseIdx k }).handOver t m).sent m 0
    | .full => s
    | .refuse r => { s with pkts := s.pkts.set k (.refuse m r) }
  | _ => s

/-- The mailbox has room for one more record (R414). -/
def Context.mailRoom (x : Context) : Bool := decide (x.use[3] + 128 ≤ x.quota[3])

def Context.mailPut (m : Msg) (x : Context) : Context := { x with mail := x.mail ++ [m], use := x.use.set 3 (x.use[3] + 128) }

/-- The held messages of a thread that is saved are written to the mailbox marked held, always, each charged (R257, R414). -/
def Context.mailHeld (t : Thread) (x : Context) : Context := (t.held.filter (·.held)).foldl (fun x m => x.mailPut m) x

/-- They return to the thread's hold buffer as it resumes, or go with a thread that has ended. -/
def Context.heldOf (k : TKey) (x : Context) : List Msg := x.mail.filter fun m => m.held && m.src = k
def Context.mailDrop (p : Msg → Bool) (x : Context) : Context :=
  { x with mail := x.mail.filter fun m => !(p m), use := x.use.set 3 (x.use[3] - 128 * (x.mail.filter p).length) }

/-- REFUSE: the sender writes the mailbox record, or drops the message. -/
def State.refuseAt (k : Nat) (s : State) : State :=
  match s.pkts[k]? with
  | some (.refuse m r) =>
    let gone := (s.cx? m.src.ctx).all fun x => (x.task? (dstTask m.dst)).all fun t => match t.st with | .done _ => true | _ => false
    if r = 3 || gone then ({ s with pkts := s.pkts.eraseIdx k }).sent m 2
    else if (s.cx? m.src.ctx).any Context.mailRoom then
      (({ s with pkts := s.pkts.eraseIdx k }).updCx m.src.ctx (Context.mailPut m)).sent m (doneWord 1 0)
    else s
  | _ => s

/-- MAILBOX_DELIVERY: the oldest record that can be is delivered, each task's in the order they were written; one whose receiver is gone is
dropped; held records wait for their own thread (R257, R414). -/
def State.mailAt (ctx : Nat) (s : State) : State :=
  match s.cx? ctx with
  | none => s
  | some x =>
    let first (m : Msg) : Bool := decide ((x.mail.find? fun r => !r.held && dstTask r.dst = dstTask m.dst) = some m)
    let ready (m : Msg) : Bool := !m.held && first m && match s.answer ctx m false with | .room _ => true | .refuse r => r = 3 | .full => false
    match pick ready x.mail with
    | none => s
    | some (m, rest) =>
      let done (s : State) : State := s.updCx ctx fun x => { x with mail := rest, use := x.use.set 3 (x.use[3] - 128) }
      match s.answer ctx m false with
      | .room t => (done s).handOver t m
      | .refuse 3 => done s
      | _ => s

def execMessage (k : Nat) (s : State) : Out1 := .next (s.messageAt k)
def execRefuse (k : Nat) (s : State) : Out1 := .next (s.refuseAt k)
def execMailboxDelivery (ctx : Nat) (s : State) : Out1 := .next (s.mailAt ctx)

end Sys2Proof.Machine
end

