-- ==== Sys2Proof/Machine/Barrier.lean ====
section
/-! DEFINITION. Barriers (R262 to R265, R437), and the event latch instructions (R266, R267). -/
namespace Sys2Proof.Machine
open Sys2Proof

def barTrap {α : Type} (n : Fin 4) (reason : Nat) : Except Stop α := trap 0x52 (n.val + 256 * reason)

/-! ### The rectangle (Table 1-2) -/

def rectRow0 (r : BitVec 23) : Nat := r.toNat % 64
def rectCol0 (r : BitVec 23) : Nat := r.toNat / 64 % 16
def rectRows (r : BitVec 23) : Nat := r.toNat / 2 ^ 13 % 64 + 1
def rectCols (r : BitVec 23) : Nat := r.toNat / 2 ^ 19 % 16 + 1

/-- A rectangle lies within a task's. -/
def Task.hasRect (t : Task) (r : BitVec 23) : Bool :=
  decide (t.lrow ≤ rectRow0 r) && decide (rectRow0 r + rectRows r ≤ t.lrow + t.rows) &&
  decide (t.lcol ≤ rectCol0 r) && decide (rectCol0 r + rectCols r ≤ t.lcol + t.cols)

/-- A scope contains a rectangle (R263). -/
def scopeHolds (sc : Scope) (r : BitVec 23) : Bool :=
  match sc with
  | .core => rectRows r = 1 && rectCols r = 1
  | .row => rectRows r = 1
  | _ => true

def rectHas (die : Nat) (r : BitVec 23) (core : Nat) : Bool :=
  decide (coreDie core = die) && decide (rectRow0 r ≤ coreRow core) && decide (coreRow core < rectRow0 r + rectRows r) &&
  decide (rectCol0 r ≤ coreCol core) && decide (coreCol core < rectCol0 r + rectCols r)

def rectCores (die : Nat) (r : BitVec 23) : List Nat :=
  (List.range (rectRows r)).flatMap fun i => (List.range (rectCols r)).map fun j => coreId die (rectRow0 r + i) (rectCol0 r + j)

/-- Where a core sends its arrival: west, or north along the first column; none for the corner. -/
def sweepNext (r : BitVec 23) (core : Nat) : Option Nat :=
  if rectCol0 r < coreCol core then some (core - 1)
  else if rectRow0 r < coreRow core then some (core - 16)
  else none

/-- The cores whose arrivals a core expects: its east neighbour, and in the first column the next row's core. -/
def sweepFrom (r : BitVec 23) (core : Nat) : List Nat :=
  (if coreCol core + 1 < rectCol0 r + rectCols r then [core + 1] else []) ++
  (if coreCol core = rectCol0 r && coreRow core + 1 < rectRow0 r + rectRows r then [core + 16] else [])

/-! ### Arrivals and releases -/

def Core.setBar (n : Fin 4) (b : Bar) (c : Core) : Core := { c with bar := c.bar.set n b }

/-- The threads of a context's task on a core. -/
def State.taskThreads (s : State) (core ctx task : Nat) : List Thread :=
  s.threads.filter fun t => decide (t.core = core) && decide (t.ctx = ctx) && decide (t.task = task) && decide (t.slot < 8)

def Bar.word (b : Bar) : BitVec 25 := BitVec.ofNat 25 (b.phase.toNat * 2 ^ 23 + b.rect.toNat)

/-- A core that carries the task and no thread of it: it arrives of itself (R437). One whose record has not applied yet is none. -/
def State.passive (s : State) (core ctx task : Nat) : Bool := (s.bind? core ctx).isSome && (s.taskThreads core ctx task).isEmpty

/-- A core with no thread of the task has arrived once it holds the arrivals it expects. -/
def State.passiveDone (s : State) (ctx task : Nat) (n : Fin 4) (r : BitVec 23) : Nat → Nat → Bool
  | 0, _ => false
  | f + 1, core =>
    s.passive core ctx task &&
    (sweepFrom r core).all fun e => (s.core? core).bar[n].got.any (fun x => x.1 = e) || s.passiveDone ctx task n r f e

/-- A core holds the arrivals it expects. -/
def State.holdsArrivals (s : State) (ctx task : Nat) (n : Fin 4) (r : BitVec 23) (core : Nat) : Bool :=
  (sweepFrom r core).all fun e => (s.core? core).bar[n].got.any (fun x => x.1 = e) || s.passiveDone ctx task n r 64 e

/-- A thread in its barw is released; every thread of the context on the core has its latch set (R266). -/
def Thread.released (n : Nat) (st : BitVec 8) (t : Thread) : Thread :=
  { t with
    latch := true
    wait := match t.wait with | some (.barrier m none) => if m = n then some (.barrier m (some st)) else t.wait | w => w }

/-- A release takes effect on a core (R264, R265). -/
def State.releaseCore (core ctx : Nat) (n : Fin 4) (st : BitVec 8) (s : State) : State :=
  let b := (s.core? core).bar[n]
  let ph := b.phase + 1
  let s := s.focusCore core
  let s := { s with core := s.core.setBar n { rect := b.rect, phase := ph } }
  let s := s.mapThreads fun t => if t.core = core && t.ctx = ctx then t.released n.val st else t
  b.futs.foldl (fun s f => s.complete f (doneWord ph.toNat st) 0) s

/-- A core is released, and the release goes on along the reverse paths: by a packet to each core beyond, at once through one that has no
thread of the task, whose arrivals it takes with it. -/
def State.releaseFrom (ctx task : Nat) (n : Fin 4) (r : BitVec 23) : Nat → Nat → State → State
  | 0, _, s => s
  | f + 1, core, s =>
    (sweepFrom r core).foldl (fun s e =>
      if s.passive e ctx task then State.releaseFrom ctx task n r f e s
      else { s with pkts := s.pkts ++ [.release ctx e n.val 0 0 core r] }) (s.releaseCore core ctx n 0)

/-- A core of the task has arrived: each of its threads has, or it has none (R263). -/
def State.coreIn (s : State) (ctx task : Nat) (n : Fin 4) (core : Nat) : Bool :=
  (s.bind? core ctx).isSome && (s.taskThreads core ctx task).all fun t => (s.core? core).bar[n].arrived.contains t.slot

/-- The cores that a mismatch releases: those of the core's own rectangle and of the rectangles of the arrivals that differ
(DEDUCED, log 25). -/
def mismatchCores (core : Nat) (b : Bar) : List Nat :=
  (b.rect :: (b.got.filterMap (·.2)).map fun w => w.setWidth 23).flatMap (rectCores (coreDie core))

/-- A mismatch releases the whole rectangle with status 0x15; arrivals under way for it lapse (R264). -/
def State.mismatch (core ctx task : Nat) (n : Fin 4) (all : List Nat) (s : State) : State :=
  let stale (p : Pkt) : Bool := match p with | .arrival c d m _ _ => c = ctx && m = n.val && all.contains d | _ => false
  (all.eraseDups.filter (· != core)).foldl (fun s e =>
    if s.passive e ctx task then s.releaseCore e ctx n 0x15
    else { s with pkts := s.pkts ++ [.release ctx e n.val 0 0x15 core 0] })
    ({ s with pkts := s.pkts.filter fun p => !(stale p) }.releaseCore core ctx n 0x15)

/-- A core that stands at an armed barrier, every one of its threads having arrived (R263). -/
def State.stands (s : State) (core ctx task : Nat) (n : Fin 4) : Bool :=
  let c := s.core? core
  let ts := s.taskThreads core ctx task
  decide (c.holder = some ctx) && c.bar[n].armed && !ts.isEmpty && ts.all fun t => c.bar[n].arrived.contains t.slot

/-- One core's part in the sweep. No release happens until every core has arrived (R265). -/
def State.sweepCore (ctx task : Nat) (core : Nat) (s : State) (n : Fin 4) : State :=
  if !(s.stands core ctx task n) then s
  else
    let b := (s.core? core).bar[n]
    if b.got.any fun x => x.2.any (· != b.word) then
      let all := mismatchCores core b
      if all.all (s.coreIn ctx task n) then s.mismatch core ctx task n all else s
    else if b.sent || !(s.holdsArrivals ctx task n b.rect core) then s
    else match sweepNext b.rect core with
      | some w =>
        let s := s.updCore core (Core.setBar n { b with sent := true })
        { s with pkts := s.pkts ++ [.arrival ctx w n.val core (some b.word)] }
      | none => if rectHas (coreDie core) b.rect core then s.releaseFrom ctx task n b.rect 64 core else s

/-- A corner with no thread of the task releases once it holds the arrivals it expects. -/
def State.sweepCorner (ctx task : Nat) (t : Task) (s : State) (n : Fin 4) : State :=
  let words := (t.coreList.flatMap fun c => (s.core? c).bar[n].got.filterMap (·.2)).map fun w => w.setWidth 23
  match words.find? fun r => s.passiveDone ctx task n r 64 (coreId t.die (rectRow0 r) (rectCol0 r)) with
  | some r => s.releaseFrom ctx task n r 64 (coreId t.die (rectRow0 r) (rectCol0 r))
  | none => s

/-- Every arrival and release that the threads' standing of a task now allows. -/
def State.barSweep (ctx task : Nat) (s : State) : State :=
  match (s.cx? ctx).bind (·.task? task) with
  | none => s
  | some t =>
    let s := t.coreList.foldl (fun s c => (List.finRange 4).foldl (State.sweepCore ctx task c) s) s
    (List.finRange 4).foldl (State.sweepCorner ctx task t) s

/-- The task of a context that is placed over a core, and takes packets there. -/
def State.taskAt (s : State) (core ctx : Nat) : Option Task :=
  (s.cx? ctx).bind fun x => x.tasks.find? fun t => t.st = .placed && t.holds core

/-- BARRIER_ARRIVAL: the k-th packet is counted at its core. A core whose task is out holds it (R265). -/
def State.arrivalAt (k : Nat) (s : State) : State :=
  match s.pkts[k]? with
  | some (.arrival ctx dst n src wp) =>
    match s.taskAt dst ctx, (s.bind? dst ctx).isSome with
    | some t, true =>
      if h : n < 4 then
        let s := ({ s with pkts := s.pkts.eraseIdx k }).focusCore dst
        let b := s.core.bar[n]
        let s := { s with core := s.core.setBar ⟨n, h⟩ { b with got := b.got ++ [(src, wp)] } }
        s.barSweep ctx t.num
      else s
    | _, _ => s
  | _ => s

/-- BARRIER_RELEASE: the k-th packet takes effect at its core, and goes on. -/
def State.releaseAt (k : Nat) (s : State) : State :=
  match s.pkts[k]? with
  | some (.release ctx dst n _ st _ r) =>
    if (s.bind? dst ctx).isNone then s
    else if h : n < 4 then
      let s := { s with pkts := s.pkts.eraseIdx k }
      match (s.bind? dst ctx).map (·.task) with
      | some t => if st = 0 then s.releaseFrom ctx t ⟨n, h⟩ r 64 dst else s.releaseCore dst ctx ⟨n, h⟩ st
      | none => s
    else s
  | _ => s

def execBarrierArrival (k : Nat) (s : State) : Out1 := .next (s.arrivalAt k)
def execBarrierRelease (k : Nat) (s : State) : Out1 := .next (s.releaseAt k)

/-! ### Instructions -/

/-- A barrier register is present where the context holds the engines; it has no specifier (R27). -/
def State.hasBar (s : State) (n : Fin 4) : Except Stop Unit := if s.holds then .ok () else trap 3 (0x100 + n.val)

def execBarm (n : Fin 4) (a : SSrc) (s : State) : Out1 := s.finish (do
  s.hasBar n
  let s ← s.beginTh 0xA7 [] [a.spec]
  let v := (s.n64 a).toNat
  let b := s.core.bar[n]
  if 2 ^ 23 ≤ v || v / 2 ^ 10 % 8 != 0 then barTrap n 6
  if !b.arrived.isEmpty || b.sent then barTrap n 1
  if !((s.cx.task? s.th.task).any fun t => t.hasRect (BitVec.ofNat 23 v)) then barTrap n 2
  .ok { s with core := s.core.setBar n { b with armed := true, rect := BitVec.ofNat 23 v } })

/-- The checks of an arrival (R263). -/
def State.barReady (s : State) (op : Nat) (n : Fin 4) (sc : Scope) (ds : List (Bool × BitVec 8)) : Except Stop Unit := do
  s.hasBar n
  s.present ds
  s.noEddy op
  let b := s.core.bar[n]
  if !(scopeHolds sc b.rect) then barTrap n 4
  if !b.armed then barTrap n 5
  .ok ()

/-- The thread is counted as arrived, with the future to complete if any. -/
def State.countArrival (n : Fin 4) (fut : List Nat) (s : State) : State :=
  let b := s.core.bar[n]
  { s with core := s.core.setBar n { b with arrived := insertNat s.th.slot b.arrived, futs := b.futs ++ fut } }

/-- The fence that an arrival first acts as; its continuation once that is over. -/
def State.afterFence (s : State) (sc : Scope) (check : Except Stop Unit) (f : State → Except Stop State) : Except Stop State :=
  match s.th.wait with
  | some (.echoes 0) => f (s.probed .rel)
  | some (.echoes _) => blockE
  | _ => do
    check
    let s ← s.fenceRel sc .rel
    match s.th.wait with
    | some (.echoes _) => .ok s
    | _ => f s

def execBarr (n : Fin 4) (sc : Scope) (d : FDst) (s : State) : Out1 := s.finish (
  s.afterFence sc (s.barReady 0xA8 n sc [(true, d.spec)]) fun s =>
    let f := ({ s with th := { s.th with wait := none } }).fork d
    .ok { f.2.countArrival n [f.1] with iss := { f.2.iss with res := .done } })

def execBarw (n : Fin 4) (sc : Scope) (s : State) : Out1 := s.finish (
  match s.th.wait with
  | some (.barrier _ (some st)) => if st = 0x15 then barTrap n 3 else .ok s
  | some (.barrier _ none) => blockE
  | _ => s.afterFence sc (s.barReady 0xA9 n sc []) fun s => .ok ((s.countArrival n []).park (.barrier n.val none)))

/-! ### Events (R266, R267) -/

def execWfe (s : State) : Out1 := s.finish (do
  s.noEddy 0xAA
  .ok (s.awaitEvent false))

/-- Sets the latches of the threads of the context on the core that satisfy a test. -/
def State.sev (p : Thread → Bool) (s : State) : State :=
  s.mapThreads fun t => if t.core = s.th.core && t.ctx = s.th.ctx && p t then { t with latch := true } else t

def execSevCore (s : State) : Out1 := s.finish (.ok (s.sev fun _ => true))

def execSevThr (a : SSrc) (s : State) : Out1 := s.finish (do
  let s ← s.begin [] [a.spec]
  .ok (s.sev fun t => decide (t.slot < 8) && decide (t.slot = (s.n64 a).toNat)))

end Sys2Proof.Machine
end

