-- ==== Sys2Proof/Machine/Network.lean ====
section
/-! DEFINITION. Remote scratchpad accesses (R270), network commands (R271 to R273, R464 to R470), and a peer's placements (R351, R469). -/
namespace Sys2Proof.Machine
open Sys2Proof

/-! ### Remote scratchpad (R270) -/

/-- Where a remote access lands: a core with its scratchpad address, or none where the core holds no window. -/
def State.remote (s : State) (t : Ty) (m : MAddr) (col : Word) : Except Stop (Nat × Option Nat) := do
  let ea := s.ea m
  if 2 ^ 56 ≤ ea.toNat then trapW 2 ea
  if !(isWin ea.toNat) then trapW 1 ea
  if ea.toNat % (t.width / 8) != 0 then trapW 0x31 ea
  let core := s.th.core / 16 * 16 + col.toNat
  if 16 ≤ col.toNat || !((s.cx.task? s.th.task).any fun k => k.holds core) then trapW 1 ea
  match s.bind? core s.th.ctx with
  | none => .ok (core, none)
  | some b =>
    if b.winSize = 0 then .ok (core, none)
    else if b.winSize ≤ ea.toNat - winBase then trapW 1 ea
    else .ok (core, some (b.spadAddr (ea.toNat - winBase)))

/-- A bank that does not answer: no window, or a gated lee bank. -/
def State.remoteGated (s : State) (core : Nat) (a : Option Nat) : Bool :=
  match a with
  | none => true
  | some a => match leeBank a with | some b => (s.core? core).banks[b] == .gated | none => false

def execRld (t : Ty) (_sc : Scope) (_o : Ord) (d : SDst) (m : MAddr) (b : SReg) (s : State) : Out1 := s.finish (do
  let s ← s.begin [d.spec] [m.base.spec, b.spec]
  let r ← s.remote t m (s.sreg b)
  if s.remoteGated r.1 r.2 then .ok ((s.put d 0).flag Fl.gt)
  else
    let a := r.2.getD 0
    let c := s.core? r.1
    let n := t.width / 8
    if poisoned c.spadPoison a n then trapW 1 (s.ea m)
    else .ok ((s.put d (extend t (leNat (c.spad.bytes a n)))).updCore r.1 fun c => c.wakeAt a))

def execRst (t : Ty) (_sc : Scope) (o : Ord) (m : MAddr) (b c : SReg) (s : State) : Out1 := s.finish (do
  let s ← s.begin [] [m.base.spec, b.spec, c.spec]
  let r ← s.remote t m (s.sreg b)
  let s := if isRel o then s.flush else s
  if s.remoteGated r.1 r.2 then .ok (s.flag Fl.gt)
  else .ok (s.updCore r.1 fun x => x.spadPut (cellsOf (r.2.getD 0) (leBytes (s.sreg c).toNat (t.width / 8)))))

/-! ### The peer table (R464, R467) -/

def peerBase : Nat := 0x00FFFFFFFFE00000

/-- A peer table entry: remote context, the accept and admission bits, default spray set and class, and the address. -/
structure Peer where
  addr : Nat
  ctx : Nat
  accept : Bool
  admits : Bool
  spray : Nat
  cls : Nat
  deriving DecidableEq, Repr

/-- Bytes of a fixed area of the context in focus. -/
def State.areaBytes (s : State) (va n : Nat) : List Byte := match s.opBytes va n with | .ok x => x.2 | .error _ => List.replicate n 0

/-- Entry p of the context's peer table, if it is valid. -/
def State.peer? (s : State) (p : Nat) : Option Peer :=
  if 512 ≤ p then none
  else
    let b := s.areaBytes (peerBase + 32 * p) 32
    let f (o : Nat) : Nat := fieldAt b o 1
    if f 16 < 128 || 4 ≤ f 17 || f 18 = 255 || 8 ≤ f 19 || fieldAt b 20 12 != 0 then none
    else some ⟨fieldAt b 0 16, f 16 % 128, (f 17).testBit 0, (f 17).testBit 1, f 18, f 19⟩

/-- The paths of a spray set: the port by which each leaves, and its entropy value; none for an empty mask. -/
def State.spray? (s : State) (set : Nat) : Option (List (Nat × Nat)) :=
  let b := s.areaBytes (peerBase + 16384 + 192 * set) 192
  let ports := (List.range 8).filter fun i => (fieldAt b 1 1).testBit i
  if ports.isEmpty then none
  else some ((List.range (fieldAt b 0 1 % 64 + 1)).map fun i => (ports.getD (i % ports.length) 0, fieldAt b (64 + 2 * i) 2))

/-! ### Sending (R468) -/

def NetCmd.total (c : NetCmd) : Nat := c.len * c.peers.length

/-- The packet at a position: its peer, its offset for that peer, its size. -/
def NetCmd.packet (c : NetCmd) (pos : Nat) : Nat × Nat × Nat :=
  let o := pos % c.len
  (c.peers.getD (pos / c.len) 0, o, min 4096 (c.len - o))

def Cwnd.for_ (ctx peer cls path : Nat) (w : Cwnd) : Bool := w.ctx = ctx && w.peer = peer && w.cls = cls && w.path = path

def State.cwnd (s : State) (ctx peer cls path : Nat) : Cwnd :=
  (s.cwnds.find? (Cwnd.for_ ctx peer cls path)).getD { ctx, peer, cls, path }

def State.setCwnd (w : Cwnd) (s : State) : State :=
  { s with cwnds := s.cwnds.filter (fun x => !(Cwnd.for_ w.ctx w.peer w.cls w.path x)) ++ [w] }

/-- The peer's credit hint admits one more packet. -/
def State.credit (s : State) (ctx peer : Nat) : Bool :=
  match s.credits.find? fun c => c.ctx = ctx && c.peer = peer with
  | none => true
  | some c => decide (((s.cwnds.filter fun w => w.ctx = ctx && w.peer = peer).map (·.flight)).sum < c.cap)

/-- The spray set a command uses toward a peer, and its paths. -/
def State.portsFor (s : State) (c : NetCmd) (peer : Nat) : Option (List (Nat × Nat)) :=
  match s.peer? peer with
  | none => none
  | some e => s.spray? (if c.spray = 255 then e.spray else c.spray)

/-- The first open path in round-robin order from a command's turn. -/
def State.openPath (s : State) (c : NetCmd) (peer : Nat) (ports : List (Nat × Nat)) : Option Nat :=
  ((List.range ports.length).map fun i => (c.turn + i) % ports.length).find? fun i =>
    let w := s.cwnd c.ctx peer c.cls i
    decide (w.flight < w.win) && ((s.eports.toList[(ports.getD i (0, 0)).1]?).map (·.up)).getD false && s.credit c.ctx peer

def PathStat.bump (path : Nat) (f : PathStat → PathStat) (l : List PathStat) : List PathStat :=
  if l.any fun p => p.path = path then l.map fun p => if p.path = path then f p else p else l ++ [f ⟨path, 0, 0, 0, 0⟩]

/-- Sends a packet by a path, through its port and under its entropy value (R467). -/
def State.sendPacket (c : NetCmd) (pos path peer : Nat) (via : Nat × Nat) (b : List Byte) (s : State) : State :=
  let w := s.cwnd c.ctx peer c.cls path
  let s := s.setCwnd { w with flight := w.flight + 1 }
  s.out (.net c.tag path pos via.1 via.2 b)

/-- The bytes of the packet at a position: the source's, or none for a get; or why it cannot leave. -/
def State.packetBytes (s : State) (c : NetCmd) (pos : Nat) : Except (BitVec 8 ⊕ (Nat × OpStop)) (List Byte) :=
  let p := c.packet pos
  if c.kind = 2 then .ok []
  else match s.opBytes (c.loc + p.2.1) p.2.2 with
    | .error (va, .wait w) => .error (.inr (va, .wait w))
    | .error _ => .error (.inl 4)
    | .ok (ps, b) => if ps.any s.opPoison then .error (.inl 1) else .ok b

/-- Sends packets of a command while its windows are open. A releasing put's last packet waits for the others (R469). -/
def State.netSend (tag : Nat) : Nat → State → State
  | 0, s => s
  | f + 1, s =>
    match s.nets.find? fun c => c.tag = tag with
    | none => s
    | some c =>
      if c.status.isSome || c.total ≤ c.sent || s.cx.replay.isSome || (!c.begun && 8 ≤ s.inFlight c.core) then s
      else
        let p := c.packet c.sent
        if c.kind = 1 && c.rel && c.total ≤ c.sent + p.2.2 && c.acked < c.sent then s
        else match s.portsFor c p.1 with
          | none => s.updNet tag fun c => { c with begun := true, status := some 0x13 }
          | some ports =>
            match s.openPath c p.1 ports with
            | none => s.updNet tag fun c => { c with begun := true }
            | some path =>
              match s.packetBytes c c.sent with
              | .error (.inl st) => s.updNet tag fun c => { c with begun := true, status := some st }
              | .error (.inr (va, e)) => s.opNote va e
              | .ok b =>
                let s := if c.kind = 2 then s else (s.opReadNote (s.opSpots (c.loc + p.2.1) false p.2.2).1).output (c.remote + p.2.1) b
                let s := s.sendPacket c c.sent path p.1 (ports.getD path (0, 0)) b
                let s := s.updNet tag fun c => { c with
                  begun := true, sent := c.sent + p.2.2, turn := (path + 1) % ports.length, buf := c.buf ++ [(c.sent, path, b)]
                  paths := PathStat.bump path (fun x => { x with pkts := x.pkts + 1 }) c.paths }
                s.netSend tag f

/-- Writes the answer of a command at its local address, and notes the home slices (R230); a place that cannot be written ends it with
status access. -/
def State.netWrite (tag va : Nat) (b : List Byte) (s : State) : State :=
  let w := s.opSpots va true b.length
  match w.2 with
  | some (.wait x) => s.opNote va (.wait x)
  | e => (s.opWrite (w.1.zip b)).updNet tag fun c => { c with
      slices := c.slices ||| slicesAt w.1, status := if e.isSome then some 4 else c.status }

/-- Some byte of a range is awaited: its page is not there yet. -/
def State.netWaits (s : State) (va n : Nat) : Bool := match (s.opSpots va true n).2 with | some (.wait _) => true | _ => false

/-! ### Collectives (R272, R470) -/

/-- What the parties of a collective compare: parties, op, count. -/
def NetCmd.hdr (c : NetCmd) : Nat := c.q + 2 ^ 16 * c.op + 2 ^ 24 * (c.len / 4)

/-- One element of the fold. -/
def collOp (op : Nat) (a b : Nat) : Nat :=
  (match op with
    | 0 => merge32 a b
    | 1 => laneOp .i32 .rne false (· + ·) (Val.add .rne) a b
    | 2 => laneMinMax .f true a b
    | _ => laneMinMax .f false a b).1

/-- The left fold of R130 over partials in ascending slice order. -/
def collFold (op : Nat) : List (List Nat) → List Nat
  | [] => []
  | p :: r => r.foldl (fun acc q => (acc.zip q).map fun x => collOp op x.1 x.2) p

def words4 (b : List Byte) : List Nat := (List.range (b.length / 4)).map fun i => fieldAt b (4 * i) 4

/-- A collective that holds every partial writes its fold. A page that is not there yet makes it try again as it moves on. -/
def State.collFinish (tag : Nat) (s : State) : State :=
  match s.nets.find? fun c => c.tag = tag && c.kind = 3 && c.status.isNone && !c.folded && c.q ≤ c.got.length with
  | none => s
  | some c =>
    let parts := (List.range c.q).map fun i => words4 (((c.got.find? fun g => g.1 = i).map (·.2)).getD [])
    let out := (collFold c.op parts).flatMap fun x => leBytes x 4
    if s.netWaits c.remote c.len then s.netWrite tag c.remote out
    else (s.netWrite tag c.remote out).updNet tag fun c => { c with folded := true }

/-- A collective reads its own partial as it starts; one whose page is not there yet, once it is. -/
def State.ownPartial (tag : Nat) (s : State) : State :=
  match s.nets.find? fun c => c.tag = tag && c.kind = 3 && !(c.got.any fun g => g.1 = c.slice) && c.status.isNone with
  | none => s
  | some c =>
    match s.opBytes c.loc c.len with
    | .error (va, .wait w) => s.opNote va (.wait w)
    | .error _ => s.updNet tag fun c => { c with status := some 4 }
    | .ok (ps, b) =>
      if ps.any s.opPoison then s.updNet tag fun c => { c with status := some 1 }
      else ((s.opReadNote ps).updNet tag fun c => { c with got := (c.slice, b) :: c.got }).collFinish tag

/-- Moves a command on, where its core and context are in focus. -/
def State.netMove (tag : Nat) (s : State) : State := ((s.ownPartial tag).collFinish tag).netSend tag 1024

/-- Moves a command on, wherever its task is (R275). -/
def State.netPump (tag : Nat) (s : State) : State :=
  match s.nets.find? fun c => c.tag = tag with
  | none => s
  | some c => s.whereOp c.core c.ctx fun _ s => s.netMove tag

/-! ### Issue (R271) -/

def net0 : NetCmd := { tag := 0, thr := 0, core := 0, ctx := 0, kind := 0, peers := [] }

/-- Registers a network command (R293 counts it), with its local ranges, and starts it: its first packets leave at once where they can. -/
def State.forkNet (c : NetCmd) (ranges : List (Nat × Nat)) (d : FDst) (s : State) : Except Stop State := do
  if !(s.poolGrant s.bd 2) then blockE
  let s ← s.enterRanges s.nextTag ranges
  let f := s.flush.fork d
  let c := { c with tag := f.1, thr := s.th.slot, core := s.th.core, ctx := s.th.ctx }
  let t := { f.2 with nets := f.2.nets ++ [c], cx := { f.2.cx with use := f.2.cx.use.set 4 (f.2.cx.use[4] + 1) } }
  .ok (t.netMove f.1)

def execNsend (spray : BitVec 8) (cls : Fin 8) (d : FDst) (a b : SReg) (s : State) : Out1 := s.finish (do
  let s ← s.beginCmd 0xB1 d [a.spec, b.spec]
  addrs [s.sreg b]
  let x := (s.sreg a).toNat
  s.forkNet { net0 with kind := 0, peers := [x % 2 ^ 16], q := x / 2 ^ 32 % 256, len := 64, loc := (s.sreg b).toNat
                        spray := spray.toNat, cls := cls.val } [] d)

def execNput (o : Ord) (spray : BitVec 8) (cls : Fin 8) (d : FDst) (a b c : SReg) (s : State) : Out1 := s.finish (do
  let s ← s.beginCmd 0xB2 d [a.spec, b.spec, c.spec]
  addrs [s.sreg c]
  let x := (s.sreg a).toNat
  let len := x / 2 ^ 32
  if len = 0 || (o = .rel && (len < 8 || ((s.sreg b).toNat + len) % 8 != 0)) then cmdTrap 0xB2 1
  s.forkNet { net0 with kind := 1, peers := [x % 2 ^ 16], len, remote := (s.sreg b).toNat, loc := (s.sreg c).toNat
                        rel := o = .rel, spray := spray.toNat, cls := cls.val } [] d)

def execNget (o : Ord) (spray : BitVec 8) (cls : Fin 8) (d : FDst) (a b c : SReg) (s : State) : Out1 := s.finish (do
  let s ← s.beginCmd 0xB3 d [a.spec, b.spec, c.spec]
  addrs [s.sreg c]
  let x := (s.sreg a).toNat
  let len := x / 2 ^ 32
  if len = 0 || (o = .acq && (len < 8 || (s.sreg b).toNat % 8 != 0)) then cmdTrap 0xB3 1
  s.forkNet { net0 with kind := 2, peers := [x % 2 ^ 16], len, remote := (s.sreg b).toNat, loc := (s.sreg c).toNat
                        rel := o = .acq, spray := spray.toNat, cls := cls.val } [((s.sreg c).toNat, len)] d)

/-- The command of a collective's descriptor (R470); none where a field is out of its range. DESIGN CHOICE (log 19): the instruction's
class is the command's, and where it is 0 the descriptor's is. -/
def ncollCmd (s : State) (desc : List Byte) (slice spray cls : Nat) : Option NetCmd :=
  let f (o n : Nat) : Nat := fieldAt desc o n
  let n := f 0 2
  if n < 2 || 64 < n || 3 < f 2 1 || 7 < f 4 1 || f 5 3 != 0 || f 40 24 != 0 || f 8 8 = 0 || 2 ^ 28 < f 8 8 || n ≤ slice then none
  else
    let peers := s.areaBytes (f 32 8) (2 * n)
    let all := (List.range n).map fun i => fieldAt peers (2 * i) 2
    some { net0 with kind := 3, peers := all.eraseIdx slice, len := 4 * f 8 8, remote := f 24 8, loc := f 16 8, slice
                     op := f 2 1, q := n, cls := if cls = 0 then f 4 1 else cls, spray := if spray = 255 then f 3 1 else spray }

/-- A network command that ends as it issues: no path was used (R273). -/
def State.netNow (d : FDst) (w : Word) (s : State) : State :=
  let t := s.doneNow d w
  { t with th := { t.th with net := [] } }

/-- ncoll: the descriptor is read at issue, after the thread's own stores (R229), so that the local extents can enter the scoreboard
(R271). A descriptor that cannot be read ends it with status access; for one out of range the manual states no status (log 19). -/
def execNcoll (spray : BitVec 8) (cls : Fin 8) (d : FDst) (a b : SReg) (s : State) : Out1 := s.finish (do
  let s ← s.beginCmd 0xB4 d [a.spec, b.spec]
  addrs [s.sreg a]
  let t := s.flush
  match t.opBytes (s.sreg a).toNat 64 with
  | .error (va, .wait _) => .error (.miss va false)
  | .error _ => .ok (t.netNow d 4)
  | .ok (ps, desc) =>
    let t := t.opReadNote ps
    if ps.any t.opPoison then .ok (t.netNow d 1)
    else match ncollCmd t desc (s.sreg b).toNat spray.toNat cls.val with
      | none => let f := t.fresh; .ok (f.2.netNow d (f.1 &&& 0xFF))
      | some c => t.forkNet c [(c.loc, c.len), (c.remote, c.len)] d)

/-! ### Acknowledgements and losses (R468) -/

def Cwnd.acked (ecn : Bool) (w : Cwnd) : Cwnd :=
  let w := { w with flight := w.flight - 1 }
  if ecn then { w with win := max 1 (w.win / 2), acks := 0 }
  else if w.win ≤ w.acks + 1 then { w with win := w.win + 1, acks := 0 }
  else { w with acks := w.acks + 1 }

def Cwnd.lost (w : Cwnd) : Cwnd := { w with flight := w.flight - 1, win := max 1 (w.win / 2), acks := 0 }

/-- NETWORK_ACKNOWLEDGEMENT: a packet in flight is acknowledged, with the bytes of a get. A get whose page is not there yet holds its packet
at the endpoint: the acknowledgement is not taken. -/
def State.netAck (tag path off : Nat) (ecn : Bool) (rtt : Nat) (credit : Option Nat) (data : List Byte) (s : State) : State :=
  match s.nets.find? fun c => c.tag = tag && c.buf.any fun b => b.1 = off && b.2.1 = path with
  | none => s
  | some c =>
    s.whereOp c.core c.ctx fun _ s =>
      let p := c.packet off
      let va := c.loc + p.2.1
      if c.kind = 2 && s.netWaits va p.2.2 then s.netWrite tag va (slice data 0 p.2.2)
      else
        let s := s.setCwnd ((s.cwnd c.ctx p.1 c.cls path).acked ecn)
        let s := match credit with
          | some k => { s with credits := s.credits.filter (fun x : Credit => !(x.ctx = c.ctx && x.peer = p.1)) ++ [(⟨c.ctx, p.1, k⟩ : Credit)] }
          | none => s
        let stat (x : PathStat) : PathStat :=
          { x with marks := x.marks + (if ecn then 1 else 0), rtt := if x.rtt = 0 then rtt else min x.rtt rtt }
        let s := s.updNet tag fun c => { c with
          acked := c.acked + p.2.2, buf := c.buf.filter fun b => !(b.1 = off && b.2.1 = path), paths := PathStat.bump path stat c.paths }
        (if c.kind = 2 then s.netWrite tag va (slice data 0 p.2.2) else s).netMove tag

/-- PACKET_LOSS: the packet is sent again on the next path in the order. -/
def State.netLoss (tag path off : Nat) (s : State) : State :=
  match s.nets.find? fun c => c.tag = tag with
  | none => s
  | some c =>
    match c.buf.find? fun b => b.1 = off && b.2.1 = path with
    | none => s
    | some (_, _, b) =>
      s.whereOp c.core c.ctx fun _ s =>
        let p := c.packet off
        let s := s.setCwnd (s.cwnd c.ctx p.1 c.cls path).lost
        let ports := (s.portsFor c p.1).getD []
        let next := if ports.isEmpty then path else (path + 1) % ports.length
        let s := s.sendPacket c off next p.1 (ports.getD next (0, 0)) b
        (s.updNet tag fun c => { c with
          retx := c.retx + 1, buf := (c.buf.filter fun x => !(x.1 = off && x.2.1 = path)) ++ [(off, next, b)]
          paths := PathStat.bump next (fun x => { x with pkts := x.pkts + 1 })
            (PathStat.bump path (fun x => { x with retx := x.retx + 1 }) c.paths) }).netMove tag

def execNetworkAcknowledgement (tag path off : Nat) (ecn : Bool) (rtt : Nat) (credit : Option Nat) (data : List Byte) (s : State) : Out1 :=
  .next (s.netAck tag path off ecn rtt credit data)
def execPacketLoss (tag path off : Nat) (s : State) : Out1 := .next (s.netLoss tag path off)

/-! ### Partials of others (R470) -/

/-- COLLECTIVE_PARTIAL: the partial of a slice arrives; with the last, the fold is written. -/
def State.collPartial (tag sl hdr : Nat) (data : List Byte) (s : State) : State :=
  match s.nets.find? fun c => c.tag = tag && c.kind = 3 && c.status.isNone with
  | none => s
  | some c =>
    s.whereOp c.core c.ctx fun _ s =>
      if hdr != c.hdr then s.updNet tag fun c => { c with status := some 0x16 }
      else if c.q ≤ sl || c.got.any fun g => g.1 = sl then s
      else (s.updNet tag fun c => { c with got := c.got ++ [(sl, slice data 0 c.len)] }).collFinish tag

def execCollectivePartial (tag slice hdr : Nat) (data : List Byte) (s : State) : Out1 := .next (s.collPartial tag slice hdr data)

/-! ### Completion (R271, R273) -/


/-- Every packet is acknowledged, and a collective has written its fold. -/
def NetCmd.over (c : NetCmd) : Bool :=
  c.buf.isEmpty && decide (c.total ≤ c.acked) && (c.kind != 3 || c.folded)

/-- NETWORK_COMMAND_COMPLETION: a command that is over, has its status, or is refused by the peer completes. -/
def State.netComplete (tag : Nat) (refused : Bool) (s : State) : State :=
  match s.nets.find? fun c => c.tag = tag with
  | none => s
  | some c =>
    let s := s.focusOn c.core c.ctx
    let st : Option (BitVec 8) :=
      if c.status.isSome then c.status
      else if refused && c.begun then some 0x14
      else if c.over || s.cx.replay.isSome then some 0
      else none
    match st with
    | none => s
    | some st =>
      let used := (c.paths.filter fun p => p.pkts != 0).length
      let x := s.wordOf (doneWord (min c.retx 0xFFFF * 2 ^ 40 + used % 256 * 2 ^ 32) st)
      let s := { x.2 with nets := x.2.nets.filter fun n => n.tag != tag }
      let s := s.updCx c.ctx fun x => { x with use := x.use.set 4 (x.use[4] - 1) }
      (s.updAny ⟨c.core, c.ctx, c.thr⟩ fun t => { t with net := c.paths }).complete tag x.1 c.slices

def execNetworkCommandCompletion (tag : Nat) (refused : Bool) (s : State) : Out1 := .next (s.netComplete tag refused)

/-- nstat (R273). -/
def State.nstat (s : State) (d : SDst) (a : SSrc) (f : PathStat → Nat) : Out1 := s.finish (do
  let s ← s.beginTh 0xB5 [d.spec] [a.spec]
  .ok (s.put d (BitVec.ofNat 64 (((s.th.net.find? fun p => p.path = (s.n64 a).toNat).map f).getD 0))))

def execNstatPkts (d : SDst) (a : SSrc) (s : State) : Out1 := s.nstat d a (·.pkts)
def execNstatMarks (d : SDst) (a : SSrc) (s : State) : Out1 := s.nstat d a (·.marks)
def execNstatRetx (d : SDst) (a : SSrc) (s : State) : Out1 := s.nstat d a (·.retx)
def execNstatRtt (d : SDst) (a : SSrc) (s : State) : Out1 := s.nstat d a (·.rtt)

end Sys2Proof.Machine
end

