-- ==== Sys2Proof/Machine/Warrant.lean ====
section
/-! DEFINITION. Warrant slots and their instructions as they issue (R292 to R301), trusted time (R300, R367), and the translation
instructions as they issue (R302 to R304). -/
namespace Sys2Proof.Machine
open Sys2Proof

/-! ### Amounts (R293) -/

/-- The hardware threads of a task: those of the cores that carry threads; a gale task's lees carry none (R293, R398). -/
def Task.threads (t : Task) : Nat := let n := t.rows * t.cols * t.thr; if t.heat = .gale then n / 2 else n

def TaskSt.onCores : TaskSt → Bool
  | .placed | .saving => true
  | _ => false

/-- U in a kind: threads count the placed tasks. -/
def Context.u (x : Context) (k : Fin 8) : Nat :=
  if k = 0 then ((x.tasks.filter fun t => t.st.onCores).map Task.threads).sum else x.use[k]

/-- A of a slot: the quota is that of ws0 (R292). -/
def Context.amt (x : Context) (n k : Fin 8) : Nat := if n = 0 then x.quota[k] else x.ws[n].amt[k]

def Context.updWs (n : Fin 8) (f : WSlot → WSlot) (x : Context) : Context := { x with ws := x.ws.set n (f x.ws[n]) }

/-! ### Time (R367, R369) -/

/-- The bounds of operator time and the age of the note, whatever the age. -/
def Note.at (n : Note) (t : Nat) : Nat × Nat × Nat :=
  (n.t + (t - n.t1) * 999950 / 1000000, n.t + ((t - n.t0) * 1000050 + 999999) / 1000000, t - n.t1)

/-- A key slot by number. -/
def State.kslot (s : State) (n : Nat) : KeySlot := s.keys[n % 16]'(by omega)
def State.setKslot (n : Nat) (k : KeySlot) (s : State) : State := { s with keys := s.keys.set (n % 16) k (by omega) }

/-- The bound of a key slot, where it is proved. -/
def State.bound (s : State) (n : Nat) : Option (Nat × Nat × Nat) :=
  ((s.kslot n).note.map fun x => x.at s.iod).bind fun b => if b.2.2 ≤ 3600000000 then some b else none

/-! ### Issue -/

/-- The warrant trap: slot and reason (R301, Table 8-2). -/
def warTrap {α : Type} (n : Fin 8) (reason : Nat) : Except Stop α := trap 0x61 (n.val + 256 * reason)

def fin8 (n : Nat) : Fin 8 := ⟨n % 8, by omega⟩

/-- The slots a word names: bits 2:0 and 10:8. -/
def slotS (w : Word) : Fin 8 := fin8 w.toNat
def slotT (w : Word) : Fin 8 := fin8 (w.toNat / 256)

/-- Reasons 6 and 4: a surrendering context, and bits outside the word's fields (R294). -/
def State.slotWord (s : State) (w mask : Word) : Except Stop Unit := do
  if s.cx.surr then warTrap (slotS w) 6
  if w &&& ~~~mask != 0 then warTrap (slotS w) 4

/-- Reason 5: the address is misaligned, or its page is not raw; window addresses count as raw (R366). -/
def State.rawAddr (s : State) (a : Word) (n : Fin 8) : Except Stop Unit := do
  addrs [a]
  if a.toNat % 64 != 0 then warTrap n 5
  if !(isWin a.toNat) && (s.cx.pte? a.toNat).any (fun e => !(attrRaw e.attr)) then warTrap n 5

/-- Forks an operation of the IOD: the thread's earlier stores are seen by it (R229, R295). -/
def State.forkWar (op : WOp) (d : FDst) (s : State) : State :=
  let f := s.flush.fork d
  { f.2 with wops := f.2.wops ++ [⟨f.1, s.th.key, op⟩] }

def State.setBusy (n : Fin 8) (s : State) : State := { s with cx := s.cx.updWs n fun w => { w with busy := true } }

def execWpres (d : FDst) (a b : SSrc) (s : State) : Out1 := s.finish (do
  let s ← s.beginSysF 0xC6 none d [a.spec, b.spec]
  s.rawAddr (s.n64 a) 0
  if s.n64 b != 0 then s.rawAddr (s.n64 b) 0
  .ok (s.forkWar (.pres (s.n64 a) (s.n64 b)) d))

def execWsplit (d : FDst) (a b : SSrc) (s : State) : Out1 := s.finish (do
  let s ← s.beginSysF 0xC7 none d [a.spec, b.spec]
  let w := s.n64 b
  let x := slotS w
  let t := slotT w
  s.slotWord w 0x707
  if s.cx.ws[t].busy then warTrap t 3
  if s.cx.ws[x].busy then warTrap x 3
  if t = 0 || s.cx.ws[t].st != .empty then warTrap t 2
  if !(s.cx.ws[x].st == .funding || s.cx.ws[x].st == .held) then warTrap x 1
  s.rawAddr (s.n64 a) x
  .ok ((s.setBusy t).forkWar (.split x t (s.n64 a)) d))

def execWdeleg (d : FDst) (a b : SSrc) (s : State) : Out1 := s.finish (do
  let s ← s.beginSysF 0xC8 none d [a.spec, b.spec]
  let w := s.n64 b
  let t := slotS w
  s.slotWord w 7
  if s.cx.ws[t].busy then warTrap t 3
  if s.cx.ws[t].st != .held then warTrap t 1
  s.rawAddr (s.n64 a) t
  .ok ((s.setBusy t).forkWar (.deleg t (s.n64 a)) d))

def execWsurr (d : FDst) (a : SSrc) (s : State) : Out1 := s.finish (do
  let s ← s.beginSysF 0xC9 none d [a.spec]
  let w := s.n64 a
  let t := slotS w
  s.slotWord w 7
  if s.cx.ws[t].busy then warTrap t 3
  if t != 0 && s.cx.ws[t].st != .held then warTrap t 1
  .ok ((s.setBusy t).forkWar (.surr t) d))

/-! ### Queries (R299, R300). The IOD answers at once: the wait is time alone. -/

def State.query (s : State) (d : SDst) (a : SSrc) (kinds : Bool) (f : Fin 8 → Fin 8 → Word) : Out1 := s.finish (do
  let s ← s.beginSys 0xCA none [d.spec] [a.spec]
  let w := s.n64 a
  if w &&& ~~~0x707#64 != 0 || (kinds && decide (5 ≤ (slotT w).val)) then warTrap (slotS w) 4
  .ok (s.put d (f (slotS w) (slotT w))))

def wordN (n : Nat) : Word := BitVec.ofNat 64 n

def WSlot.code (w : WSlot) : Nat :=
  if w.busy then 4 else match w.st with | .empty => 0 | .funding => 1 | .held => 2 | .delegated _ => 3

def execWqryState (d : SDst) (a : SSrc) (s : State) : Out1 := s.query d a false fun n _ =>
  wordN (s.cx.ws[n].code + 256 * (s.cx.cls % 8) + if s.cx.surr then 2 ^ 16 else 0)
def execWqryAmt (d : SDst) (a : SSrc) (s : State) : Out1 := s.query d a true fun n k => wordN (s.cx.amt n k)
def execWqryUsed (d : SDst) (a : SSrc) (s : State) : Out1 := s.query d a true fun n k => if n = 0 then wordN (s.cx.u k) else 0
def execWqrySerial (d : SDst) (a : SSrc) (s : State) : Out1 := s.query d a false fun _ _ => wordN s.cx.serial
def execWqryCtx (d : SDst) (a : SSrc) (s : State) : Out1 := s.query d a false fun n _ =>
  match s.cx.ws[n].st with | .delegated c => wordN c | _ => -1#64
def execWqryArg (d : SDst) (a : SSrc) (s : State) : Out1 := s.query d a false fun _ _ => s.cx.arg

/-- wtime: all ones where no bound can be proved; recorded and replayed (R493, R495). -/
def State.wtime (s : State) (d : SDst) (f : Nat × Nat × Nat → Nat) : Out1 := s.finish (do
  let s ← s.beginSys 0xCB none [d.spec] []
  let x := s.wordOf (match s.bound s.cx.kslot with | some b => wordN (f b) | none => -1#64)
  .ok (x.2.put d x.1))

def execWtimeLo (d : SDst) (s : State) : Out1 := s.wtime d (·.1)
def execWtimeHi (d : SDst) (s : State) : Out1 := s.wtime d (·.2.1)
def execWtimeAge (d : SDst) (s : State) : Out1 := s.wtime d (·.2.2)

/-! ### Translation (R302 to R304) -/

/-- The translation word of Table 9-3, of a leaf that is not malformed. -/
def Pte.probe (e : Pte) : Word :=
  let sz := if e.lvl = 4 then 0 else if e.lvl = 3 then 1 else 2
  wordN (e.state + 4 * e.key + 2 ^ 10 * sz + 2 ^ 12 * e.attr.toNat) |||
    bit e.rd 24 ||| bit e.w 25 ||| bit e.x 26 ||| bit e.lock 27

def execXinv (d : FDst) (a b : SSrc) (s : State) : Out1 := s.finish (do
  let s ← s.beginSysF 0xCC (some true) d [a.spec, b.spec]
  addrs [s.n64 a]
  .ok (s.forkWar (.xinv (s.n64 a) (s.n64 b)) d))

def execXmapNew (d : FDst) (a b c : SSrc) (s : State) : Out1 := s.finish (do
  let s ← s.beginSysF 0xCE (some true) d [a.spec, b.spec, c.spec]
  addrs [s.n64 a]
  .ok (s.forkWar (.xnew (s.n64 a) (s.n64 b) (s.n64 c)) d))

def execXmapAttr (d : FDst) (a b c : SSrc) (s : State) : Out1 := s.finish (do
  let s ← s.beginSysF 0xCE (some true) d [a.spec, b.spec, c.spec]
  addrs [s.n64 a]
  .ok (s.forkWar (.xattr (s.n64 a) (s.n64 b) (s.n64 c)) d))

def execXunmap (d : FDst) (a b : SSrc) (s : State) : Out1 := s.finish (do
  let s ← s.beginSysF 0xCF (some true) d [a.spec, b.spec]
  addrs [s.n64 a]
  .ok (s.forkWar (.xunmap (s.n64 a) (s.n64 b)) d))

end Sys2Proof.Machine
end

