-- ==== Sys2Proof/Machine/Pages.lean ====
section
/-! DEFINITION. Frames and drive slots (R318, R319, R336), the mappings of a context (R302, R303, R329, R449), walks and the retry latch
(R328, R330 to R332, R445), and the storage queue engines (R334 to R339, R478). -/
namespace Sys2Proof.Machine
open Sys2Proof

/-! ### Frames (R18, R318, R319, R336) -/

/-- The slots firmware uses on one drive (log 10). -/
def driveSlots : Nat := 2 ^ 19

/-- The lowest free frame of a size, aligned to it, in a range of addresses. -/
def freeFrame (fs : List Frame) (lo hi sz : Nat) : Option Nat :=
  let cand := (lo :: fs.map fun f => f.base + f.size).map fun x => (x + sz - 1) / sz * sz
  let ok (c : Nat) : Bool := decide (lo ≤ c) && decide (c + sz ≤ hi) && fs.all fun f => decide (c + sz ≤ f.base) || decide (f.base + f.size ≤ c)
  match cand.filter ok with
  | [] => none
  | c :: r => some (r.foldl min c)

/-- Takes a frame for a key ID: its lines read as zeros, with every counter 0 (R477). -/
def State.takeFrame (base sz key : Nat) (s : State) : State :=
  { s with
    frames := ⟨base, sz, key⟩ :: s.frames
    mem := s.mem.clear base sz
    poison := s.poison.filter fun u => 64 * u < base || base + sz ≤ 64 * u }.freshLines base sz

def State.dropFrame (base : Nat) (s : State) : State := { s with frames := s.frames.filter fun f => f.base != base }

def State.stagingEnd (s : State) : Nat := tier2 + 65536 * s.staging

/-- The reserve that tables come from: the last 64 GiB of the second tier (R321, log 10). -/
def tabBase : Nat := tier2 + tier2Size - 2 ^ 36

/-- A frame of a size in a tier: the second tier takes what the first cannot (R319). -/
def State.newFrame (sz tier key : Nat) (s : State) : Option (Nat × State) :=
  let f := match if tier = 0 then freeFrame s.frames 0 tier1Size sz else none with
    | some f => some f
    | none => freeFrame s.frames s.stagingEnd tabBase sz
  f.map fun f => (f, s.takeFrame f sz key)

/-- A staging frame (R336). -/
def State.newStaging (key : Nat) (s : State) : Option (Nat × State) :=
  (freeFrame s.frames tier2 s.stagingEnd 65536).map fun f => (f, { s.takeFrame f 65536 key with stagingFree := s.stagingFree - 1 })

def State.dropStaging (base : Nat) (s : State) : State := { s.dropFrame base with stagingFree := s.stagingFree + 1 }

def State.drive (s : State) (d : Nat) : Drive := s.drives[d % 8]'(by omega)
def State.setDrive (d : Nat) (x : Drive) (s : State) : State := { s with drives := s.drives.set (d % 8) x (by omega) }

/-- The lowest free slot of the lowest drive in use that has one (R323, R335). -/
def State.newSlot (s : State) : Option (Nat × Nat) :=
  let free (d : Nat) : Option Nat :=
    let x := s.drive d
    if !(x.enabled && x.fit) then none
    else ((List.range (x.slots.length + 1)).find? fun k => !(x.slots.any fun p => p.slot = k)).bind fun k =>
      if k < driveSlots then some k else none
  (List.range 8).findSome? fun d => (free d).map fun k => (d, k)

def State.dropSlot (d k : Nat) (s : State) : State :=
  let x := s.drive d
  s.setDrive d { x with slots := x.slots.filter fun p => p.slot != k }

/-! ### Page tables (R321 to R323) -/

/-- The bytes that one entry of a table of a level covers, and those that the table does (R51). -/
def entrySpan (lvl : Nat) : Nat := 2 ^ (56 - 10 * lvl)
def tabSpan (lvl : Nat) : Nat := 1024 * entrySpan lvl

/-- The tables of the context that the walk to an address may pass, root first: a leaf of level l stands in a table of level l. -/
def tabsFor (va lvl : Nat) : List (Nat × Nat) := (List.range lvl).map fun i => (i + 1, va / tabSpan (i + 1) * tabSpan (i + 1))

/-- The lowest table of the reserve that no context has. -/
def freeTab (used : List Nat) : Nat :=
  tabBase + 16384 * ((List.range (used.length + 1)).find? fun i => !(used.contains (tabBase + 16384 * i))).getD 0

/-- A context's tables once leaves stand in them: those that are wanting come from the reserve. The first is the root's. -/
def State.addTabs (s : State) (es : List Pte) (x : Context) : Context :=
  let others := (s.contexts.filter fun y => y.uid != x.uid).flatMap fun y => y.tabs.map (·.pa)
  let add (x : Context) (t : Nat × Nat) : Context :=
    if x.tabs.any fun y => y.lvl = t.1 && y.va = t.2 then x
    else
      let pa := freeTab (others ++ x.tabs.map (·.pa))
      { x with tabs := x.tabs ++ [⟨t.1, t.2, pa⟩], root := if t.1 = 1 then pa else x.root }
  (es.flatMap fun e => tabsFor e.va e.lvl).foldl add x

/-- The words of entry i of a table: a leaf, a table, or absent. -/
def Context.entry (x : Context) (t : Ptab) (i : Nat) : Word × Word :=
  let va := t.va + i * entrySpan t.lvl
  match x.ptes.find? fun e => e.lvl = t.lvl && e.va = va with
  | some e => (e.ctl, e.loc)
  | none => match x.tabs.find? fun y => y.lvl = t.lvl + 1 && y.va = va with
    | some y => (1, wordN y.pa)
    | none => (0, 0)

/-- A table as it stands in device memory (R321, R322). No context maps it, so `State.mem` keeps no second copy of it. -/
def Context.tabBytes (x : Context) (t : Ptab) : List Byte :=
  (List.range 1024).flatMap fun i => let w := x.entry t i; leBytes w.1.toNat 8 ++ leBytes w.2.toNat 8

/-- Where the entries that a walk to an address reads stand, one for each level down to the leaf's (R324). -/
def Context.walkReads (x : Context) (va : Nat) : List Nat :=
  let lvl := ((x.pte? va).map (·.lvl)).getD 4
  (tabsFor va lvl).filterMap fun t => (x.tabs.find? fun y => y.lvl = t.1 && y.va = t.2).map fun y =>
    y.pa + 16 * (va / entrySpan t.1 % 1024)

/-- An entry that the walk to an address reads stands in a poisoned line (R483). -/
def State.walkPoison (s : State) (va : Nat) : Bool := (s.cx.walkReads va).any fun a => s.poison.contains (a / 64)

/-- xprobe. An entry that cannot be read is malformed, and its walk tells the management core as any does (R304, R325). -/
def execXprobe (d : SDst) (a : SSrc) (s : State) : Out1 := s.finish (do
  let s ← s.beginSys 0xCD none [d.spec] [a.spec]
  let v := (s.n64 a).toNat
  if 2 ^ 56 ≤ v || isWin v then .ok (s.put d 3)
  else if s.walkPoison v || (s.cx.pte? v).any Pte.malformed then .ok ((s.mcheck 2 s.cx.id v).put d 0x80000003)
  else .ok (s.put d (match s.cx.pte? v with | some e => e.probe | none => 3)))

/-! ### Mapping -/

/-- How pages are mapped: the key ID, the attribute, the permissions, the level of the leaf, and the tier. -/
structure MapHow where
  key : Nat
  attr : BitVec 11
  rd : Bool
  w : Bool
  x : Bool := false
  lock : Bool := false
  lvl : Nat := 4
  tier : Nat
  deriving DecidableEq, Repr

/-- Maps one page: a resident leaf on a frame, or a stored leaf on a drive slot (R302, R319, R323). -/
def State.mapPage (h : MapHow) (va : Nat) (s : State) : Option (Pte × State) :=
  if h.tier = 2 then
    s.newSlot.map fun x =>
      let dr := s.drive x.1
      (⟨va, 4, leafCtl 1 h.key h.rd h.w h.x h.lock true h.attr x.1 x.2, 0, 0, 0, 0⟩,
        s.setDrive x.1 { dr with slots := dr.slots ++ [{ slot := x.2 }] })
  else
    (s.newFrame (lvlSize h.lvl) h.tier h.key).map fun x =>
      (⟨va, h.lvl, leafCtl 0 h.key h.rd h.w h.x h.lock false h.attr 0 0, wordN x.1, 0, 0, 0⟩, x.2)

/-- Maps n pages from an address on; none where one cannot be had. -/
def State.mapPages (h : MapHow) : Nat → Nat → State → Option (List Pte × State)
  | 0, _, s => some ([], s)
  | n + 1, va, s => match s.mapPage h va with
    | none => none
    | some (e, s) => (State.mapPages h n (va + lvlSize h.lvl) s).map fun r => (e :: r.1, r.2)

/-- Writes a page's first bytes where they are kept. -/
def State.pagePut (e : Pte) (b : List Byte) (s : State) : State :=
  if e.state = 1 then
    let dr := s.drive e.drive
    s.setDrive e.drive { dr with slots := dr.slots.map fun p => if p.slot = e.slot then { p with bytes := p.bytes.put 0 b } else p }
  else { s with mem := s.mem.put e.loc.toNat b }

/-- Gives back what a leaf holds: its frame, and a backed page's slot. -/
def State.release (e : Pte) (s : State) : State :=
  let s := if e.state = 0 then (if e.bk then s.dropStaging e.loc.toNat else s.dropFrame e.loc.toNat) else s
  if e.bk then s.dropSlot e.drive e.slot else s

/-- The fixed areas of R449: address, pages, written or not. The wake registers stand on device registers. -/
def fixedAreas : List (Nat × Nat) :=
  [(queueTab, 1), (peerBase, 1), (0x00FFFFFFFFD00000, 16), (0x00FFFFFFFFC00000, 1)]
def graphArea : Nat := 0x00FFFFFFFFC00000

/-- A range meets a fixed area, or the scratchpad window range. -/
def meetsFixed (lo len : Nat) : Bool := fixedAreas.any fun a => decide (a.1 < lo + len) && decide (lo < a.1 + 65536 * a.2)
def meetsWin (lo len : Nat) : Bool := decide (winBase < lo + len)

/-- The leaves of the fixed areas of a new context. -/
def State.mapFixed (ctx key : Nat) (s : State) : Option (List Pte × State) :=
  let rw : MapHow := { key, attr := rawAttr, rd := true, w := true, tier := 0 }
  (s.mapPage rw queueTab).bind fun a => (a.2.mapPage rw peerBase).bind fun b =>
    (b.2.mapPage { rw with w := false } graphArea).map fun c =>
      let wake := (List.range 16).map fun i : Nat =>
        (⟨0x00FFFFFFFFD00000 + 65536 * i, 4, leafCtl 0 key true true false false false rawAttr 0 0,
          wordN (wakeWin + 2 ^ 20 * ctx + 65536 * i), 0, 0, 0⟩ : Pte)
      ([a.1, b.1, c.1] ++ wake, c.2)

def Pte.meets (e : Pte) (lo len : Nat) : Bool := decide (e.va < lo + len) && decide (lo < e.va + e.size)

/-! ### Invalidation (R329) -/

/-- The TLBs without the translations that a test picks. -/
def State.dropTlbs (p : Nat → Pte → Bool) (s : State) : State :=
  { s.mapCores fun c => { c with tlb := c.tlb.filter fun x => !(p x.ctx x.e) } with rtlb := s.rtlb.filter fun x => !(p x.ctx x.e) }

/-- No TLB of the context holds a translation of the range. -/
def State.invalidate (ctx lo len : Nat) (s : State) : State := s.dropTlbs fun c e => c = ctx && e.meets lo len

/-- Every access of the context to the range has been performed. -/
def State.drained (s : State) (x : Context) (lo len : Nat) : Bool :=
  let es := x.ptes.filter fun e => e.meets lo len
  s.reqs.all fun r => r.ctx != x.id || es.all fun e =>
    let p := e.phys e.va
    decide (r.pa < p) || decide (p + e.size ≤ r.pa)

/-- A command of a storage queue engine is under way for a page of the range. -/
def State.storing? (s : State) (ctx lo len : Nat) : Bool := s.sops.any fun o => o.kind != .flush && o.ctx = ctx && lo ≤ o.va && o.va < lo + len

/-! ### xmap, xunmap, xinv where they are performed (R302, R303) -/

def mapReserved (w : Word) : Bool := w &&& ~~~0x3337FF#64 != 0
def pageCountBad (n : Nat) : Bool := n = 0 || 2 ^ 20 < n

/-- The leaves of n mapped pages from an address on, in order; none where one is missing. -/
def Context.run (x : Context) : Nat → Nat → Option (List Pte)
  | 0, _ => some []
  | n + 1, va => match x.pte? va with
    | none => none
    | some e => (x.run n (e.va + e.size)).map (e :: ·)

def runLen (va : Nat) (l : List Pte) : Nat := (l.getLast?.map fun e => e.va + e.size - va).getD 0

/-- A leaf that no instruction may change: a locked code page, or one of a fixed area. -/
def Pte.held (e : Pte) : Bool := e.lock || meetsFixed e.va e.size

/-- The status with which a translation operation ends, and the state it leaves; none where it must wait for accesses. The context is in
focus. -/
def State.xmapNew (a w n : Nat) (s : State) : BitVec 8 × State :=
  let sc := w / 2 ^ 12 % 4
  let tier := w / 2 ^ 20 % 4
  let lvl := 4 - sc
  let len := n * lvlSize lvl
  let attr := BitVec.ofNat 11 w
  let kind : Fin 8 := if tier = 2 then 2 else 1
  if mapReserved (wordN w) || sc = 3 || tier = 3 || !(attrLegal attr) || (tier = 2 && sc != 0) || pageCountBad n || a % lvlSize lvl != 0 then
    (0x20, s)
  else if meetsWin a len || meetsFixed a len || s.cx.ptes.any (fun e => e.meets a len) then (4, s)
  else if s.cx.quota[kind] < s.cx.u kind + len then (0x29, s)
  else
    match s.mapPages { key := s.cx.key, attr, rd := w.testBit 16, w := w.testBit 17, lvl, tier } n a with
    | none => (0x28, s)
    | some (es, t) =>
      (0, { t with cx := { t.addTabs es t.cx with ptes := t.cx.ptes ++ es, use := t.cx.use.set kind (t.cx.use[kind] + len) } })

def State.xmapAttr (a w n : Nat) (s : State) : Option (BitVec 8 × State) :=
  let attr := BitVec.ofNat 11 w
  if mapReserved (wordN w) || !(attrLegal attr) || pageCountBad n || a % 65536 != 0 then some (0x20, s)
  else match s.cx.run n a with
    | none => some (4, s)
    | some es =>
      if es.any Pte.held then some (4, s)
      else if !(s.drained s.cx a (runLen a es)) then none
      else
        let set (e : Pte) : Pte := { e with ctl := (e.ctl &&& ~~~(0x7FF#64 <<< 16)) ||| (attr.setWidth 64 <<< 16) }
        let s := { s with cx := { s.cx with ptes := s.cx.ptes.map fun e => if es.contains e then set e else e } }
        some (0, s.invalidate s.cx.id a (runLen a es))

/-- Removes leaves, and lowers the use they were charged to. -/
def State.unmapLeaves (es : List Pte) (s : State) : State :=
  let sz (k : Pte → Bool) : Nat := ((es.filter k).map Pte.size).sum
  let stor := sz fun e => e.bk
  let mem := sz fun e => !e.bk && e.state = 0
  let s := es.foldl (fun s e => s.release e) s
  { s with cx := { s.cx with
    ptes := s.cx.ptes.filter fun e => !(es.contains e)
    use := (s.cx.use.set 1 (s.cx.use[1] - mem)).set 2 (s.cx.use[2] - stor) } }

def State.xunmap (a n : Nat) (s : State) : Option (BitVec 8 × State) :=
  if pageCountBad n || a % 65536 != 0 then some (0x20, s)
  else match s.cx.run n a with
    | none => some (4, s)
    | some es =>
      if es.any Pte.held then some (4, s)
      else if !(s.drained s.cx a (runLen a es)) || s.storing? s.cx.id a (runLen a es) then none
      else some (0, (s.unmapLeaves es).invalidate s.cx.id a (runLen a es))

def State.xinv (a n : Nat) (s : State) : Option (BitVec 8 × State) :=
  let len := 65536 * n
  if pageCountBad n || a % 65536 != 0 then some (0x20, s)
  else
    let es := s.cx.ptes.filter fun e => e.meets a len
    if es.any Pte.held || meetsWin a len || meetsFixed a len then some (4, s)
    else if !(s.drained s.cx a len) then none
    else
      let hosts := es.filter fun e => e.state = 2
      let gone (x : Atc) : Bool := hosts.any fun e =>
        x.func = e.func && x.pasid = e.pasid && e.loc.toNat ≤ x.iova && x.iova < e.loc.toNat + e.size
      some (0, { s.invalidate s.cx.id a len with atc := s.atc.filter fun x => !(gone x) })

/-! ### Walks (R328, R330 to R332, R445) -/

/-- A thread is latched on an address of a walk's leaf, on its die. -/
def Walk.waits (w : Walk) (x : Context) (t : Thread) : Bool :=
  decide (t.ctx = w.ctx) && decide (coreDie t.core = w.die) && t.retry.any fun r => !r.settled && x.leafBase r.va = w.va

/-- The threads that wait for a walk, and whose access satisfies a test, learn its end. -/
def State.settle (w : Walk) (p : Bool → Bool) (f : Retry → Retry) (s : State) : State :=
  s.mapThreads fun t => if w.waits s.cx t && t.retry.any (fun r => p r.wr) then { t with retry := t.retry.map f } else t

/-- The cores whose threads wait for a walk. -/
def State.walkCores (s : State) (w : Walk) : List Nat := ((s.threads.filter (w.waits s.cx)).map (·.core)).eraseDups

/-- The set of a row TLB that a translation stands in: 128 sets of 8 ways (log 50). -/
def rowSet (e : Pte) : Nat := e.va / e.size % 128

/-- A row's TLB with one more translation; a full set gives up its oldest. -/
def fillRow (row ctx : Nat) (e : Pte) (l : List RowTlb) : List RowTlb :=
  let l := l.filter fun x => !(x.row = row && x.ctx = ctx && x.e.va = e.va)
  let same (x : RowTlb) : Bool := x.row = row && rowSet x.e = rowSet e
  let l := if 8 ≤ (l.filter same).length then ((pick same l).map (·.2)).getD l else l
  l ++ [⟨row, ctx, e⟩]

/-- A complete translation fills the TLBs of the cores and rows that wait for it. -/
def State.fillTlbs (w : Walk) (e : Pte) (s : State) : State :=
  let cs := s.walkCores w
  let s := s.mapCores fun c => if cs.contains c.id then c.fillTlb w.ctx e else c
  { s with rtlb := ((cs.map (· / 16)).eraseDups).foldl (fun l r => fillRow r w.ctx e l) s.rtlb }

def State.dropWalk (w : Walk) (s : State) : State := { s with walks := s.walks.filter fun x => x != w }

/-! ### Storage queue engines (R334 to R336) -/

/-- The commands of a drive that are outstanding. -/
def State.outstanding (s : State) (d : Nat) : Nat := (s.sops.filter fun o => o.drive = d && o.pair.isSome).length

/-- A submission to a queue pair moves its tail; a completion moves its head, and the phase turns as it wraps. -/
def QPair.submit (depth : Nat) (q : QPair) : QPair := { q with tail := (q.tail + 1) % depth }
def QPair.complete (depth : Nat) (q : QPair) : QPair :=
  if q.head + 1 = depth then { q with head := 0, phase := !q.phase } else { q with head := q.head + 1 }

def Drive.updPair (k : Nat) (f : QPair → QPair) (x : Drive) : Drive := { x with pairs := x.pairs.zipIdx.map fun p => if p.2 = k then f p.1 else p.1 }

/-- The first command of a drive that waits is submitted, while fewer than 1,024 are outstanding: each to the next queue pair in turn
(R334). -/
def State.submitNext (d : Nat) (s : State) : State :=
  let x := s.drive d
  if 1024 ≤ s.outstanding d then s
  else match pick (fun p : SOp × Nat => p.1.drive = d && p.1.pair.isNone) s.sops.zipIdx with
    | some ((o, k), _) =>
      { s.setDrive d ({ x with next := (x.next + 1) % max 1 x.pairs.length }.updPair x.next (QPair.submit x.depth)) with
        sops := s.sops.set k { o with pair := some x.next } }
    | none => s

def State.submit (o : SOp) (s : State) : State := State.submitNext o.drive { s with sops := s.sops ++ [o] }

/-- The drives' mask holds for each drive from its next idle point on. -/
def State.syncDrives (s : State) : State :=
  { s with drives := Vector.ofFn fun d : Fin 8 =>
      if s.sops.any fun o => o.drive = d.val then s.drives[d] else { s.drives[d] with enabled := s.driveMask.getLsbD d.val } }

/-- A command has its completion, and the next that waits is submitted. -/
def State.dropSop (k : Nat) (s : State) : State :=
  match s.sops[k]? with
  | none => s
  | some o =>
    let x := s.drive o.drive
    let s := { s with sops := s.sops.eraseIdx k }
    State.syncDrives (match o.pair with
    | some q => (s.setDrive o.drive (x.updPair q (QPair.complete x.depth))).submitNext o.drive
    | none => s)

/-- A Read of a stored page is under way, or a staging frame is awaited for it. -/
def State.reading (s : State) (ctx va : Nat) : Bool := s.sops.any fun o => o.kind = .read && o.ctx = ctx && o.va = va

/-- The leaf of a page becomes resident on its frame (R337 step 4), and what waited for it goes on: tasks that are out, walks and
operations. -/
def State.becomeResident (ctx va frame : Nat) (dirty : Bool) (s : State) : State :=
  let set (e : Pte) : Pte := { e with loc := wordN frame, ctl := (e.ctl &&& ~~~0x1000000C#64) ||| if dirty then 0x10000000 else 0 }
  let s := s.updCx ctx fun x => { x with
    ptes := x.ptes.map (fun e => if e.va = va then set e else e)
    tasks := x.tasks.map (fun t => { t with pages := t.pages.filter (· != va) }) }
  let back (t : Thread) : Thread :=
    if t.ctx = ctx && t.retry.any (fun r => r.long && r.va / 65536 * 65536 = va) then { t with retry := t.retry.map fun r => { r with settled := true } } else t
  let s := s.mapThreads back
  (s.updCx ctx fun x => { x with saved := x.saved.map fun v => { v with ths := v.ths.map back } })

/-- A page's eviction under way is cancelled: the entry returns to its frame, and no Read is made (R339). -/
def State.cancelEvict (ctx va : Nat) (s : State) : State :=
  match s.sops.zipIdx.find? fun p => p.1.kind = .write && p.1.ctx = ctx && p.1.va = va with
  | some (o, k) => (s.dropSop k).becomeResident ctx va o.frame true
  | none => s

/-- Starts the service of a stored page (R337 steps 1 and 2), or ends its eviction; where no staging frame is free it starts later. -/
def State.startRead (ctx : Nat) (e : Pte) (s : State) : State :=
  if s.sops.any fun o => o.kind = .write && o.ctx = ctx && o.va = e.va then s.cancelEvict ctx e.va
  else if s.reading ctx e.va then s
  else match s.newStaging e.key with
    | none => s
    | some (f, t) => t.submit { kind := .read, drive := e.drive, slot := e.slot, frame := f, ctx, va := e.va, tries := 1 }

/-! ### The end of a walk -/

/-- A long fault: the tasks of the waiting threads are to be swapped out until the page is there (R332). An eddy's access waits with no
swap-out (R331, R421). -/
def State.longFault (w : Walk) (s : State) : State :=
  let ts := (s.threads.filter fun t => w.waits s.cx t && t.eddy.isNone).map (·.task)
  let s := s.settle w (fun _ => true) fun r => { r with long := true }
  let out (t : Task) : Task :=
    if ts.contains t.num && t.st.onCores then
      { t.ask s.iod with pages := if t.pages.contains w.va then t.pages else w.va :: t.pages }
    else t
  s.updCx w.ctx fun x => { x with tasks := x.tasks.map out }

/-- A walk that still needs its walker: not one that has found a page to be waited for (R327, R331). -/
def State.walking (s : State) (w : Walk) : Bool := !(((s.cx? w.ctx).bind (·.pte? w.va)).any fun e => !e.malformed && e.state != 0)

/-- All 32 walkers of the die are busy with walks that came before (R328). -/
def State.walkersBusy (s : State) (k : Nat) (w : Walk) : Bool :=
  decide (32 ≤ ((s.walks.take k).filter fun x => x.die = w.die && s.walking x).length)

/-- WALK_COMPLETION. Each level's entry is read at its home slice; a poisoned entry is met as a malformed one (R483). The accesses that wait
learn the outcome that their own permission gives. -/
def State.walkAt (k : Nat) (s : State) : State :=
  match s.walks[k]? with
  | none => s
  | some w =>
    if s.walkersBusy k w then s
    else
      let s := s.focusCx w.ctx
      let reads := s.cx.walkReads w.va
      let s := reads.foldl (fun s a => s.touchLine false a) s
      let lost (p : Bool → Bool) (s : State) : State := s.settle w p fun r => { r with settled := true, bad := true }
      match s.cx.pte? w.va with
      | none => (lost (fun _ => true) s).dropWalk w
      | some e =>
        let may (wr : Bool) : Bool := e.allows s.cx.key wr
        let found (s : State) : State :=
          (({ s with cx := s.cx.touch w.va false }.fillTlbs w e).settle w (fun _ => true) fun r => { r with settled := true }).dropWalk w
        if e.malformed || reads.any fun a => poisoned s.poison a 16 then ((lost (fun _ => true) s).dropWalk w).mcheck 2 w.ctx w.va
        else if e.key != s.cx.key then ((lost (fun _ => true) s).dropWalk w).mcheck 3 w.ctx w.va
        else
          let s := lost (fun wr => !(may wr)) s
          if !(may false) && !(may true) then s.dropWalk w
          else if e.state = 0 then found s
          else if e.state = 1 then (s.longFault w).startRead w.ctx e
          else if !(s.tdiSends e.func) then (lost (fun _ => true) s).dropWalk w
          else if s.atcHas e w.va (w.wr && may true) then found s
          else
            let p := e.hostPage w.va true (w.wr && may true)
            if s.atsq.any (Atc.same p) || s.preqs.any (Atc.same p) then s
            else { s with atsq := s.atsq ++ [{ p with since := s.iod }] }.out (.ats p.func p.pasid p.iova)

def execWalkCompletion (k : Nat) (s : State) : Out1 := .next (s.walkAt k)

/-- RETRY_LATCH_REISSUE: once the translation is settled the thread is in the rotation again, and its next issue makes every check
afresh. A settled latch leaves its mark only for an access condition. -/
def Thread.reissue (t : Thread) : Thread :=
  match t.retry with
  | some r => if r.settled && !r.bad then { t with retry := none } else t
  | none => t

def execRetryLatchReissue (core ctx thr : Nat) (s : State) : Out1 := .next (s.updTh ⟨core, ctx, thr⟩ Thread.reissue)

/-! ### ATS and PRI (R445, R446) -/

/-- The walks that wait for a host page. -/
def State.hostWalks (s : State) (p : Atc) : List Walk :=
  s.walks.filter fun w => ((s.cx? w.ctx).bind (·.pte? w.va)).any fun e => e.state = 2 && Atc.same p (e.hostPage w.va true true)

/-- ATS_TRANSLATION_RESPONSE. Its 64 KiB enter the ATC as 4 KiB translations, the oldest leaving. A permission withheld is asked for by
page requests: a long fault. -/
def State.atsAt (p : Atc) (s : State) : State :=
  match s.atsq.find? (Atc.same p) with
  | none => s
  | some q =>
    let s := { s with atsq := s.atsq.filter fun x => !(Atc.same p x) }
    let unit (i : Nat) : Atc := { p with iova := p.iova + 4096 * i }
    let old := s.atc.filter fun x => !((List.range 16).any fun i => Atc.same (unit i) x)
    let s := { s with atc := old.drop (old.length - 4080) ++ (List.range 16).map unit }
    if (q.wr && !p.wr) || (!q.wr && !p.rd) then
      if 512 < 16 * (s.preqs.length + 1) then { s with atsq := s.atsq ++ [q] }
      else
        let s := (s.hostWalks p).foldl (fun s w => (s.focusCx w.ctx).longFault w) { s with preqs := s.preqs ++ [{ q with since := s.iod }] }
        (List.range 16).foldl (fun s i => s.out (.pri q.func q.pasid (q.iova + 4096 * i) q.wr)) s
    else s

def execAtsTranslationResponse (func pasid iova : Nat) (rd wr : Bool) (s : State) : Out1 := .next (s.atsAt { func, pasid, iova, rd, wr })

/-- A page request fails: what waits for the page ends in an access condition; the tasks that were out for it may return. -/
def State.priFail (p : Atc) (s : State) : State :=
  match (s.preqs ++ s.atsq).find? (Atc.same p) with
  | none => s
  | some _ =>
    let ws := s.hostWalks p
    let s := { s with
      preqs := s.preqs.filter (fun x => !(Atc.same p x)), atsq := s.atsq.filter (fun x => !(Atc.same p x)), refusedPg := s.refusedPg ++ [p] }
    let lost (r : Retry) : Retry := { r with settled := true, bad := true }
    ws.foldl (fun s w =>
      let s := s.focusCx w.ctx
      let s := (s.settle w (fun _ => true) lost).dropWalk w
      let back (t : Thread) : Thread := if w.waits s.cx t then { t with retry := t.retry.map lost } else t
      s.updCx w.ctx fun x => { x with
        tasks := x.tasks.map (fun t => { t with pages := t.pages.filter (· != w.va) })
        saved := x.saved.map fun v => { v with ths := v.ths.map back } }) s

/-- PRG_RESPONSE: success asks for the translation again (R445 item 4). -/
def State.prgAt (p : Atc) (ok : Bool) (s : State) : State :=
  match s.preqs.find? (Atc.same p) with
  | none => s
  | some q =>
    if ok then
      { s with preqs := s.preqs.filter (fun x => !(Atc.same p x)), atsq := s.atsq ++ [{ q with since := s.iod }] }.out (.ats q.func q.pasid q.iova)
    else s.priFail p

def execPrgResponse (func pasid iova : Nat) (ok : Bool) (s : State) : Out1 :=
  .next (s.prgAt { func, pasid, iova, rd := true, wr := true } ok)

/-- PAGE_REQUEST_TIMEOUT: no response within 1 s, counted on the IOD (R445 item 5, R506). -/
def execPageRequestTimeout (func pasid iova : Nat) (s : State) : Out1 :=
  let p : Atc := { func, pasid, iova, rd := true, wr := true }
  .next (if (s.preqs ++ s.atsq).any fun q => Atc.same p q && q.since + 1000000 ≤ s.iod then s.priFail p else s)

/-- A read under a translation has not all its completions, or a write under it has not been sent (R446). -/
def State.invBusy (s : State) (v : Inval) : Bool :=
  s.reqs.any fun r => (match r.body with | .read _ | .data .. | .write _ | .amo .. => true | _ => false) &&
    hostAddr v.func v.pasid v.iova ≤ r.pa && r.pa < hostAddr v.func v.pasid (v.iova + 4096 * v.pages)

/-- The Invalidation Completions that are withheld no longer are sent (R446). -/
def State.invPump (s : State) : State :=
  let done := s.invs.filter fun v => !(s.invBusy v)
  { s with
    invs := s.invs.filter s.invBusy
    outs := s.outs ++ done.map fun v => .inv v.func v.pasid v.iova }

/-- INVALIDATE_REQUEST (R446): new accesses translate afresh at once, and the completion is sent once reads have their data and writes are
sent. The queue is 32 deep (Table 15-1). -/
def State.atsInvalidate (func pasid iova pages : Nat) (s : State) : State :=
  if 32 ≤ s.invs.length then s
  else
    let hit (x : Atc) : Bool := x.func = func && x.pasid = pasid && iova ≤ x.iova && x.iova < iova + 4096 * pages
    let far (e : Pte) : Bool := e.state = 2 && e.func = func && e.pasid = pasid && e.loc.toNat < iova + 4096 * pages && iova < e.loc.toNat + e.size
    let s := s.dropTlbs fun _ e => far e
    ({ s with atc := s.atc.filter fun x => !(hit x), invs := s.invs ++ [({ func, pasid, iova, pages } : Inval)] }).invPump

def execInvalidateRequest (func pasid iova pages : Nat) (s : State) : Out1 := .next (s.atsInvalidate func pasid iova pages)

/-! ### A page as its drive holds it (R323, R478) -/

/-- Line i of a slot at rest: ciphertext under the page's key, with the tweak of drive, slot and line. -/
def State.slotLine (s : State) (key d : Nat) (p : DPage) (i : Nat) : List Byte :=
  Config.aesXts (dataKey ((s.secret? key).getD 0)) (2 ^ 96 + 2 ^ 64 * d + 2 ^ 32 * p.slot + i) (p.bytes.bytes (64 * i) 64)

/-- What the tags of a slot begin with: MAC key, drive, slot, key ID and version. -/
def State.slotHead (s : State) (key d : Nat) (p : DPage) : List Byte :=
  leBytes (macKey ((s.secret? key).getD 0)).toNat 32 ++ leBytes d 1 ++ leBytes p.slot 4 ++ leBytes key 1 ++ leBytes p.ver 8

/-- The page tag, over the 1,024 lines. -/
def State.pageTag (s : State) (key d : Nat) (p : DPage) : List Byte :=
  Config.shake256 (s.slotHead key d p ++ (List.range 1024).flatMap (s.slotLine key d p))

/-- Block 16 of a slot: the line tags, the version and the page tag. -/
def State.slotBlock16 (s : State) (key d : Nat) (p : DPage) : List Byte :=
  let tag (i : Nat) : List Byte :=
    if p.pois.contains i then poisonTag.take 3 else (Config.shake256 (s.slotHead key d p ++ leBytes i 4 ++ s.slotLine key d p i)).take 3
  slice ((List.range 1024).flatMap tag ++ leBytes p.ver 8 ++ s.pageTag key d p) 0 4096

/-! ### Storage (R336 to R339, R478) -/

/-- The poisoned units of a page read back (R478): none where tag and version hold; the failing lines; every line. -/
def DPage.bad (p : DPage) (trusted : Nat) : List Nat :=
  if p.ver != trusted then List.range 1024
  else if p.ok then p.pois
  else if p.pois.isEmpty then List.range 1024 else p.pois

/-- STORAGE_READ_COMPLETION: a failed Read is submitted again, up to three times in all (R338). -/
def State.storageRead (k : Nat) (ok : Bool) (s : State) : State :=
  match s.sops[k]? with
  | none => s
  | some o =>
    if o.kind != .read || o.pair.isNone then s
    else if !ok && o.tries < 3 then { s with sops := s.sops.set k { o with tries := o.tries + 1 } }
    else match (s.cx? o.ctx).bind (·.pte? o.va), (s.drive o.drive).slots.find? fun p => p.slot = o.slot with
      | some e, some p =>
        let bad := if ok then p.bad e.ver else List.range 1024
        let s := { s with
          mem := p.bytes.foldl (fun (m : Memory) (c : Nat × Byte) => m.set (o.frame + c.1) c.2) s.mem
          poison := bad.foldl (fun l u => insertNat (o.frame / 64 + u) l) s.poison }
        let s := if bad.isEmpty then s else s.mcheck 5 o.ctx o.va
        let s := (s.dropSop k).becomeResident o.ctx o.va o.frame false
        if (s.cx? o.ctx).any (fun x : Context => x.capture || x.replay.isSome) then
          ({ s.focusCx o.ctx with bd := { gone := true }, bds := if s.bd.gone then s.bds else s.bd :: s.bds }).record 4 p.ver (s.pageTag e.key o.drive p)
        else s
      | _, _ => (s.dropSop k).dropStaging o.frame

def execStorageReadCompletion (k : Nat) (ok : Bool) (s : State) : Out1 := .next (s.storageRead k ok)

/-- The resident backed pages of all contexts, in the sweep's order: by context, then by address. -/
def State.backed (s : State) : List (Nat × Pte) :=
  let le (a b : Nat × Pte) : Bool := a.1 < b.1 || (a.1 = b.1 && a.2.va ≤ b.2.va)
  (s.contexts.flatMap fun x => (x.ptes.filter fun e => e.bk && e.state = 0).map fun e => (x.id, e)).mergeSort le

/-- The page that the sweep looks at next: the first after the last, and round again (R339). -/
def State.sweepNext? (s : State) : Option (Nat × Pte) :=
  let l := s.backed
  (l.find? fun p => s.sweep.1 < p.1 || (s.sweep.1 = p.1 && s.sweep.2 < p.2.va)) <|> l.head?

/-- STORAGE_EVICTION: the sweep looks at one page (R339). A page with acc set is passed over; another is evicted: it is stored again, its
translations go, and a dirty one is written to its slot. It begins when fewer than 1/16 of the staging frames are free, and acts until
1/8 are. -/
def State.evict (s0 : State) : State :=
  let s := { s0 with evicting := s0.evicting || decide (16 * s0.stagingFree < s0.staging) }
  if !s.evicting then s
  else if s.staging ≤ 8 * s.stagingFree then { s with evicting := false }
  else match s.sweepNext? with
    | none => s
    | some (c, e) =>
      let s := { s with sweep := (c, e.va) }
      if e.acc then s.updCx c fun x => x.updPte e.va fun e => { e with ctl := e.ctl &&& ~~~0x8000000#64 }
      else match s.cx? c with
        | none => s
        | some x =>
          if !(s.drained x e.va e.size) then s
          else
            let s := s.updCx c fun x => x.updPte e.va fun e => { e with loc := 0, ctl := (e.ctl &&& ~~~0xC#64) ||| 4 }
            let s := s.invalidate c e.va e.size
            if e.dirty then s.submit { kind := .write, drive := e.drive, slot := e.slot, frame := e.loc.toNat, ctx := c, va := e.va, tries := 1 }
            else s.dropStaging e.loc.toNat

def execStorageEviction (s : State) : Out1 := .next s.evict

/-- The non-zero bytes and the poisoned units of a frame, as a page keeps them. -/
def State.frameBytes (s : State) (f : Nat) : Memory := (s.mem.filter fun c => f ≤ c.1 && c.1 < f + 65536).map fun c => (c.1 - f, c.2)
def State.framePois (s : State) (f : Nat) : List Nat := (s.poison.filter fun u => f / 64 ≤ u && u < f / 64 + 1024).map (· - f / 64)

/-- STORAGE_WRITE_COMPLETION: the page is on its slot under a new version, and its frame is free; or a Flush has ended. -/
def State.storageWrite (k : Nat) (s : State) : State :=
  match s.sops[k]? with
  | none => s
  | some o =>
    if o.kind = .read || o.pair.isNone then s
    else if o.kind = .flush then s.dropSop k
    else
      let b := s.frameBytes o.frame
      let q := s.framePois o.frame
      let v := (((s.cx? o.ctx).bind (·.pte? o.va)).map (·.ver)).getD 0 + 1
      let dr := s.drive o.drive
      let s := s.setDrive o.drive { dr with slots := dr.slots.map fun p =>
        if p.slot = o.slot then { p with bytes := b, pois := q, ok := q.isEmpty, ver := v } else p }
      let s := s.updCx o.ctx fun x => x.updPte o.va fun e => { e with ver := v }
      (s.dropSop k).dropStaging o.frame

def execStorageWriteCompletion (k : Nat) (s : State) : Out1 := .next (s.storageWrite k)

/-- Firmware issues a Flush to the drives that a test picks (R339). -/
def State.flushDrives (p : Nat → Bool) (s : State) : State :=
  ((List.range 8).filter p).foldl (fun s d => s.submit { kind := .flush, drive := d, slot := 0, frame := 0, ctx := 0, va := 0, tries := 1 }) s

/-- A drive as firmware finds it at bring-up: within the limits of Table 9-4 its I/O queue pairs are made; outside them it is left unused and
reported to the seat (R335). -/
def State.probeDrive (d : Nat) (n : Nvme) (s : State) : State :=
  let fit := n.block = 4096 && n.meta_ = 0 && 131072 ≤ n.mdts && 1 ≤ n.pairs && 2 ≤ n.depth
  let x := s.drive d
  if 8 ≤ d then s
  else if fit then s.setDrive d { x with fit := true, pairs := List.replicate (min 64 n.pairs) {}, depth := min 1024 n.depth, next := 0 }
  else (s.setDrive d { x with fit := false }).out (.driveUnused d)

end Sys2Proof.Machine
end

