-- ==== Sys2Proof/Machine/Queue.lean ====
section
/-! DEFINITION. User-mode queues: wakes, descriptors, the command processor, packets, errors and event rings (R449 to R462). -/
namespace Sys2Proof.Machine
open Sys2Proof

/-! ### Memory as the command processor reaches it -/

/-- A context in focus, with no bind record. -/
def State.atCx (c : Nat) (s : State) : State :=
  let s := s.focusCx c
  { s with bd := { gone := true }, bds := if s.bd.gone then s.bds else s.bd :: s.bds }

/-- A host address is reachable for a function (R447, R506). -/
def State.hostUp (s : State) (func : Nat) : Bool := s.linkUp && s.tdiSends func

/-- Bytes on a side: a context's virtual memory, or host memory of a function and PASID. -/
def State.sideRead (s : State) (host : Bool) (func pasid a n : Nat) : Except OpStop (List Byte) :=
  if host then
    if !(s.hostUp func) then .error (.fail none)
    else match s.cx.replay with
      | some l => .ok (((l.find? fun r => r.kind = 2 && r.addr = a).map fun r => slice r.data 0 n).getD (List.replicate n 0))
      | none => .ok ((List.range n).map fun i => s.host.get (hostAddr func pasid a + i))
  else match s.opBytes a n with
    | .error e => .error e.2
    | .ok x => if x.1.any s.opPoison then .error (.fail (some 4)) else .ok x.2

/-- What a read on a side leaves: accessed bits, or a capture record of host bytes. -/
def State.sideNote (host : Bool) (a : Nat) (b : List Byte) (s : State) : State :=
  if host then { s.record 2 a b with cx := (s.record 2 a b).cx.consume 2 a } else s.opReadNote (s.opSpots a false b.length).1

/-- Writes bytes on a side; none where a byte cannot be written. -/
def State.sideWrite (host : Bool) (func pasid a : Nat) (b : List Byte) (s : State) : Except OpStop State :=
  if host then
    if !(s.hostUp func) then .error (.fail none)
    else
      let s := s.output a b
      .ok (if s.cx.replay.isSome then s else s.perform 4 (cellsOf (hostAddr func pasid a) b))
  else match s.opSpots a true b.length with
    | (_, some e) => .error e
    | (ps, none) => .ok (s.opWrite (ps.zip b))

/-! ### Descriptors (R450) -/

/-- Where word i of descriptor q of the context in focus stands. -/
def State.descAt (s : State) (q i : Nat) : Nat :=
  ((s.cx.pte? (queueTab + 64 * q)).map fun e => e.phys (queueTab + 64 * q + 8 * i)).getD (2 ^ 95)
def State.desc (s : State) (q i : Nat) : Word := leWord (s.mem.bytes (s.descAt q i) 8)
def State.putDesc (q i : Nat) (w : Word) (s : State) : State :=
  let t := s.perform 4 (cellsOf (s.descAt q i) (leBytes w.toNat 8))
  { t with cx := t.cx.touch (queueTab + 64 * q) true }

def dKind (w0 : Word) : Nat := w0.toNat % 4
def dSide (w0 : Word) : Bool := w0.toNat / 4 % 4 = 1
def dRing (w0 : Word) : Nat := 2 ^ (w0.toNat / 2 ^ 20 % 16 + 4)
def dEvents (w0 : Word) : Nat := 2 ^ (w0.toNat / 2 ^ 28 % 16 + 4)
def dDie (w0 : Word) : Nat := w0.toNat / 2 ^ 34 % 4
def dFunc (w0 : Word) : Nat := w0.toNat / 2 ^ 36 % 256
def dPasid (w0 : Word) : Nat := w0.toNat / 2 ^ 44

/-- A reserved field or code, or a misaligned base (R450, R451). -/
def descBad (w0 base ev : Word) : Bool :=
  w0 &&& 0x30F0FFFF0#64 != 0 || w0.toNat / 2 ^ 20 % 16 > 12 || w0.toNat / 2 ^ 28 % 16 > 8 || 2 ≤ w0.toNat / 4 % 4 ||
  dKind w0 = 3 || 64 < dFunc w0 || base.toNat % (64 * dRing w0) != 0 || ev.toNat % 64 != 0

/-- Word 4. -/
def Queue.status (x : Queue) (bound : Bool) : Word :=
  wordN ((if x.err then 1 else 0) + (if bound then 4 else 0) + 256 * x.code.toNat + (if x.ovp then 2 ^ 16 else 0) + 2 ^ 32 * min x.ovf (2 ^ 32 - 1))

/-- A queue as its descriptor holds it. -/
def State.loadQueue (s : State) (q slot : Nat) : Queue :=
  let w0 := s.desc q 0
  let st := (s.desc q 4).toNat
  let rd := (s.desc q 2).toNat
  { ctx := s.cx.id, q, die := dDie w0, slot, w0, base := s.desc q 1, evBase := s.desc q 5, rd, evw := (s.desc q 6).toNat
    evr := (s.desc q 7).toNat, ovf := st / 2 ^ 32, ovp := st.testBit 16, code := BitVec.ofNat 8 (st / 256), err := st.testBit 0
    pend := false, look := [], ahead := rd, stop := false, joined := false, busy := none, launch := false }

/-- Writes rd, the status and the event indices to the descriptor. -/
def State.saveQueue (x : Queue) (bound : Bool) (s : State) : State :=
  (((s.putDesc x.q 2 (wordN x.rd)).putDesc x.q 4 (x.status bound)).putDesc x.q 6 (wordN x.evw)).putDesc x.q 7 (wordN x.evr)

def Queue.is (c q : Nat) (x : Queue) : Bool := x.ctx = c && x.q = q
def State.queue? (s : State) (c q : Nat) : Option Queue := s.queues.find? (Queue.is c q)
def State.setQueue (x : Queue) (s : State) : State :=
  { s with queues := s.queues.map fun y => if Queue.is x.ctx x.q y then x else y }.putDesc x.q 4 (x.status true)

/-! ### Event rings (R461, R462) -/

/-- An event record's bytes. -/
def eventBytes (kind code w1 w2 w3 : Nat) : List Byte :=
  leBytes (2 ^ 63 + 256 * kind + code) 8 ++ leBytes w1 8 ++ leBytes w2 8 ++ leBytes w3 8 ++ List.replicate 32 0

/-- Writes an event record, or counts it where the ring is full. -/
def State.event (kind code w1 w2 w3 : Nat) (x : Queue) (s : State) : Queue × State :=
  if (x.evw + 2 ^ 32 - x.evr % 2 ^ 32) % 2 ^ 32 = dEvents x.w0 then ({ x with ovf := x.ovf + 1, ovp := true }, s)
  else
    let a := x.evBase.toNat + 64 * (x.evw % dEvents x.w0)
    let s := match s.sideWrite (dSide x.w0) (dFunc x.w0) (dPasid x.w0) a (eventBytes kind code w1 w2 w3) with | .ok t => t | .error _ => s
    ({ x with evw := x.evw + 1 }, s)

/-- The overflow record, once there is room (R462). -/
def State.overflow (x : Queue) (s : State) : Queue × State :=
  if x.ovp && (x.evw + 2 ^ 32 - x.evr % 2 ^ 32) % 2 ^ 32 != dEvents x.w0 then s.event 2 0 0 0 (min x.ovf (2 ^ 32 - 1)) { x with ovp := false }
  else (x, s)

/-- Acts on a queue of the context in focus, bound or not. -/
def State.withQueue (q : Nat) (f : Queue → State → Queue × State) (s : State) : State :=
  match s.queue? s.cx.id q with
  | some x => let r := f x s; r.2.setQueue r.1
  | none => let r := f (s.loadQueue q 0) s; r.2.saveQueue r.1 false

/-! ### Wakes (R456 to R458) -/

/-- What is left of a command buffer whose call has issued. -/
def Queue.inCall (x : Queue) : List QPkt := x.look.takeWhile fun p => !p.ring

/-- What look-ahead has read from the ring is forgotten: it reads again at rd (R459). -/
def Queue.reread (x : Queue) : Queue := { x with look := x.inCall, ahead := x.rd, joined := false }

/-- A wake value applied in the slot. -/
def State.applyWake (v : Word) (x : Queue) (s : State) : Queue × State :=
  let x := { x with pend := true, stop := false }
  let x := if v.getLsbD 63 && x.err then { x.reread with err := false, code := 0 } else x
  if v.getLsbD 62 then s.overflow { x with evr := v.toNat % 2 ^ 32 } else (x, s)

/-- The wake word after a wake is merged into it. -/
def mergeWake (w v : Word) : Word :=
  let w := w ||| 1 ||| (v &&& 0x8000000000000000)
  if v.getLsbD 62 then (w &&& ~~~0x40000000FFFFFFFF#64) ||| (v &&& 0x40000000FFFFFFFF) ||| 1 else w

/-- The wake router accepts a source (R456, R465). -/
def State.wakeFrom (s : State) (src : Src) (q : Nat) : Bool :=
  match src with
  | .host f _ => f = dFunc (s.desc q 0)
  | .ctx c => c = s.cx.id
  | .peer a c => (List.range 512).any fun p => (s.peer? p).any fun e => e.accept && e.addr = a && e.ctx = c

/-- A wake reaches its queue of the context in focus: its slot, or its wake word where it has none or leaves it (R457, R458). -/
def State.wakeIn (q : Nat) (v : Word) (s : State) : State :=
  match (s.queue? s.cx.id q).filter fun x => !x.leaving with
  | some x => let r := s.applyWake v x; r.2.setQueue r.1
  | none => s.putDesc q 3 (mergeWake (s.desc q 3) v)

/-- WAKE_WRITE: accepted from the sources of R456 alone. -/
def State.wake (src : Src) (c q bytes : Nat) (v : Word) (s : State) : State :=
  if (s.cx? c).isNone || bytes != 8 || 256 ≤ q then s
  else
    let s := s.atCx c
    if !(s.wakeFrom src q) then s
    else (s.record 1 v.toNat (leBytes q 8)).wakeIn q v

def execWakeWrite (src : Src) (ctx q bytes : Nat) (val : Word) (s : State) : Out1 :=
  .next (State.wake src ctx q bytes val (match src with | .host _ _ => { s with linkUp := true } | _ => s))

/-- Swaps the wake word with 0 and applies it to a bound queue. -/
def State.takeWake (x : Queue) (s : State) : Queue × State :=
  let v := s.desc x.q 3
  let s := s.putDesc x.q 3 0
  if v = 0 then (x, s) else s.applyWake v x

/-- QUEUE_BIND (R451, R458): a bad descriptor is put into error with code 0x02. -/
def State.bindQueue (c q slot : Nat) (s : State) : State :=
  if (s.cx? c).isNone || 256 ≤ q || 64 ≤ slot || (s.queue? c q).isSome then s
  else
    let s := s.atCx c
    let x := s.loadQueue q slot
    if dKind x.w0 = 0 || dKind x.w0 = 2 || s.queues.any (fun y => y.die = x.die && y.slot = slot) then s
    else if descBad x.w0 x.base x.evBase then s.putDesc q 4 ({ x with err := true, code := 2 }.status false)
    else
      let r := { s with queues := s.queues ++ [x] }.takeWake x
      r.2.setQueue { r.1 with pend := true }

def execQueueBind (ctx q slot : Nat) (s : State) : Out1 := .next (s.bindQueue ctx q slot)

/-- QUEUE_UNMAP, which ends once no packet is issuing: a wake that came meanwhile binds the queue again at once (R458). -/
def State.unbindQueue (c q : Nat) (s : State) : State :=
  match s.queue? c q with
  | none => s
  | some x =>
    if x.busy.isSome || !x.inCall.isEmpty then (s.atCx c).setQueue { x with leaving := true }
    else
      let s := (s.atCx c).saveQueue x false
      let s := if x.pend then s.putDesc q 3 (s.desc q 3 ||| 1) else s
      let s := { s with queues := s.queues.filter fun y => !(Queue.is c q y) }
      if s.desc q 3 = 0 then s else s.bindQueue c q x.slot

def execQueueUnmap (ctx q : Nat) (s : State) : Out1 := .next (s.unbindQueue ctx q)

/-! ### Packets (R452, R453) -/

def QPkt.type (p : QPkt) : Nat := p.w[0].toNat / 2 ^ 32 % 256
def packetOf (b : List Byte) (ring : Bool) (depth : Nat) : QPkt :=
  { w := Vector.ofFn fun i : Fin 8 => wordN (fieldAt b (8 * i.val) 8), ring, depth }

/-- The error code of a packet that is reserved, malformed or nested too deep (R452, R453, Table 15-5). -/
def QPkt.fault (p : QPkt) : Option (BitVec 8) :=
  let z (l : List (Fin 8)) : Bool := l.all fun i => p.w[i] = 0
  let head := p.w[0].toNat / 2 ^ 40 % 2 ^ 23 = 0 && p.w[1].toNat / 2 % 4 = 0
  let pages := 1 ≤ p.w[4].toNat && p.w[4].toNat ≤ 65536
  let ok := match p.type with
    | 1 | 5 | 6 => z [2, 3, 4, 5, 6, 7]
    | 2 => z [6, 7] && pages && p.w[2].toNat % 65536 = 0 && p.w[3].toNat % 65536 = 0 && p.w[5] &&& ~~~0x307FF#64 = 0 &&
        attrLegal (p.w[5].setWidth 11)
    | 3 => z [3, 5, 6, 7] && pages && p.w[2].toNat % 65536 = 0
    | 4 => z [4, 5, 6, 7] && p.w[2].toNat % 64 = 0 && 1 ≤ p.w[3].toNat && p.w[3].toNat ≤ 4096
    | _ => true
  if p.type = 0 || 6 < p.type then some 1
  else if !(head && ok) then some 2
  else if p.type = 4 && p.depth = 4 then some 4
  else none

/-- Where ring slot i lies. -/
def Queue.at (x : Queue) (i : Nat) : Nat := x.base.toNat + 64 * (i % dRing x.w0)

/-- The faulting packet's header is cleared and rd passes it; the queue stops in error, with an event record (R459). A packet of a command
buffer has left the ring with its call. -/
def State.queueError (code : BitVec 8) (x : Queue) (p : QPkt) (s : State) : State :=
  let s := if p.ring then (match s.sideWrite (dSide x.w0) (dFunc x.w0) (dPasid x.w0) (x.at x.rd) (List.replicate 8 0) with
    | .ok t => t | .error _ => s) else s
  let at_ := if p.ring then x.rd else x.rd - 1
  let rd := if p.ring then x.rd + 1 else x.rd
  let r := s.event 1 code.toNat at_ p.w[0].toNat 0
    { x with rd, err := true, code, look := [], ahead := rd, joined := false, busy := none, launch := false }
  r.2.setQueue r.1

/-- An error without a packet (R448, or a ring that cannot be read). What issues already runs on to its completion. -/
def State.queueStop (code : BitVec 8) (x : Queue) (s : State) : Queue × State :=
  s.event 1 code.toNat x.rd 0 0 { x.reread with err := true, code }

/-- LOOK_AHEAD reads the next packet, its header first (R453, R454); a packet that is bad, or that cannot be read, puts the queue into error
once it is next (R459). -/
def State.lookAt (c q : Nat) (s : State) : State :=
  match s.queue? c q with
  | none => s
  | some x =>
    let s := s.atCx c
    let bad := if x.err || x.busy.isSome then none else match x.look with
      | p :: _ => if p.fin then none else p.fault.map fun f => (f, p)
      | [] => none
    match bad with
    | some (f, p) => s.queueError f x p
    | none =>
      if x.err || x.stop || !x.pend || x.joined || x.leaving || 32 ≤ x.look.length then s
      else
        let host := dSide x.w0
        match s.sideRead host (dFunc x.w0) (dPasid x.w0) (x.at x.ahead) 64 with
        | .error (.wait w) => s.opNote w.va (.wait w)
        | .error e =>
          if x.busy.isSome || !x.look.isEmpty then s
          else let r := (s.opNote (x.at x.ahead) e).queueStop 3 x; r.2.setQueue r.1
        | .ok b =>
          let s := s.sideNote host (x.at x.ahead) b
          let p := packetOf b true 0
          if p.w[0].getLsbD 63 then s.setQueue { x with look := x.look ++ [p], ahead := x.ahead + 1, joined := p.type = 5 }
          else s.setQueue { x with stop := true, pend := x.ahead != x.rd }

def execLookAhead (ctx q : Nat) (s : State) : Out1 := .next (s.lookAt ctx q)

/-- Issues the next packet where it has the type an event names (R453): its header is cleared, rd rises, and its effect begins. The effect
answers none where it must wait, or the error code that stops the queue. -/
def State.issuePacket (c q type : Nat) (f : Queue → QPkt → State → Except (Option (BitVec 8)) (Queue × State)) (s : State) : State :=
  match s.queue? c q with
  | none => s
  | some x =>
    let s := s.atCx c
    match x.look with
    | [] => s
    | p :: rest =>
      if x.err || x.busy.isSome || p.fin || (x.leaving && p.ring) || s.cx.retired then s
      else match p.fault with
        | some code => s.queueError code x p
        | none =>
          if p.type != type then s
          else match f { x with look := rest, busy := some p, rd := if p.ring then x.rd + 1 else x.rd } p s with
            | .error none => s
            | .error (some code) => s.queueError code x p
            | .ok (y, t) =>
              if p.ring then
                match t.sideWrite (dSide x.w0) (dFunc x.w0) (dPasid x.w0) (x.at x.rd) (List.replicate 8 0) with
                | .ok t => t.setQueue y
                | .error (.wait w) => s.opNote w.va (.wait w)
                | .error _ => s.queueError 3 x p
              else t.setQueue y

/-- A new launch of a context's graph (R364). -/
def Context.launch (q : Option Nat) (x : Context) : Context :=
  { x with
    running := true, launchQ := q, status := 0, failTask := 0xFFFF, failCause := 0, failVal := 0, failTid := 0
    ws := x.ws.map fun w => { w with by_ := none }
    tasks := x.tasks.map fun t => { t with st := .waiting, deadline := false, pages := [] } }

def execLaunch (ctx q : Nat) (s : State) : Out1 := .next (s.issuePacket ctx q 1 fun x _ s =>
  if s.cx.running then .error none else .ok ({ x with launch := true }, { s with cx := s.cx.launch (some q) }))

/-- map: host leaves with the queue's function and PASID, charged to nothing (R444). -/
def State.mapHost (x : Queue) (p : QPkt) (s : State) : Except (Option (BitVec 8)) (Queue × State) :=
  let va := p.w[2].toNat
  let n := p.w[4].toNat
  if 2 ^ 56 < va + 65536 * n || meetsWin va (65536 * n) || meetsFixed va (65536 * n) || s.cx.ptes.any (fun e => e.meets va (65536 * n)) then
    .error (some 3)
  else
    let leaf (i : Nat) : Pte :=
      ⟨va + 65536 * i, 4, leafCtl 2 s.cx.key (p.w[5].getLsbD 16) (p.w[5].getLsbD 17) false false false (p.w[5].setWidth 11) 0 0,
        p.w[3] + wordN (65536 * i), dFunc x.w0, dPasid x.w0, 0⟩
    .ok (x, { s with cx := s.addTabs ((List.range n).map leaf) { s.cx with ptes := s.cx.ptes ++ (List.range n).map leaf } })

def execMap (ctx q : Nat) (s : State) : Out1 := .next (s.issuePacket ctx q 2 State.mapHost)

/-- unmap of host leaves, complete under the condition of R329. -/
def State.unmapHost (x : Queue) (p : QPkt) (s : State) : Except (Option (BitVec 8)) (Queue × State) :=
  let va := p.w[2].toNat
  let len := 65536 * p.w[4].toNat
  match s.cx.run p.w[4].toNat va with
  | none => .error (some 3)
  | some es =>
    if es.any fun e => e.state != 2 then .error (some 3)
    else if !(s.drained s.cx va len) then .error none
    else .ok (x, (s.unmapLeaves es).invalidate s.cx.id va len)

def execUnmap (ctx q : Nat) (s : State) : Out1 := .next (s.issuePacket ctx q 3 State.unmapHost)

/-- call: the buffer's packets in its place, and the mark of its end. -/
def State.callBuffer (x : Queue) (p : QPkt) (s : State) : Except (Option (BitVec 8)) (Queue × State) :=
  let host := dSide x.w0
  match s.sideRead host (dFunc x.w0) (dPasid x.w0) p.w[2].toNat (64 * p.w[3].toNat) with
  | .error (.wait _) => .error none
  | .error _ => .error (some 3)
  | .ok b =>
    let ps := (List.range p.w[3].toNat).map fun i => packetOf (slice b (64 * i) 64) false (p.depth + 1)
    .ok ({ x with look := ps ++ { p with ring := false, fin := true } :: x.look, busy := none }, s.sideNote host p.w[2].toNat b)

def execCallPacket (ctx q : Nat) (s : State) : Out1 := .next (s.issuePacket ctx q 4 State.callBuffer)
def execJoin (ctx q : Nat) (s : State) : Out1 := .next (s.issuePacket ctx q 5 fun x p s =>
  .ok (if p.ring then { x with joined := false } else x, s))
def execSignal (ctx q : Nat) (s : State) : Out1 := .next (s.issuePacket ctx q 6 fun x _ s => .ok (x, s))

/-- The completion signal: an atomic subtraction of 1, a release at sys scope (R455). -/
def State.signalDown (x : Queue) (a : Word) (s : State) : Except OpStop State :=
  if a = 0 then .ok s
  else
    let host := a.getLsbD 0
    let va := a.toNat / 8 * 8
    match s.sideRead host (dFunc x.w0) (dPasid x.w0) va 8 with
    | .error e => .error e
    | .ok b => s.sideWrite host (dFunc x.w0) (dPasid x.w0) va (leBytes ((leWord b) - 1).toNat 8)

/-- A queue that leaves its slot does so once it can. -/
def State.leaveSlot (x : Queue) (s : State) : State := if x.leaving then s.unbindQueue x.ctx x.q else s

/-- PACKET_COMPLETION: of the packet that has issued, once a launch it started has ended; or of a call, at the end of its buffer. -/
def State.packetDone (c q : Nat) (s : State) : State :=
  match s.queue? c q with
  | none => s
  | some x =>
    let s := s.atCx c
    let next : Option (QPkt × Queue) := match x.busy, x.look with
      | some p, _ => if x.launch then none else some (p, { x with busy := none })
      | none, p :: rest => if p.fin then some (p, { x with look := rest }) else none
      | none, [] => none
    match next with
    | none => s
    | some (p, y) =>
      match s.signalDown x p.w[1] with
      | .ok t => (t.setQueue y).leaveSlot y
      | .error (.wait w) => s.opNote w.va (.wait w)
      | .error e => let r := (s.opNote 0 e).queueStop 3 y; r.2.setQueue r.1

def execPacketCompletion (ctx q : Nat) (s : State) : Out1 := .next (s.packetDone ctx q)

/-! ### Functions that lose their requests (R448, R506) -/

/-- Every enabled command queue of the context in focus. -/
def State.cmdQueues (s : State) : List Nat := (List.range 256).filter fun q => dKind (s.desc q 0) = 1

/-- A function's translations go, what waits for its page requests fails, and its queues go into error with code 0x05 (R448). -/
def State.dropFunc (func : Nat) (s : State) : State :=
  let s := { s.dropTlbs fun _ e => e.state = 2 && e.func = func with
    atc := s.atc.filter fun x => x.func != func, atsq := s.atsq.filter fun x => x.func != func }
  let s := (s.preqs.filter fun x => x.func = func).foldl (fun s p => s.priFail p) s
  (s.contexts.map (·.id)).foldl (fun s c =>
    let s := s.atCx c
    (s.cmdQueues.filter fun q => dFunc (s.desc q 0) = func).foldl (fun s q => s.withQueue q fun x s => s.queueStop 5 x) s) s

/-- TDI_LEAVES_RUN (R448). -/
def State.tdiLeaves (func : Nat) (s : State) : State :=
  if h : 1 ≤ func ∧ func < 65 then
    if s.tdi[func] = .run then { s with tdi := s.tdi.set func .error }.dropFunc func else s
  else s

def execTdiLeavesRun (func : Nat) (s : State) : Out1 := .next (s.tdiLeaves func)

/-- TDISP_REQUEST: lock, start and stop move the TDI (Table 15-1); stop from RUN leaves RUN. -/
def State.tdisp (func : Nat) (r : TdiReq) (s : State) : State :=
  if h : 1 ≤ func ∧ func < 65 then
    match r, s.tdi[func] with
    | .lock, .unlocked => { s with tdi := s.tdi.set func .locked }
    | .start, .locked => { s with tdi := s.tdi.set func .run }
    | .stop, .run => { s with tdi := s.tdi.set func .unlocked }.dropFunc func
    | .stop, _ => { s with tdi := s.tdi.set func .unlocked }
    | _, _ => s
  else s

/-- A link that was reset is up again when the host speaks on it (log 20). -/
def State.heard (s : State) : State := { s with linkUp := true }

def execTdispRequest (func : Nat) (req : TdiReq) (s : State) : Out1 := .next (s.heard.tdisp func req)

/-- IDE_KM_MESSAGE: keys are set on a function's selective stream, which is secure from then on (R442). At most 16 streams. -/
def execIdeKmMessage (func : Nat) (s : State) : Out1 :=
  .next (if h : func < 65 then
    (if (s.ide.toList.filter id).length < 16 || s.ide[func] then { s.heard with ide := s.ide.set func true } else s.heard) else s)

/-- CONVENTIONAL_RESET resets the host-link endpoint alone: contexts run on, every TDI leaves RUN, and the link is down (R506). -/
def State.linkReset (s : State) : State :=
  let run := (List.range 65).filter fun f => decide (s.tdi.toList[f]? = some .run)
  let s := (run.foldl (fun s f => s.dropFunc f) s).dropTlbs fun _ e => e.state = 2
  { s with linkUp := false, atc := [], tdi := Vector.replicate 65 .unlocked, ide := Vector.replicate 65 false }

def execConventionalReset (s : State) : Out1 := .next s.linkReset

/-- FUNCTION_LEVEL_RESET: of PF0, as a conventional reset; of a VF, as its TDI leaving RUN (R506). -/
def execFunctionLevelReset (func : Nat) (s : State) : Out1 :=
  if func = 0 then .next s.linkReset
  else if h : func < 65 then .next ({ s with tdi := s.tdi.set func .unlocked }.dropFunc func)
  else .next s

end Sys2Proof.Machine
end

