-- ==== Sys2Proof/Machine/Admit.lean ====
section
/-! DEFINITION. Images (R357, R358), admission (R353 to R366), time notes (R367 to R369), redemption and receipts (R371 to R376), warrant
operations where the IOD performs them (R295 to R298), launch ends (R364), and the end of a context (R297, R370). -/
namespace Sys2Proof.Machine
open Sys2Proof

/-- A presentation slot's area ends here (R359). -/
def areaEnd : Nat := 0x4001000

/-! ### Images (R357, R358) -/

/-- A section entry (Table 11-4). -/
structure Sect where
  base : Nat
  size : Nat
  off : Nat
  attr : BitVec 11
  code : Bool
  tier : Nat
  deriving DecidableEq, Repr

def zeros (b : List Byte) (o n : Nat) : Bool := (slice b o n).all (· = 0)

/-- Section i of an image; none where its entry breaks the table. -/
def sectOf (b : List Byte) (i : Nat) : Option Sect :=
  let o := 64 + 32 * i
  let f (k n : Nat) : Nat := fieldAt b (o + k) n
  let attr := BitVec.ofNat 11 (f 24 2)
  if f 0 8 % 65536 != 0 || f 16 8 % 64 != 0 || b.length < f 16 8 + f 8 8 || 2 ^ 11 ≤ f 24 2 || !(attrLegal attr) || 1 < f 26 1 || 2 < f 27 1 ||
      f 28 4 != 0 || (f 26 1 = 1 && (attr != rawAttr || f 27 1 != 0)) then none
  else some ⟨f 0 8, f 8 8, f 16 8, attr, f 26 1 = 1, f 27 1⟩

/-- The pages of a section: at least one (R197). -/
def Sect.pages (x : Sect) : Nat := max 1 ((x.size + 65535) / 65536)

/-- A section's pages overlap another's, or leave the space that programs have. -/
def Sect.clash (x y : Sect) : Bool := decide (x.base < y.base + 65536 * y.pages) && decide (y.base < x.base + 65536 * x.pages)
def sectsBad : List Sect → Bool
  | [] => false
  | x :: r => meetsWin x.base (65536 * x.pages) || meetsFixed x.base (65536 * x.pages) || r.any x.clash || sectsBad r

/-- Task j of an image (Table 11-5); none where its entry breaks the table. -/
def taskOf (b : List Byte) (ss : List Sect) (low nt j : Nat) : Option Task :=
  let o := 64 + 32 * ss.length + 32 * j
  let f (k n : Nat) : Nat := fieldAt b (o + k) n
  let np := f 18 2
  let preds := (List.range np).map fun k => fieldAt b (f 20 4 + 2 * k) 2
  let gale := f 11 1 = 2
  if 47 < f 8 1 || 15 < f 9 1 || 7 < f 10 1 || 2 < f 11 1 || f 12 4 % 24 != 0 || 16777200 < f 12 4 || f 16 2 = 0 ||
      (if gale then 512 else 256) < f 16 2 || (gale && f 9 1 % 2 = 0) || f 24 8 != 0 || (np != 0 && low < f 20 4 + 2 * np) ||
      preds.any (nt ≤ ·) || !(ss.any fun x => x.code && x.base ≤ f 0 8 && f 0 8 < x.base + x.size) then none
  else some { num := j, entry := wordN (f 0 8), rows := f 8 1 + 1, cols := f 9 1 + 1, thr := f 10 1 + 1
              heat := if gale then .gale else if f 11 1 = 1 then .breeze else .still, kslice := f 12 4, spad := f 16 2, preds }

/-- The graph has no cycle: every task falls within as many rounds as there are tasks. -/
def acyclic (ts : List Task) : Nat → List Nat → Bool
  | 0, done => ts.all fun t => done.contains t.num
  | n + 1, done => acyclic ts n (done ++ ((ts.filter fun t => !(done.contains t.num) && t.preds.all done.contains).map (·.num)))

def allSome {α : Type} : List (Option α) → Option (List α)
  | [] => some []
  | none :: _ => none
  | some x :: r => (allSome r).map (x :: ·)

/-- An image's sections and tasks; none where it is malformed. -/
def parseImage (b : List Byte) : Option (List Sect × List Task) :=
  let ns := fieldAt b 6 2
  let nt := fieldAt b 8 2
  if b.length < 64 || fieldAt b 0 4 != 0x4D495A4F || fieldAt b 4 2 != 1 || ns = 0 || 64 < ns || nt = 0 || 1024 < nt || !(zeros b 10 6) ||
      fieldAt b 16 8 != b.length || !(zeros b 24 40) then none
  else match allSome ((List.range ns).map (sectOf b)) with
    | none => none
    | some ss =>
      let low := (ss.map (·.off)).foldl min b.length
      if low < 64 + 32 * ns + 32 * nt || sectsBad ss then none
      else match allSome ((List.range nt).map (taskOf b ss low nt)) with
        | none => none
        | some ts => if acyclic ts nt [] then some (ss, ts) else none

def round8 (n : Nat) : Nat := (n + 7) / 8 * 8
/-- The charge of an image in threads, memory and storage. -/
def chargeOf (ss : List Sect) (ts : List Task) : Nat × Nat × Nat :=
  let sum (p : Sect → Bool) : Nat := ((ss.filter fun x => !x.code && p x).map fun x => round8 x.size).sum
  ((ts.map Task.threads).foldl max 0, sum fun x => x.tier < 2, sum fun x => x.tier = 2)

/-- Maps the sections and copies their contents. -/
def State.mapSects (key : Nat) (img : List Byte) : List Sect → State → Option (List Pte × State)
  | [], s => some ([], s)
  | x :: r, s =>
    let how : MapHow := { key, attr := x.attr, rd := true, w := !x.code, x := x.code, lock := x.code, tier := x.tier }
    match s.mapPages how x.pages x.base with
    | none => none
    | some (es, s) =>
      let s := (es.zip (chunks 65536 x.pages (slice img x.off x.size))).foldl (fun s (p : Pte × List Byte) => s.pagePut p.1 p.2) s
      (State.mapSects key img r s).map fun y => (es ++ y.1, y.2)

/-- Builds a context on an image (R362 step 9, R363 items 2, 3 and 5): the status that ends the build, or the context. -/
def State.build (x : Context) (img : List Byte) (s : State) : Except (BitVec 8) (Context × State) :=
  match parseImage img with
  | none => .error 0x20
  | some (ss, ts) =>
    let c := chargeOf ss ts
    if x.quota[0] < c.1 || x.quota[1] < c.2.1 || x.quota[2] < c.2.2 then .error 0x29
    else match s.mapSects x.key img ss with
      | none => .error 0x28
      | some (es, s) => match s.mapFixed x.id x.key with
        | none => .error 0x28
        | some (fx, s) =>
          let use : Vector Nat 8 := #v[0, c.2.1, c.2.2, 0, 0, 0, 0, 0]
          .ok (s.addTabs (es ++ fx) { x with ptes := es ++ fx, tasks := ts, img, use, running := true }, s)

/-- The lowest number below 128 that a test leaves free. -/
def lowest (used : Nat → Bool) : Nat := ((List.range 128).find? fun n => !(used n)).getD 0

/-- A new context's number, key ID and name. -/
def State.newCx (s : State) : Context :=
  { id := lowest fun n => (s.cx? n).isSome, key := lowest fun n => s.keyUse.contains n, uid := s.nextUid
    ws := (Vector.replicate 8 ({} : WSlot)).set 0 { st := .funding } }

/-- Enters a context: its key ID, with the keys drawn for it, and its number are taken, and its amounts leave F (R363 item 1, R480). -/
def State.enter (x : Context) (s : State) : State :=
  { s.addCx x with kfree := s.kfree - 1, keyUse := x.key :: s.keyUse, nextUid := s.nextUid + 1 }.drawKeys x.key

/-- A context that makes room for another is of a lower class: spare ones for any, shared ones for shared and reserved (R378, R379). -/
def Context.yields (x y : Context) : Bool := y.cls != 0 && (y.cls = 2 || x.cls != 2)

/-- Slot table entries of a physical core that contexts hold which do not make room for x. -/
def State.heldFrom (s : State) (x : Context) (p : Nat) : Nat :=
  ((s.binds.filter fun b => s.phys? b.core = some p && (s.cx? b.ctx).any fun y => !(x.yields y)).map fun b =>
    ((List.range 64).filter b.mask.getLsbD).length).sum

/-- A rectangle of a die can be made free for a task (R384, R398, R399). -/
def State.roomAt (s : State) (x : Context) (t : Task) (die row col : Nat) : Bool :=
  let gale := t.heat = .gale
  (!gale || (row % 2 = 0 && col % 2 = 0)) && (List.range t.rows).all fun r => (List.range t.cols).all fun c =>
    let h := s.heldFrom x (768 * die + 16 * (row + r) + col + c)
    if gale then h = 0 else decide (h + x.slots ≤ 64)

/-- Room can be made for a first task of a context. DESIGN CHOICE (log 51): what firmware counts as room in R363 item 8. -/
def State.roomFor (s : State) (x : Context) : Bool :=
  x.tasks.any fun t => t.preds.isEmpty && (List.range 4).any fun d => (List.range (49 - t.rows)).any fun r =>
    (List.range (17 - t.cols)).any fun c => s.roomAt x t d r c

/-- A context is parked on admission where no room can be made; a reserved one never is (R363 item 8, R378). -/
def State.parkOn (s : State) (x : Context) : Bool := x.cls != 0 && !(s.roomFor x)

/-! ### Records, time and redemption (R355, R356, R367, R371) -/

/-- Kinds k of an amount vector at an offset. -/
def amounts (b : List Byte) (o : Nat) : Vector Nat 8 := Vector.ofFn fun k : Fin 8 => fieldAt b (o + 8 * k.val) 8
def amtLe (a b : Vector Nat 8) : Bool := (List.finRange 8).all fun k => decide (a[k] ≤ b[k])
def amtAdd (a b : Vector Nat 8) : Vector Nat 8 := Vector.ofFn fun k : Fin 8 => a[k] + b[k]
def amtSub (a b : Vector Nat 8) : Vector Nat 8 := Vector.ofFn fun k : Fin 8 => a[k] - b[k]

def recBad (r : List Byte) : Bool :=
  let f (o n : Nat) : Nat := fieldAt r o n
  f 0 4 != 0x31475A4F || f 4 2 != 1 || 15 < f 6 1 || 2 < f 7 1 || (f 7 1 = 1 && f 192 2 = 0) || (f 7 1 != 1 && f 192 2 != 0) ||
  f 194 1 = 0 || 63 < f 194 1 || f 120 8 ≤ f 112 8 || !(zeros r 168 24) || !(zeros r 195 317) || !(zeros r 3821 19) ||
  !(zeros r 3856 240) || f 3848 8 < 64 || 2 ^ 26 < f 3848 8

def recSlot (r : List Byte) : Nat := fieldAt r 6 1
def recSerial (r : List Byte) : Nat := fieldAt r 8 8
def deviceId : List Byte := Config.shake256 Config.deviceKey
def recHome (r : List Byte) : Bool := slice r 16 32 = deviceId

def State.timeOk (s : State) (r : List Byte) : Bool :=
  match s.bound (recSlot r) with
  | some b => decide (fieldAt r 112 8 ≤ b.1) && decide (b.2.1 < fieldAt r 120 8)
  | none => false

/-- Steps 1 to 3 of R362. -/
def State.signed (s : State) (r : List Byte) : Option (BitVec 8) :=
  if recBad r then some 0x20
  else if !(s.kslot (recSlot r)).loaded then some 0x21
  else if !(Config.mldsaVerify (s.kslot (recSlot r)).key (slice r 0 512) (slice r 512 3309)) then some 0x22
  else none

/-- Steps 1 to 4. -/
def State.recCheck (s : State) (r : List Byte) : Option (BitVec 8) :=
  match s.signed r with
  | some x => some x
  | none => if s.timeOk r then none else some 0x24

def KeySlot.spent (k : KeySlot) (n : Nat) : Bool := decide (n < k.floor) || (decide (n ≤ k.floor + 4095) && k.window.getLsbD (n - k.floor))

/-- Commit of R371. A serial below the floor is spent already. -/
def KeySlot.commit (k : KeySlot) (n : Nat) : KeySlot :=
  if n < k.floor then k else
  let k := if k.floor + 4095 < n then { k with window := k.window >>> (n - k.floor - 4095), floor := n - 4095 } else k
  { k with window := k.window ||| (1#4096 <<< (n - k.floor)) }

/-- Step 6 at home: redeemed, or reserved for a receipt. -/
def State.isSpent (s : State) (r : List Byte) : Bool :=
  (s.kslot (recSlot r)).spent (recSerial r) || s.resv.any fun x => x.kslot = recSlot r && x.serial = recSerial r

/-- R375, but for the nonce's use. -/
def State.receiptOk (s : State) (r q : List Byte) : Bool :=
  decide (fieldAt q 0 4 = 0x50525A4F) && decide (fieldAt q 4 2 = 1) && decide (Config.shake256 (slice q 128 1952) = slice r 16 32) &&
  Config.mldsaVerify (slice q 128 1952) (slice q 0 2080) (slice q 2080 3309) && decide (slice q 8 32 = Config.shake256 (slice r 0 512)) &&
  decide (slice q 40 32 = deviceId) && s.rnonces.any fun x => x.1 = slice q 72 32 && s.iod ≤ x.2 + 60000000

/-- Step 8 (R377). -/
def State.classRoom (s : State) (cls : Nat) (a : Vector Nat 8) : Bool :=
  let res := (s.contexts.filter fun x => x.cls = 0).foldl (fun t x => amtAdd t x.aw) (Vector.replicate 8 0)
  amtLe a s.free_ && (cls != 0 || amtLe (amtAdd res a) s.cap)

/-! ### The end of a context (R297, R370, R481) -/

/-- What is left of a context's on the cores and on the way goes with it. -/
def State.stopContext (c : Nat) (s : State) : State :=
  let other (k : TKey) : Bool := k.ctx != c
  let pkt (p : Pkt) : Bool := match p with
    | .link _ x _ _ _ => x != c
    | .arrival x _ _ _ _ => x != c
    | .release x _ _ _ _ _ _ => x != c
    | .gang k _ _ => other k
    | .msg m | .refuse m _ => other m.src
    | .window _ _ => true
  let clear (y : Core) : Core :=
    let x : Core := { y with
      tlb := y.tlb.filter (fun t => t.ctx != c)
      slots := y.slots.map fun e => match e with | some (d, _) => if d = c then none else e | none => none }
    if x.holder = some c then { x with holder := none, eng := {}, lnkw := none, lnke := none, bar := Vector.replicate 4 {} } else x
  { s.mapCores clear with
    th := if s.th.ctx = c then { s.th with exited := true } else s.th
    ths := s.ths.filter (fun t => t.ctx != c)
    bd := if s.bd.ctx = c then { s.bd with gone := true } else s.bd
    bds := s.bds.filter (fun b => b.ctx != c)
    reqs := s.reqs.filter (fun r => r.ctx != c)
    pkts := s.pkts.filter pkt
    walks := s.walks.filter (fun w => w.ctx != c)
    groups := s.groups.filter (fun g => g.ctx != c)
    nets := s.nets.filter (fun n => n.ctx != c)
    pends := s.pends.filter (fun p => p.rec_[0].toNat / 256 % 128 != c)
    queues := s.queues.filter fun q => q.ctx != c }

/-- A Read for the context lapses, and its staging frame is free. -/
def State.dropReads (c : Nat) (s : State) : State :=
  (s.sops.filter fun o => o.ctx = c && o.kind = .read).foldl (fun s o => s.dropStaging o.frame)
    { s with sops := s.sops.filter fun o => !(o.ctx = c && o.kind = .read) }

/-- The key ID of a context is released (R481): lines and structures are discarded, root and keys are gone, and its pages go back. Firmware
has the drives that held its pages flushed (R339). -/
def State.removeContext (c : Nat) (s : State) : State :=
  let s := ((s.stopContext c).dropReads c).focusCx c
  let held (d : Nat) : Bool := s.cx.ptes.any fun e => e.bk && e.drive = d
  let s := (s.destroyKey s.cx.key).flushDrives held
  let s := s.cx.ptes.foldl (fun s e => s.release e) s
  { s with kfree := s.kfree + 1, keyUse := s.keyUse.filter (· != s.cx.key), cx := { s.cx with dead := true } }

/-- The end of a context (R297): held amounts join Q, Q goes to the parent or to F, which a replay's amounts never left (R377, R495), and the slot that delegated it is empty, with the
warrant event for its thread (R306). -/
def State.endContext (c : Nat) (st : BitVec 8) (s : State) : State :=
  match s.cx? c with
  | none => s
  | some x =>
    let held := (List.finRange 8).foldl (fun q k => if x.ws[k].st = .held then amtAdd q x.ws[k].amt else q) x.quota
    let s := s.removeContext c
    match s.contexts.find? fun p => x.parent = some p.uid with
    | none => if x.replay.isSome then s else { s with free_ := amtAdd s.free_ held }
    | some p =>
      let slot := (List.finRange 8).find? fun k => p.ws[k].st = .delegated c
      let s := s.updCx p.id fun y => { y with quota := amtAdd y.quota held }
      match slot with
      | none => s
      | some k =>
        let note (t : Thread) : Thread :=
          if p.ws[k].by_ = some (t.key, t.task) && !t.exited then { t with irqs := t.irqs ++ [wordN (k.val + 256 * st.toNat)] } else t
        let s := s.updCx p.id fun y => { y.updWs k fun _ => {} with saved := y.saved.map fun v => { v with ths := v.ths.map note } }
        s.mapThreads note

/-! ### Launch ends (R364) -/

/-- A task may start: its predecessors have completed (R23, R297). -/
def Context.canStart (x : Context) (t : Task) : Bool :=
  t.st = .waiting && !x.surr && t.preds.all fun p => (x.task? p).any fun q => q.st = .done 0

def Context.launchOver (x : Context) : Bool :=
  x.running && x.tasks.all fun t => !t.st.onCores && t.st != .saved && !(x.canStart t)

/-- Ends the launch of the context in focus: the record's words, an event record on every enabled command queue, and the launch packet. -/
def State.endLaunch (st : BitVec 8) (s : State) : State :=
  let x := { s.cx with running := false, ended := s.cx.ended + 1, status := st, launchQ := none }
  let w1 := wordN (2 ^ 63 + 2 ^ 32 * x.failTask + st.toNat)
  let words := [wordN x.ended, w1, x.failCause, x.failVal, x.failTid, 0, 0, 0]
  let a := ((x.pte? graphArea).map fun e => e.phys graphArea).getD (2 ^ 95)
  let s := if x.replay.isSome then s.out (.replayEnd x.id x.replayBad) else s
  let s := { s with cx := x }.perform 4 (cellsOf a (words.flatMap fun (w : Word) => leBytes w.toNat 8))
  (s.cmdQueues.foldl (fun s q => s.withQueue q fun y s =>
    let r := s.event 3 st.toNat x.ended x.failTask 0 y
    ({ r.1 with launch := false }, r.2)) s)

/-- LAUNCH_END. -/
def State.launchEndAt (c : Nat) (s : State) : State :=
  match s.cx? c with
  | none => s
  | some x => if x.launchOver && !x.prov then (s.atCx c).endLaunch x.status else s

def execLaunchEnd (ctx : Nat) (s : State) : Out1 := .next (s.launchEndAt ctx)

/-- The context has no thread, no operation, no packet of a queue and no Write for a drive left (R297, R364, R481 step 1). -/
def State.idleCx (s : State) (c : Nat) : Bool :=
  !(s.threads.any fun t => t.ctx = c) && !(s.binds.any fun b => b.ctx = c) && !(s.pends.any fun p => p.rec_[0].toNat / 256 % 128 = c) &&
  !(s.reqs.any fun r => r.ctx = c) && !(s.nets.any fun n => n.ctx = c) && !(s.wops.any fun w => w.key.ctx = c) &&
  !(s.queues.any fun q => q.ctx = c && q.busy.isSome) && !(s.sops.any fun o => o.ctx = c && o.kind = .write)

/-- CONTEXT_END: a surrendering context whose launch has ended, or a retired one, with its last thread and operation gone (R297, R370). -/
def State.contextEndAt (c : Nat) (s : State) : State :=
  match s.cx? c with
  | none => s
  | some x =>
    if ((x.surr && !x.running) || x.retired) && s.idleCx c then
      s.endContext c (if x.retired then 0x43 else if x.ended = 0 then 0 else x.status)
    else s

def execContextEnd (ctx : Nat) (s : State) : Out1 := .next (s.contextEndAt ctx)

/-- Every operation of a context that its cores hold is cancelled, as fcancel would cancel it (R239, R370). -/
def State.cancelAll (c : Nat) (s : State) : State :=
  (s.binds.filter fun b => b.ctx = c).foldl (fun s b =>
    let s := s.focusOn b.core c
    let tags := s.bd.copies.map (·.tag) ++ s.bd.reads.map (·.tag) ++ s.bd.sends.filterMap (·.tag) ++
      (if s.core.holder = some c then s.core.eng.queue.map (·.tag) else [])
    tags.foldl (fun s n => s.cancelOp n) s)
    { s with nets := s.nets.map fun n => if n.ctx = c then n.cancel else n }

/-- What retirement leaves of a task: one that is on cores, or saved from them, has ended (R364, R370). -/
def Task.expire (t : Task) : Task := if t.st.onCores || t.st = .saved then { t with st := .done 0x43 } else t

/-- RETIREMENT: at the first count at which hi reaches na (R370). Its threads stop, its operations are cancelled, its launch ends at
once; the context ends when what its operations had begun is over. -/
def State.retireAt (c : Nat) (s : State) : State :=
  match s.cx? c with
  | none => s
  | some x =>
    match (s.kslot x.kslot).note with
    | none => s
    | some n =>
      if x.prov || x.retired || (n.at s.iod).2.1 < x.na then s
      else
        let s := s.cancelAll c
        let stops (t : Thread) : Bool := t.ctx = c && t.eddy.isNone
        let s := { s with
          th := if stops s.th then { s.th with exited := true } else s.th
          ths := s.ths.filter fun t => !(stops t)
          pends := s.pends.filter fun p => p.rec_[0].toNat / 256 % 128 != c }
        let s := if x.running then (s.atCx c).endLaunch 0x43 else s
        s.updCx c fun y => { y with retired := true, saved := [], tasks := y.tasks.map Task.expire }

def execRetirement (ctx : Nat) (s : State) : Out1 := .next (s.retireAt ctx)

/-- BOUND_UNPROVED: every context built under the key is parked (R369). -/
def State.unproved (k : Nat) (s : State) : State :=
  if (s.bound k).isSome then s
  else s.mapCxs fun x => if x.kslot = k % 16 then
    { x with parked := true, tasks := x.tasks.map (Task.ask s.iod) } else x

def execBoundUnproved (kslot : Nat) (s : State) : Out1 := .next (s.unproved kslot)

/-! ### Warrant operations where they are performed (R295 to R298) -/

/-- The thread's core, bind record and context are in focus. -/
def State.atKey (k : TKey) (s : State) : State := (s.focusOn k.core k.ctx)

/-- An operation's read for the IOD, from its window also while its task is out (R308). -/
def State.iodRead (k : TKey) (a n : Nat) (s : State) : Except OpStop (List Byte) :=
  match (s.opView k.core k.ctx).opBytes a n with
  | .error e => .error e.2
  | .ok x => if x.1.any s.opPoison then .error (.fail (some 4)) else .ok x.2

/-- What such a read leaves. -/
def State.iodNote (k : TKey) (a n : Nat) (s : State) : State :=
  s.whereOp k.core k.ctx fun _ s => s.opReadNote (s.opSpots a false n).1

/-- What ends an operation of the IOD: a wait, or its status and result. -/
def opStatus (e : OpStop) : Option (BitVec 8) := match e with | .wait _ => none | .fail k => some (if k = some 4 then 1 else 4)

def State.waitNote (e : OpStop) (s : State) : State := match e with | .wait w => s.opNote w.va e | _ => s

def State.wsplit (x t : Fin 8) (b : List Byte) (s : State) : BitVec 8 × State :=
  let a := amounts b 0
  let c := s.cx
  let room := if x = 0 then Vector.ofFn fun k : Fin 8 => c.quota[k] - c.u k
    else if c.ws[x].st = .held then c.ws[x].amt else Vector.replicate 8 0
  if a[5] != 0 || a[6] != 0 || a[7] != 0 then (0x20, s)
  else if !(amtLe a room) || !(c.ws[x].st = .held || c.ws[x].st = .funding) then (0x29, s)
  else
    let c := if x = 0 then { c with quota := amtSub c.quota a } else c.updWs x fun w => { w with amt := amtSub w.amt a }
    (0, { s with cx := c.updWs t fun _ => { st := .held, amt := a } })

/-- The task of a thread, on its core or saved; 0 where the thread has ceased to exist. -/
def State.taskFor (s : State) (k : TKey) : Nat :=
  ((s.thread? k <|> ((s.cx? k.ctx).bind fun x => (x.saved.flatMap (·.ths)).find? fun t => t.key = k)).map (·.task)).getD 0

/-- The child of a delegation, or the status that refuses it. -/
def State.wdeleg (k : TKey) (t : Fin 8) (b : List Byte) (s : State) : BitVec 8 × Nat × Bool × State :=
  if !(zeros b 40 24) then (0x20, 0, false, s)
  else if s.kfree = 0 then (0x27, 0, false, s)
  else
    let p := s.cx
    let x : Context := { s.newCx with
      quota := p.ws[t].amt, holder := slice b 0 32, arg := wordN (fieldAt b 32 8), parent := some p.uid, cls := p.cls, weight := p.weight
      slots := p.slots, nb := p.nb, na := p.na, kslot := p.kslot, serial := p.serial, capture := p.capture }
    match s.build x p.img with
    | .error st => (st, 0, false, s)
    | .ok (x, u) =>
      let u := { u with cx := u.cx.updWs t fun w => { w with st := .delegated x.id, by_ := some (k, s.taskFor k) } }
      let parked := u.parkOn x
      (0, x.id, parked, u.enter { x with parked })

def State.wsurr (t : Fin 8) (s : State) : State :=
  if t = 0 then { s with cx := { s.cx with surr := true } }
  else { s with cx := { s.cx.updWs t fun _ => {} with quota := amtAdd s.cx.quota s.cx.ws[t].amt } }

def State.unbusy (t : Fin 8) (s : State) : State := { s with cx := s.cx.updWs t fun w => { w with busy := false } }

/-- The slot that an operation keeps busy. -/
def WOp.target : WOp → Option (Fin 8)
  | .split _ t _ => some t
  | .deleg t _ => some t
  | .surr t => some t
  | _ => none

def WOp.isWarrant : WOp → Bool
  | .pres .. | .split .. | .deleg .. | .surr _ => true
  | _ => false

/-- The completion word of a warrant operation (R295). -/
def warWord (st : BitVec 8) (ctx : Nat) (parked : Bool) : Word := doneWord (ctx % 128 + if parked then 128 else 0) st

/-- Completes an operation of the IOD; a warrant operation's word is recorded (R493). -/
def State.wopEnd (w : WReq) (x : Word) (s : State) : State :=
  let s := { s with wops := s.wops.filter fun y => y.tag != w.tag }
  let r := if w.op.isWarrant then (s.atKey w.key).wordOf x else (x, s)
  r.2.complete w.tag r.1 0

/-! ### Presentation (R362, R363, R365, R376) -/

/-- The context that a record describes, before its image. -/
def State.fromRecord (r : List Byte) (src : Option Src) (s : State) : Context :=
  let a := amounts r 128
  { s.newCx with
    quota := a, aw := a, holder := slice r 48 32, cls := fieldAt r 7 1, weight := fieldAt r 192 2, slots := fieldAt r 194 1
    nb := fieldAt r 112 8, na := fieldAt r 120 8, kslot := recSlot r, serial := recSerial r, src
    capture := (s.kslot (recSlot r)).capture }

/-- A presentation, told from others by its slot or its operation. -/
def Admit.same (a b : Admit) : Bool := a.slot = b.slot && a.req.map (·.tag) = b.req.map (·.tag)

def State.setAdmit (a : Admit) (s : State) : State := { s with admits := s.admits.map fun b => if a.same b then a else b }

def State.pslot (s : State) (n : Nat) : PSlot := s.pres[n % 16]'(by omega)
def State.setPslot (n : Nat) (x : PSlot) (s : State) : State := { s with pres := s.pres.set (n % 16) x (by omega) }

/-- Ends a slot's op: pstat is set and the slot is free. -/
def PSlot.finish (x : PSlot) (op : Nat) (st : BitVec 8) (ctx : Nat) (parked : Bool) : PSlot :=
  { x with pgo := none, src := none, op, status := st, ctx, parkedBit := parked }

/-- A presentation ends: its slot's op, or its operation's completion word. -/
def State.admitEnd (a : Admit) (st : BitVec 8) (ctx : Nat) (parked : Bool) (s : State) : State :=
  let s := { s with admits := s.admits.filter fun b => !(a.same b) }
  let s := match a.slot with | some n => s.setPslot n ((s.pslot n).finish 1 st ctx parked) | none => s
  match a.req with | some w => s.wopEnd w (warWord st ctx parked) | none => s

/-- A failure at step 9, 10 or 11 undoes what was taken, and the key ID is released (R363, R481). -/
def State.admitUndo (a : Admit) (st : BitVec 8) (s : State) : State :=
  let aw := ((s.cx? a.ctx).map (·.aw)).getD (Vector.replicate 8 0)
  let s := s.removeContext a.ctx
  { s with free_ := amtAdd s.free_ aw }.admitEnd a st 0 false

/-- Item 8 of R363: firmware gets the task graph. -/
def State.admitStart (a : Admit) (s : State) : State :=
  match s.cx? a.ctx with
  | none => s
  | some x =>
    let parked := s.parkOn x
    (s.updCx a.ctx fun x => { x with prov := false, parked }).admitEnd a 0 a.ctx parked

/-- A presentation of the key slot is at step 11: others pass steps 6 and 11 after it. -/
def State.homeBusy (s : State) (k : Nat) : Bool := s.commits.any fun c => c.kslot = k

/-- Step 11: the time once more; then the commit at home (R372), or the note to the home and the wait for it (R376). -/
def State.admitEleven (a : Admit) (s : State) : State :=
  let k := recSlot a.rec_
  let n := recSerial a.rec_
  if s.homeBusy k then s
  else if !(s.timeOk a.rec_) then s.admitUndo a 0x24
  else if recHome a.rec_ then (s.setKslot k ((s.kslot k).commit n)).admitStart a
  else
    let c : Commit := { slot := a.slot, req := a.req, kslot := k, serial := n, hkey := slice (a.rcpt.getD []) 128 1952, ctx := a.ctx, since := s.iod }
    { s with admits := s.admits.filter (fun b => !(a.same b)), commits := s.commits ++ [c] }.out
      (.note 0 n (Config.mldsaSign (leBytes n 8)))

/-- The image that a record's trailer names: of the slot's area, or in the presenter's space. -/
def State.admitImage (a : Admit) (s : State) : Except OpStop (List Byte) :=
  let at_ := fieldAt a.rec_ 3840 8
  let n := fieldAt a.rec_ 3848 8
  match a.slot, a.req with
  | some p, _ => .ok ((List.range n).map fun i => if at_ + i < areaEnd then (s.pslot p).area.get (at_ + i) else 0)
  | none, some w => s.iodRead w.key at_ n
  | none, none => .ok []

/-- Steps 9 and 10: the build, once the image can be read. -/
def State.admitNine (a : Admit) (s : State) : State :=
  match s.admitImage a, s.cx? a.ctx with
  | .error (.wait w), _ => s.waitNote (.wait w)
  | .error (.fail k), _ => s.admitUndo a (if k = some 4 then 1 else 4)
  | .ok _, none => s
  | .ok img, some x => match s.build x img with
    | .error st => s.admitUndo a st
    | .ok (y, u) =>
      let u := match a.req with | some w => u.iodNote w.key (fieldAt a.rec_ 3840 8) img.length | none => u
      let u := u.updCx a.ctx fun _ => y
      if Config.shake256 img != slice a.rec_ 80 32 then u.admitUndo a 0x23
      else (u.setAdmit { a with step := 11 }).admitEleven { a with step := 11 }

/-- Another presentation, between step 6 and its end, holds the serial. -/
def State.serialHeld (s : State) (a : Admit) : Bool := s.admits.any fun b =>
  !(a.same b) && b.step != 6 && recSlot b.rec_ = recSlot a.rec_ && recSerial b.rec_ = recSerial a.rec_

/-- Steps 6 to 8, and what R363 takes after them. -/
def State.admitSix (a : Admit) (s : State) : State :=
  let r := a.rec_
  if s.homeBusy (recSlot r) || s.serialHeld a then s
  else if recHome r && s.isSpent r then s.admitEnd a 0x25 0 false
  else if s.kfree = 0 then s.admitEnd a 0x27 0 false
  else if !(s.classRoom (fieldAt r 7 1) (amounts r 128)) then s.admitEnd a 0x28 0 false
  else
    let x := { s.fromRecord r (a.slot.bind fun n => (s.pslot n).src) with prov := true }
    let s := { s.enter x with free_ := amtSub s.free_ x.aw }
    (s.setAdmit { a with step := 9, ctx := x.id }).admitNine { a with step := 9, ctx := x.id }

/-- A presentation moves on from the step it stands before. -/
def State.admitGo (a : Admit) (s : State) : State :=
  match a.step with
  | 6 => s.admitSix a
  | 9 => s.admitNine a
  | _ => s.admitEleven a

/-- The admission unit takes a presentation up: at most four run at once. Steps 1 to 5; a receipt that passes consumes its nonce (R375). -/
def State.admitBegin (slot : Option Nat) (req : Option WReq) (r : List Byte) (rcpt : Option (List Byte)) (s : State) : State :=
  let a : Admit := { slot, req, rec_ := r, rcpt }
  match s.recCheck r with
  | some st => s.admitEnd a st 0 false
  | none =>
    if !(recHome r) && !(rcpt.any (s.receiptOk r)) then s.admitEnd a 0x26 0 false
    else
      let s := if recHome r then s else { s with rnonces := s.rnonces.filter fun x => some x.1 != rcpt.map fun q => slice q 72 32 }
      { s with admits := s.admits ++ [a] }.admitSix a

/-- Four presentations run. -/
def State.admitFull (s : State) : Bool := decide (4 ≤ s.admits.length + s.commits.length)

/-- A presentation by wpres. -/
def State.wpresAt (w : WReq) (a b : Word) (s : State) : State :=
  match s.admits.find? fun x => x.req.map (·.tag) = some w.tag with
  | some x => s.admitGo x
  | none =>
    if s.admitFull || s.commits.any fun c => c.req.map (·.tag) = some w.tag then s
    else
      let stop (e : OpStop) : State := match opStatus e with | none => s.waitNote e | some st => s.wopEnd w (warWord st 0 false)
      match s.iodRead w.key a.toNat 4096, if b = 0 then .ok [] else s.iodRead w.key b.toNat 8192 with
      | .error e, _ => stop e
      | _, .error e => stop e
      | .ok r, .ok q =>
        let s := s.iodNote w.key a.toNat 4096
        let s := if b = 0 then s else s.iodNote w.key b.toNat 8192
        s.admitBegin none (some w) r (if b = 0 then none else some q)

/-- WARRANT_OPERATION_COMPLETION: the k-th operation at the IOD, the first warrant operation of its context (R295). Under replay no warrant
operation is performed (R495). -/
def State.wopAt (k : Nat) (s : State) : State :=
  match s.wops[k]? with
  | none => s
  | some w =>
    if w.op.isWarrant && (s.wops.take k).any (fun v => v.op.isWarrant && v.key.ctx = w.key.ctx) then s
    else
      let s := s.atKey w.key
      let free (s : State) : State := match w.op.target with | some t => s.unbusy t | none => s
      let read (a : Word) (f : List Byte → State → State) : State := match s.iodRead w.key a.toNat 64 with
        | .error e => match opStatus e with | none => s.waitNote e | some st => (free s).wopEnd w (warWord st 0 false)
        | .ok b => f b (free ((s.iodNote w.key a.toNat 64).atKey w.key))
      let xl (r : Option (BitVec 8 × State)) : State := match r with
        | none => s
        | some r => r.2.wopEnd w (doneWord 0 r.1)
      if w.op.isWarrant && s.cx.replay.isSome then (free s).wopEnd w 0
      else match w.op with
        | .pres a b => s.wpresAt w a b
        | .split x t a => read a fun b s => let r := s.wsplit x t b; r.2.wopEnd w (warWord r.1 0 false)
        | .deleg t a => read a fun b s => let r := s.wdeleg w.key t b; r.2.2.2.wopEnd w (warWord r.1 r.2.1 r.2.2.1)
        | .surr t => ((free s).wsurr t).wopEnd w (warWord 0 0 false)
        | .xinv a n => xl (s.xinv a.toNat n.toNat)
        | .xnew a m n => xl (some (s.xmapNew a.toNat m.toNat n.toNat))
        | .xattr a m n => xl (s.xmapAttr a.toNat m.toNat n.toNat)
        | .xunmap a n => xl (s.xunmap a.toNat n.toNat)

def execWarrantOperationCompletion (k : Nat) (s : State) : Out1 := .next (s.wopAt k)

/-! ### Presentation slots (R359 to R361) -/

def pgoOff : Nat := 0x7FFF000
def pstatOff : Nat := 0x7FFF008

/-- pgo starts an op (Table 11-6). -/
def pgoOk (v : Nat) : Bool := v / 2 ^ 19 = 0 && v / 8 % 32 = 0 && 1 ≤ v % 8 && v % 8 ≤ 6

/-- PRESENTATION_SLOT_WRITE (R359, R360, R505). -/
def State.slotWrite (src : Src) (n off : Nat) (data : List Byte) (s : State) : State :=
  let x := s.pslot n
  if 16 ≤ n || s.bring < 7 || (x.src.isSome && x.src != some src) then s
  else
    let x := { x with src := some src, last := s.iod }
    let x := if off + data.length ≤ areaEnd then { x with area := x.area.put off data }
      else if off = pgoOff && data.length = 8 && x.pgo.isNone && pgoOk (leNat data) then { x with pgo := some (leWord data) }
      else x
    s.setPslot n x

def execPresentationSlotWrite (src : Src) (slot off : Nat) (data : List Byte) (s : State) : Out1 :=
  .next (State.slotWrite src slot off data (match src with | .host _ _ => { s with linkUp := true } | _ => s))

/-- pstat (Table 11-7). -/
def PSlot.pstat (x : PSlot) : Word :=
  wordN (x.status.toNat + 256 * (x.op % 256) + 2 ^ 16 * (x.ctx % 128) + (if x.parkedBit then 2 ^ 30 else 0) + if x.pgo.isSome then 2 ^ 31 else 0)

/-- A read of a slot by a source (R360): the area, pstat, or zero. -/
def State.slotRead (s : State) (src : Src) (n off len : Nat) : List Byte :=
  let x := s.pslot n
  if 16 ≤ n || s.bring < 7 || (x.src.isSome && x.src != some src) then List.replicate len 0
  else if off < areaEnd then (List.range len).map fun i => if off + i < areaEnd then x.area.get (off + i) else 0
  else if off = pstatOff then slice (leBytes x.pstat.toNat 8) 0 len
  else List.replicate len 0

/-- Performs the op that pgo asks for, where it is the one an event names. The op answers none where it must wait. -/
def State.slotOp (n op : Nat) (f : PSlot → Nat → State → Option (PSlot × State)) (s : State) : State :=
  let x := s.pslot n
  match x.pgo with
  | some v => if n < 16 && v.toNat % 8 = op then (match f x v.toNat s with | some r => r.2.setPslot n r.1 | none => s) else s
  | none => s

/-- PRESENT: op 1 of a slot begins, or moves on (R361). -/
def State.presentAt (n : Nat) (s : State) : State :=
  let x := s.pslot n
  if 16 ≤ n || !(x.pgo.any fun v => v.toNat % 8 = 1) then s
  else match s.admits.find? fun a => a.slot = some n with
    | some a => s.admitGo a
    | none =>
      if s.admitFull || s.commits.any fun c => c.slot = some n then s
      else s.admitBegin (some n) none (x.area.bytes 0 4096) (some (x.area.bytes 0x2000 8192))

def execPresent (slot : Nat) (s : State) : Out1 := .next (s.presentAt slot)

/-- 32 bytes drawn by the device (log 13). -/
def State.secret (s : State) : List Byte × State := (leBytes (Config.freeSecret s.free) 32, { s with free := s.free + 1 })

def execTimeNonce (slot : Nat) (s : State) : Out1 := .next (s.slotOp slot 2 fun x v s =>
  let k := v / 256 % 16
  if !(s.kslot k).loaded then some (x.finish 2 0x21 0 false, s)
  else
    let n := s.secret
    some ({ x with area := x.area.put 0 n.1 }.finish 2 0 0 false, n.2.setKslot k { n.2.kslot k with nonce := some (n.1, s.iod) }))

/-- The checks of R368, in order. -/
def State.noteCheck (s : State) (b : List Byte) : BitVec 8 :=
  let k := s.kslot (fieldAt b 6 1)
  if fieldAt b 0 4 != 0x544E5A4F || fieldAt b 4 2 != 1 || 15 < fieldAt b 6 1 || fieldAt b 7 1 != 0 || !(zeros b 48 80) || !(zeros b 3437 659) then 0x20
  else if !k.loaded then 0x21
  else if !(Config.mldsaVerify k.key (slice b 0 128) (slice b 128 3309)) then 0x22
  else if !(k.nonce.any fun n => n.1 = slice b 8 32 && s.iod - n.2 ≤ 10000000) then 0x24
  else if k.note.any fun n => fieldAt b 40 8 < (n.at s.iod).1 then 0x24
  else 0

def execTimeNote (slot : Nat) (s : State) : Out1 := .next (s.slotOp slot 3 fun x _ s =>
  let b := x.area.bytes 0 4096
  let st := s.noteCheck b
  let n := fieldAt b 6 1
  let k := s.kslot n
  let s := if st = 0 then s.setKslot n { k with note := some ⟨fieldAt b 40 8, ((k.nonce.map (·.2)).getD 0), s.iod⟩, nonce := none } else s
  some (x.finish 3 st 0 false, s))

def execReceiptNonce (slot : Nat) (s : State) : Out1 := .next (s.slotOp slot 4 fun x _ s =>
  let n := s.secret
  let l := n.2.rnonces ++ [(n.1, s.iod)]
  some ({ x with area := x.area.put 0 n.1 }.finish 4 0 0 false, { n.2 with rnonces := l.drop (l.length - 64) }))

/-- The receipt of Table 11-9, before its signature. -/
def receiptBody (r target nonce : List Byte) : List Byte :=
  leBytes 0x50525A4F 4 ++ leBytes 1 4 ++ slice (Config.shake256 (slice r 0 512)) 0 32 ++ slice target 0 32 ++ slice nonce 0 32 ++
  leBytes (recSerial r) 8 ++ List.replicate 16 0 ++ slice Config.deviceKey 0 1952

def execReceiptRequest (slot : Nat) (s : State) : Out1 := .next (s.slotOp slot 5 fun x _ s =>
  let r := x.area.bytes 0 4096
  let target := x.area.bytes 0x1000 32
  let nonce := x.area.bytes 0x1020 32
  let bad : Option (BitVec 8) := match s.recCheck r with
    | some st => some st
    | none => if !(recHome r) then some 0x26 else if s.isSpent r then some 0x25 else if 256 ≤ (s.resv.filter fun x => !x.done).length then some 0x26 else none
  match bad with
  | some st => some (x.finish 5 st 0 false, s)
  | none =>
    let body := receiptBody r target nonce
    let rc := slice (body ++ slice (Config.mldsaSign body) 0 3309) 0 8192
    some ({ x with area := x.area.put 0x2000 rc }.finish 5 0 0 false, { s with resv := s.resv ++ [⟨recSlot r, recSerial r, target, false⟩] }))

def execGraphStatus (slot : Nat) (s : State) : Out1 := .next (s.slotOp slot 6 fun x v s =>
  match s.cx? (v / 2 ^ 12 % 128) with
  | some c =>
    if !c.prov && c.src.isSome && c.src = x.src then
      let a := ((c.pte? graphArea).map fun e => e.phys graphArea).getD (2 ^ 95)
      some ({ x with area := x.area.put 0 (s.mem.bytes a 64) }.finish 6 0 0 false, s)
    else some (x.finish 6 0x2B 0 false, s)
  | none => some (x.finish 6 0x2B 0 false, s))

/-- SLOT_BINDING_LAPSE: ten seconds without a write (R360). -/
def execSlotBindingLapse (slot : Nat) (s : State) : Out1 :=
  let x := s.pslot slot
  .next (if x.src.isSome && x.pgo.isNone && x.last + 10000000 ≤ s.iod then s.setPslot slot { x with src := none } else s)

/-- RECEIPT_NONCE_EXPIRY: sixty seconds (R374). -/
def execReceiptNonceExpiry (s : State) : Out1 := .next { s with rnonces := s.rnonces.filter fun x => s.iod ≤ x.2 + 60000000 }

/-! ### Commit notes (R376) -/

/-- Message bytes of a note. -/
def noteMsg (serial : Nat) : List Byte := leBytes serial 8

/-- The reservation that a note of a target names. -/
def Resv.named (kslot serial : Nat) (target : List Byte) (x : Resv) : Bool :=
  x.kslot = kslot % 16 && x.serial = serial && x.target = Config.shake256 target

/-- COMMIT_NOTE at the home device: the reservation becomes a commit, and the acknowledgement is sent. A serial that has fallen below the
floor can never be redeemed (R371). -/
def State.commitNote (k n : Nat) (target sig : List Byte) (s : State) : State :=
  let hit := Resv.named k n target
  if s.resv.any hit && Config.mldsaVerify target (noteMsg n) sig && (s.kslot k).floor ≤ n then
    State.out (.note 1 n (Config.mldsaSign (noteMsg n)))
      ({ s with resv := s.resv.map fun x => if hit x then { x with done := true } else x }.setKslot k ((s.kslot k).commit n))
  else s

def execCommitNote (kslot serial : Nat) (target sig : List Byte) (s : State) : Out1 := .next (s.commitNote kslot serial target sig)

/-- A serial returns to unspent. -/
def KeySlot.uncommit (n : Nat) (k : KeySlot) : KeySlot :=
  if n < k.floor then k else { k with window := k.window &&& ~~~(1#4096 <<< (n - k.floor)) }

/-- RELEASE_NOTE at the home device: the serial is unspent again, whether it was reserved or, its acknowledgement lost, committed. -/
def State.releaseNote (k n : Nat) (target sig : List Byte) (s : State) : State :=
  let hit := Resv.named k n target
  match s.resv.find? hit with
  | none => s
  | some x =>
    if !(Config.mldsaVerify target (noteMsg n) sig) then s
    else
      let s := { s with resv := s.resv.filter fun x => !(hit x) }
      if x.done then s.setKslot k ((s.kslot k).uncommit n) else s

def execReleaseNote (kslot serial : Nat) (target sig : List Byte) (s : State) : Out1 := .next (s.releaseNote kslot serial target sig)

/-- The presentation that a commit waits for. -/
def Commit.asAdmit (c : Commit) : Admit := { slot := c.slot, req := c.req, rec_ := [], rcpt := none, step := 11, ctx := c.ctx }

def State.dropCommit (c : Commit) (s : State) : State :=
  { s with commits := s.commits.filter fun x => !(x.kslot = c.kslot && x.serial = c.serial) }

/-- COMMIT_ACKNOWLEDGEMENT at the target device, within the 100 ms: the context starts. -/
def State.commitAck (n : Nat) (sig : List Byte) (s : State) : State :=
  match s.commits.find? fun c => c.serial = n && Config.mldsaVerify c.hkey (noteMsg n) sig && s.iod < c.since + 100000 with
  | some c => (s.dropCommit c).admitStart c.asAdmit
  | none => s

def execCommitAcknowledgement (serial : Nat) (sig : List Byte) (s : State) : Out1 := .next (s.commitAck serial sig)

/-- COMMIT_TIMEOUT after 100 ms: the build is undone, the presentation refused, and a release note sent. -/
def State.commitTimeout (n : Nat) (s : State) : State :=
  match s.commits.find? fun c => c.serial = n && c.since + 100000 ≤ s.iod with
  | some c => ((s.dropCommit c).admitUndo c.asAdmit 0x2A).out (.note 2 n (Config.mldsaSign (noteMsg n)))
  | none => s

def execCommitTimeout (serial : Nat) (s : State) : Out1 := .next (s.commitTimeout serial)

end Sys2Proof.Machine
end

