-- ==== Sys2Proof/Machine/Power.lean ====
section
/-! DEFINITION. Physical cores: power states, wakes and the in-rush arbiter (R499 to R501), row voltage (R497, R498), the change of a
clock ratio (R441), link words and window updates (R433, R440), and lee bank retention (R400). Times that nothing architectural counts are
left to the moment of the event; those that the IOD counts in µs are checked (log 4). -/
namespace Sys2Proof.Machine
open Sys2Proof

/-- A physical core, as 768 × die + 16 × row + column. -/
def State.pcore (s : State) (p : Nat) : PCore := (s.pcores.find? fun x => x.id = p).getD { id := p }
def State.setPcore (x : PCore) (s : State) : State := { s with pcores := x :: s.pcores.filter fun y => y.id != x.id }
/-- A physical row, as 48 × die + row. -/
def State.prow (s : State) (r : Nat) : PRow := (s.prows.find? fun x => x.id = r).getD { id := r }
def State.setProw (x : PRow) (s : State) : State := { s with prows := x :: s.prows.filter fun y => y.id != x.id }

/-! ### Power states (R499 to R501) -/

def PCore.powered (x : PCore) : Bool := x.pw = .on || x.pw = .hold

/-- The arbiter lets at most two of a row's cores switch on at once, in order of arrival. -/
def State.grant (s : State) (r : Nat) : State :=
  let x := s.prow r
  match x.queue with
  | [] => s
  | p :: rest =>
    if 2 ≤ (s.pcores.filter fun y => y.id / 16 = r && y.pw = .switching).length then s
    else (s.setPcore { s.pcore p with pw := .switching }).setProw { x with queue := rest }

/-- A wake reaches a core (R500). -/
def State.wakeCore (p : Nat) (s : State) : State :=
  let x := s.pcore p
  match x.pw with
  | .on => s
  | .hold => s.setPcore { x with pw := .on }
  | .switching => s
  | .off =>
    let r := s.prow (p / 16)
    if r.queue.contains p then s else (s.setProw { r with queue := r.queue ++ [p] }).grant (p / 16)

def execWake (pcore : Nat) (s : State) : Out1 := .next (if pcore < 3072 then s.wakeCore pcore else s)

/-- PWAKE: a write of the power block's pwake (R502). -/
def execPwake (die n : Nat) (s : State) : Out1 := .next (if die < 4 && n < 768 then s.wakeCore (768 * die + n) else s)

/-- SWITCH_ON_COMPLETE: the core is on, at ratio 8, and the arbiter grants the next (R500, R501). The 64 clk of the records that wait for it
count from here. -/
def State.switchedOn (p : Nat) (s : State) : State :=
  let x := s.pcore p
  if x.pw = .switching then
    let s := { s with pends := s.pends.map fun (e : Pend) => if s.phys? e.core = some p then { e with at_ := (s.core? e.core).clk } else e }
    (s.setPcore { x with pw := .on, ratio := 8, want := none, acts := [], cool := none, ratioAt := s.iod, window := 8 }).grant (p / 16)
  else s

def execSwitchOnComplete (pcore : Nat) (s : State) : Out1 := .next (s.switchedOn pcore)

/-- HOLD_EXPIRY: pbhold has passed with no wake. -/
def State.holdOver (p : Nat) (s : State) : State :=
  let x := s.pcore p
  if x.pw = .hold && x.since + (s.die (p / 768)).pbhold ≤ s.iod then s.setPcore { x with pw := .off } else s

def execHoldExpiry (pcore : Nat) (s : State) : Out1 := .next (s.holdOver pcore)

/-- The logical cores that stand on a physical core, with their records. -/
def State.bindsOn (s : State) (p : Nat) : List Bind :=
  match s.logical? p with
  | some c => s.binds.filter fun b => b.core = c
  | none => []

/-- A core whose last record is gone is held (R499). -/
def State.holdIfIdle (c : Nat) (s : State) : State :=
  match s.phys? c with
  | some p =>
    let x := s.pcore p
    if x.pw = .on && (s.bindsOn p).isEmpty then s.setPcore { x with pw := .hold, since := s.iod } else s
  | none => s

/-! ### Row voltage and clock ratio (R497, R498, R441) -/

/-- The voltage a ratio needs, in mV (Table 17-1). -/
def ratioMv : Nat → Nat
  | 1 => 850 | 2 => 780 | 3 => 740 | 4 => 710 | _ => 650

/-- A core's need: of its ratio, and of a faster one it is about to take. -/
def PCore.need (x : PCore) : Nat := max (ratioMv x.ratio) ((x.want.map ratioMv).getD 0)

/-- What a row's regulator aims at. -/
def State.aim (s : State) (r : Nat) : Nat :=
  ((s.pcores.filter fun x => x.id / 16 = r && x.powered).map PCore.need).foldl max 650

/-- ROW_VOLTAGE_REACHED: the ramp ends at the aim. -/
def execRowVoltageReached (prow : Nat) (s : State) : Out1 := .next (s.setProw { s.prow prow with mv := s.aim prow })

/-- RATIO_CHANGE: the handshake, once the row's voltage is what the new ratio needs; its window update goes to the row. -/
def State.ratioSwitch (p : Nat) (s : State) : State :=
  let x := s.pcore p
  match x.want with
  | none => s
  | some r =>
    if x.powered && ratioMv r ≤ (s.prow (p / 16)).mv then
      let t := s.setPcore { x with ratio := r, want := none, ratioAt := s.iod }
      { t with pkts := t.pkts ++ [.window p (64 / r)] }
    else s

def execRatioChange (pcore : Nat) (s : State) : Out1 := .next (s.ratioSwitch pcore)

/-- WINDOW_UPDATE: the row holds the core's new send window. -/
def State.windowAt (k : Nat) (s : State) : State :=
  match s.pkts[k]? with
  | some (.window p w) => { s.setPcore { s.pcore p with window := w } with pkts := s.pkts.eraseIdx k }
  | _ => s

def execWindowUpdate (k : Nat) (s : State) : Out1 := .next (s.windowAt k)

/-! ### Link words (R433) -/

/-- LINK_WORD: the k-th packet passes one core more, or fills its receiver's register. It waits while the register is full, or while the
receiver's task is out (R60). -/
def State.linkAt (k : Nat) (s : State) : State :=
  match s.pkts[k]? with
  | some (.link d c east w (n + 1)) => { s with pkts := s.pkts.set k (.link d c east w n) }
  | some (.link d c east w 0) =>
    let x := s.core? d
    if x.holder = some c && (s.bind? d c).isSome && (if east then x.lnkw else x.lnke).isNone then
      { s with pkts := s.pkts.eraseIdx k }.updCore d fun x => if east then { x with lnkw := some w } else { x with lnke := some w }
    else s
  | _ => s

def execLinkWord (k : Nat) (s : State) : Out1 := .next (s.linkAt k)

/-! ### Lee banks (R400) -/

/-- LEE_BANK_RETENTION: an awake bank that nothing touches for 1,024 clk goes into retention. -/
def execLeeBankRetention (core bank : Nat) (s : State) : Out1 :=
  .next (s.updCore core fun x => { x with banks := Vector.ofFn fun i : Fin 20 =>
    if i.val = bank && x.banks[i] = .awake then .retention else x.banks[i] })

end Sys2Proof.Machine
end

