-- ==== Sys2Proof/Machine/Bind.lean ====
section
/-! DEFINITION. The dispatch block (R387, R390), bind records and their checks (R384 to R386), and the records as they take effect
(R385, R388, R399 to R402). -/
namespace Sys2Proof.Machine
open Sys2Proof

/-! ### Records (Tables 12-3 to 12-5) -/

def recOp (r : Vector Word 8) : Nat := r[0].toNat % 8
def recCtx (r : Vector Word 8) : Nat := r[0].toNat / 2 ^ 8 % 128
def recEng (r : Vector Word 8) : Bool := r[0].getLsbD 18
def recLee (r : Vector Word 8) : Bool := r[0].getLsbD 19
def recDark (r : Vector Word 8) : Bool := r[0].getLsbD 20
def recHeatCode (r : Vector Word 8) : Nat := r[0].toNat / 2 ^ 16 % 4
def recHeat (r : Vector Word 8) : Heat := if recHeatCode r = 2 then .gale else if recHeatCode r = 1 then .breeze else .still
def recTask (r : Vector Word 8) : Nat := r[0].toNat / 2 ^ 32 % 2 ^ 16
def recLines (r : Vector Word 8) : Nat := if recDark r then 0 else r[3].toNat / 2 ^ 16 % 1024 + 1

/-- The bind that a record describes. -/
def recBind (core : Nat) (r : Vector Word 8) : Bind :=
  { core, ctx := recCtx r, task := recTask r, nthr := if recDark r then 0 else r[0].toNat / 2 ^ 24 % 8 + 1, base := r[3].toNat % 512
    lines := recLines r, lee := recLee r, dark := recDark r, eng := recEng r, heat := recHeat r, mask := r[1], mins := r[4], caps := r[5]
    save := r[7].toNat }

/-- A record's word 0, from its fields. -/
def recWord0 (op ctx task nthr : Nat) (heat : Heat) (eng lee dark : Bool) : Word :=
  wordN (op + 2 ^ 8 * ctx + 2 ^ 16 * (match heat with | .still => 0 | .breeze => 1 | .gale => 2) + (if eng then 2 ^ 18 else 0) +
    (if lee then 2 ^ 19 else 0) + (if dark then 2 ^ 20 else 0) + 2 ^ 24 * (nthr - 1) + 2 ^ 32 * task)

/-- The lines of a window that lie in the core's own scratchpad. -/
def Bind.ownLines (b : Bind) : Nat := min b.lines 512
def Bind.clash (a b : Bind) : Bool :=
  a.ownLines != 0 && b.ownLines != 0 && decide (a.base < b.base + b.ownLines) && decide (b.base < a.base + a.ownLines)

/-- The records bound on a logical core, with those accepted and not yet applied. -/
def State.boundList (s : State) (c : Nat) : List Bind :=
  s.binds.filter (fun b => b.core = c) ++ (s.pends.filter fun p => p.core = c && recOp p.rec_ != 3).map fun p => recBind c p.rec_

/-- The other member of a gale pair, logical: the column's partner within the task's rectangle (R398). A task not yet placed has its
first record at its corner. -/
def State.partner (s : State) (c ctx task : Nat) (dark : Bool) : Nat :=
  let l := match (s.cx? ctx).bind (·.task? task) with
    | some t => if t.st = .waiting then (if dark then coreCol c - 1 else coreCol c) else t.lcol
    | none => coreCol c
  if (coreCol c - l) % 2 = 0 then c + 1 else c - 1

/-- The physical pair of R399: the gale core at an even place, the lee beside it. -/
def State.pairOk (s : State) (gale lee : Nat) : Bool :=
  match s.phys? gale, s.phys? lee with
  | some p, some q => (p / 16 % 48 + p % 16) % 2 = 0 && q = p ^^^ 1
  | _, _ => false

def popcount (w : Word) : Nat := ((List.range 64).filter fun i => w.getLsbD i).length

/-- The status of a record for a target (Table 12-6); 0 where it is accepted. The checks are made in the order of the codes, but for an unplaced
target, which is met first among those that need the place. -/
def State.bindStatus (s : State) (c : Nat) (r : Vector Word 8) : BitVec 8 :=
  let b := recBind c r
  let others := (s.boundList c).filter fun x => x.ctx != b.ctx
  let op := recOp r
  let gale := recHeatCode r = 2
  if r[0] &&& 0xFFFF0000F8E080F8 != 0 || r[2] != 0 || r[3] &&& ~~~0x3FF01FF#64 != 0 || (op != 1 && r[6] != 0) ||
      r[7] &&& 0xFFF0000000000FFF != 0 || op = 0 || 3 < op || recHeatCode r = 3 || (b.lee && !gale) ||
      (b.dark && (b.lee || b.eng || r[1] != 0 || r[3] != 0 || r[0].toNat / 2 ^ 24 % 8 != 0)) then 1
  else if (s.phys? c).isNone then 6
  else if !b.dark && ((!b.lee && 512 < b.base + b.lines) || (b.lee && b.base != 0) || others.any b.clash) then 2
  else if others.any fun x => x.mask &&& b.mask != 0 then 3
  else if !b.dark && ((List.range 6).any (fun k => poolByte b.caps k < poolByte b.mins k) ||
      (List.range 3).any (fun k => poolByte b.mins k != 3 || poolByte b.caps k != 3) || r[4].toNat / 2 ^ 48 != 0 || r[5].toNat / 2 ^ 48 != 0 ||
      256 < ((b :: others).map fun x => ((List.range 6).map fun k => poolByte x.mins k).sum).sum) then 4
  else if others.any (fun x => gale || b.dark || x.heat = .gale || x.dark) ||
      (let p := s.partner c b.ctx b.task b.dark
       (b.lee && !(s.pairOk c p)) || (b.dark && !(s.pairOk p c))) then 5
  else if op = 3 && s.threads.any (fun t => t.core = c && t.ctx = b.ctx && t.slot < 8) then 7
  else if !b.dark && ((s.cx? b.ctx).map (·.slots)) != some (popcount b.mask) then 8
  else if b.eng && others.any (·.eng) then 9
  else 0

/-- The target of a die's dispatch block. -/
def Die.core (d : Nat) (x : Die) : Nat := coreId d (x.target.toNat % 64) (x.target.toNat / 64)

/-- A record is accepted for a core, at the clk that its core has reached. -/
def State.addPend (c : Nat) (r : Vector Word 8) (s : State) : State := { s with pends := s.pends ++ [⟨c, r, (s.core? c).clk⟩] }

/-- Acts on go (R387, R388): an accepted record waits for its frame, and wakes the core it is for (R500). -/
def State.goWith (d : Nat) (s : State) : State :=
  let x := s.die d
  let c := x.core d
  let st := if x.target.toNat % 64 < 48 then s.bindStatus c x.rec_ else 6
  let s := s.setDie d { x with busy := false, bstat := st }
  let s := match s.phys? c with | some p => s.wakeCore p | none => s
  if st = 0 then s.addPend c x.rec_ else s

/-- A go of one op; a record whose op is illegal is answered with the starts. -/
def State.goOp (d : Nat) (p : Nat → Bool) (s : State) : State :=
  if d < 4 && (s.die d).busy && p (recOp (s.die d).rec_) then s.goWith d else s

def execBindStart (die : Nat) (s : State) : Out1 := .next (s.goOp die fun op => op != 2 && op != 3)
def execBindResume (die : Nat) (s : State) : Out1 := .next (s.goOp die (· = 2))
def execBindUnbind (die : Nat) (s : State) : Out1 := .next (s.goOp die (· = 3))

/-! ### Records as they take effect (R388) -/

/-- The slot table with a context's entries: the k-th entry of the mask has owner k mod nthr (R385). -/
def giveSlots (ctx nthr : Nat) (mask : Word) (old : Vector (Option (Nat × Nat)) 64) : Vector (Option (Nat × Nat)) 64 :=
  Vector.ofFn fun i : Fin 64 =>
    if mask.getLsbD i then some (ctx, ((List.range i.val).filter fun j => mask.getLsbD j).length % nthr) else old[i]

/-- The window of a bind in its core's scratchpad: own run and, at the gale core, the lent lines. -/
def Bind.inWindow (b : Bind) (a : Nat) : Bool := decide (b.base * 512 ≤ a) && decide (a < b.base * 512 + b.lines * 512)

/-- The scratchpad without a bind's window (R311). -/
def Core.wipe (b : Bind) (c : Core) : Core :=
  { c with spad := c.spad.clear (b.base * 512) (b.lines * 512)
           spadPoison := c.spadPoison.filter fun u => !(b.inWindow (64 * u)) }

/-- The banks that a gale core's bind has lent to it (R400). -/
def Bind.lends (b : Bind) (i : Nat) : Bool := if i < 16 then decide (512 + 32 * i < b.lines) else decide (i - 16 < min b.nthr 4)
def lentBanks (b : Bind) : Vector Bank 20 := Vector.ofFn fun i : Fin 20 => if b.lends i.val then .awake else .gated

/-- Lending begins once both records of a pair have applied (R402). -/
def State.lend (c ctx : Nat) (s : State) : State :=
  match s.bind? c ctx with
  | none => s
  | some b =>
    let p := s.partner c ctx b.task b.dark
    let start (gale : Nat) (g : Bind) : State :=
      (s.updCore gale fun x => { x with banks := lentBanks g }).updBd gale ctx fun g => { g with lent := true }
    match s.bind? p ctx with
    | some q => if b.lee && q.dark then start c b else if b.dark && q.lee then start p q else s
    | none => s

/-- A task's record applies: it stands on its cores; the first record of a task firmware has not placed gives its corner. -/
def Task.stand (c : Nat) (dark : Bool) (t : Task) : Task :=
  match t.st with
  | .waiting => { t with st := .placed, die := coreDie c, lrow := coreRow c, lcol := if dark then coreCol c - 1 else coreCol c }
  | .saved => { t with st := .placed }
  | _ => t

/-- The core part of a bind that takes effect, and the bind record itself in focus. -/
def State.bindCore (b : Bind) (s : State) : State :=
  let s := (s.focusCore b.core).addBind b
  let x := s.core.wipe b
  { s with core := { x with
    slots := giveSlots b.ctx b.nthr b.mask x.slots
    holder := if b.eng then some b.ctx else x.holder } }

/-- start: the threads of R24 at the entry point, a zero window, and engines at reset for their holder. -/
def State.applyStart (b : Bind) (entry : Word) (s : State) : State :=
  let s := (s.updCx b.ctx fun x => x.updTask b.task (Task.stand b.core b.dark)).bindCore b
  let s := if b.eng then { s with core := { s.core with eng := { lane := (s.core.eng.noLane b.ctx).lane }, lnkw := none, lnke := none, bar := Vector.replicate 4 {}, tags := [] } } else s
  let s := match (s.cx? b.ctx).bind (·.task? b.task) with
    | none => s
    | some t => (List.range b.nthr).foldl (fun s k =>
        s.addThread { core := b.core, ctx := b.ctx, slot := k, task := b.task, pc := entry, tid := t.tid b.core k none }) s
  s.lend b.core b.ctx

/-- Memory moved by an offset. -/
def Memory.shift (m : Memory) (lo new : Nat) : Memory := m.map fun c => (c.1 - lo + new, c.2)

/-- The ranges that the commands of a saved thread held re-enter its scoreboard as they re-enter their queues (R275, R314). -/
def State.rangesOf (s : State) (v : Saved) (t : Thread) : List Rng :=
  let mine (tag : Nat) (l : List (Nat × Nat)) : List Rng := l.map fun x => extent tag x.1 x.2
  let nets := s.nets.filter fun n => n.core = t.core && n.ctx = t.ctx && n.thr = t.slot
  if t.eddy.isSome then []
  else
    ((v.bd.copies.filter (·.thr = t.slot)).flatMap fun c => mine c.tag c.op.extents) ++
    ((v.core.eng.queue.filter (·.thr = t.slot)).flatMap fun c => mine c.tag c.exts) ++
    nets.flatMap fun n => mine n.tag (if n.kind = 2 then [(n.loc, n.len)] else if n.kind = 3 then [(n.loc, n.len), (n.remote, n.len)] else [])

/-- A saved thread as it resumes: with its ranges, and its held messages out of the mailbox (R257). -/
def State.resumed (s : State) (v : Saved) (t : Thread) : Thread :=
  { t with rngs := s.rangesOf v t, held := ((s.cx? t.ctx).map fun x => x.heldOf t.key).getD [] }

/-- resume: the state that was saved (R393), in the new window; the core's other contexts keep theirs. -/
def State.applyResume (b : Bind) (v : Saved) (s : State) : State :=
  let s := s.updCx b.ctx fun x => { x.updTask b.task (Task.stand b.core b.dark) with
    saved := x.saved.filter fun w => !(w.bd.core = b.core && w.bd.task = b.task) }
  let o := v.bd
  let b := { b with ep := o.ep, ccount := o.ccount, notice := o.notice, irq := o.irq, cap := o.cap, copies := o.copies, reads := o.reads
                    bursts := o.bursts, sends := o.sends, gone := false }
  let s := s.bindCore b
  let x := s.core
  let x := { x with
    spad := v.core.spad.foldl (fun (m : Memory) (c : Nat × Byte) => m.set (c.1 + b.base * 512) c.2) x.spad
    spadPoison := v.core.spadPoison.foldl (fun l u => insertNat (u + b.base * 8) l) x.spadPoison }
  let lane := (x.eng.noLane b.ctx).lane ++ v.core.eng.lane
  let x := { x with eng := { x.eng with lane } }
  let x := if b.eng then { x with eng := { v.core.eng with lane }, lnkw := v.core.lnkw, lnke := v.core.lnke, bar := v.core.bar, tags := v.core.tags } else x
  let ts := v.ths.map (s.resumed v)
  let s := ts.foldl (fun s t => s.addThread t) { s with core := x }
  let s := s.updCx b.ctx fun x => x.mailDrop fun m => m.held && ts.any fun t => m.src = t.key
  s.lend b.core b.ctx

/-- unbind: the context's entries, run and minimums on the core are free, and its threads there are gone; the engines rest, and the pair's
lending ends, with its banks gated (R402). -/
def State.unbindCore (c ctx : Nat) (s : State) : State :=
  let gate (x : Core) : Core := { x with banks := Vector.replicate 20 .gated }
  match s.bind? c ctx with
  | none => s
  | some b =>
    let p := s.partner c ctx b.task b.dark
    let s := if b.dark then (s.updCore p gate).updBd p ctx fun g => { g with lent := false } else s
    let s := s.focusOn c ctx
    let x := s.core.wipe b
    let x := { x with
      slots := x.slots.map fun e => match e with | some (d, _) => if d = ctx then none else e | none => none
      tlb := x.tlb.filter fun t => t.ctx != ctx }
    let x := if b.heat = .gale then gate x else x
    let x := if x.holder = some ctx then
      { x with holder := none, eng := { lane := (x.eng.noLane ctx).lane }, lnkw := none, lnke := none, bar := Vector.replicate 4 {}, tags := [] }
      else { x with eng := x.eng.noLane ctx }
    let here (t : Thread) : Bool := t.core = c && t.ctx = ctx
    let s := { s with
      core := x
      bd := { s.bd with gone := true }
      ths := s.ths.filter fun t => !(here t)
      th := if here s.th then { s.th with exited := true } else s.th }
    s.holdIfIdle c

/-- What a resume record finds saved. -/
def State.savedFor (s : State) (p : Pend) : Option Saved :=
  ((s.cx? (recCtx p.rec_)).map (·.saved)).bind fun l => l.find? fun v => v.bd.core = p.core && v.bd.task = recTask p.rec_

/-- A record's time has come: its core is on, and stands at the start of a frame at least 64 clk after go (R388, R500); a resume waits for the
eddy contexts of the saved eddies (R422). -/
def State.pendDue (s : State) (p : Pend) : Bool :=
  let n := (s.core? p.core).clk
  (s.phys? p.core).any (fun q => (s.pcore q).pw = .on) && n % 64 = 0 && decide (p.at_ + 64 ≤ n) &&
  (recOp p.rec_ != 2 || (s.savedFor p).all fun v => v.ths.all fun t => t.slot < 8 || s.eddyFree p.core (t.slot - 8))

/-- What is in transit to a core of an ended task lapses with its registers (R435). -/
def State.dropPkts (core ctx : Nat) (s : State) : State :=
  { s with pkts := s.pkts.filter fun p => match p with
    | .link d c _ _ _ | .arrival c d _ _ _ | .release c d _ _ _ _ _ => !(d = core && c = ctx)
    | .gang k _ _ => !(k.core = core && k.ctx = ctx)
    | _ => true }

/-- BIND_RECORD_APPLY: the k-th accepted record takes effect, once it is due. A second record of a context that the core carries already
changes nothing (log 21). -/
def State.applyAt (k : Nat) (s : State) : State :=
  match s.pends[k]? with
  | none => s
  | some p =>
    let b := recBind p.core p.rec_
    let t := { s with pends := s.pends.eraseIdx k }
    if !(s.pendDue p) then s
    else if recOp p.rec_ = 3 then (t.unbindCore p.core b.ctx).dropPkts p.core b.ctx
    else if (s.bind? p.core b.ctx).isSome || ((s.cx? b.ctx).bind (·.task? b.task)).isNone then t
    else if recOp p.rec_ = 1 then t.applyStart b p.rec_[6]
    else match s.savedFor p with
      | some v => t.applyResume b v
      | none => t

def execBindRecordApply (k : Nat) (s : State) : Out1 := .next (s.applyAt k)

/-! ### Writes of the management core's registers (R387, R390, R502) -/

def dispatchBase : Nat := 0xF000020000000
def powerBase : Nat := 0xF000030000000

/-- Sets a logical core's entry. No two entries name one physical core: another entry that names it goes. -/
def State.setL2p (c : Nat) (p : Option Nat) (s : State) : State :=
  let s := { s with dies := s.dies.map fun d => { d with l2p := d.l2p.filter fun e => e.1 != c && some e.2 != p } }
  match p with
  | none => s
  | some p => let d := s.die (coreDie c); s.setDie (coreDie c) { d with l2p := (c, p) :: d.l2p }

/-- A write of an entry: none of a logical core that carries a context, and none that would take such a core's physical core (R390). -/
def State.writeL2p (c : Nat) (p : Option Nat) (s : State) : State :=
  let carries (l : Nat) : Bool := !(s.boundList l).isEmpty
  if carries c || (p.bind s.logical?).any carries then s else s.setL2p c p

/-- An entry of Table 12-7, as the physical core it names. -/
def l2pEntry (v : Nat) : Option Nat :=
  if v.testBit 15 && v / 64 % 64 < 48 then some (768 * (v / 4096 % 4) + 16 * (v / 64 % 64) + v / 4 % 16) else none

/-- A write to a die's dispatch block. -/
def State.dispatchWrite (d o : Nat) (v : Word) (s : State) : State :=
  let x := s.die d
  if o = 0 then s.setDie d { x with target := v.setWidth 10 }
  else if h : 0x40 ≤ o ∧ o < 0x80 then
    if o % 8 = 0 then s.setDie d { x with rec_ := x.rec_.set ((o - 0x40) / 8) v (by omega) } else s
  else if o = 0x80 then (if v = 1 then s.setDie d { x with busy := true } else s)
  else if 0x1000 ≤ o && o < 0x1600 && o % 8 = 0 then
    (List.range 4).foldl (fun s i => s.writeL2p (768 * d + (o - 0x1000) / 2 + i) (l2pEntry (v.toNat / 2 ^ (16 * i) % 2 ^ 16))) s
  else s

/-- A write to a die's power block. -/
def State.powerWrite (d o : Nat) (v : Word) (s : State) : State :=
  let x := s.die d
  let n := v.toNat
  if o = 0 then (if 10 ≤ n && n ≤ 1000 then s.setDie d { x with pbhold := n } else s)
  else if o = 8 then (if n % 1024 < 768 then s.wakeCore (768 * d + n % 1024) else s)
  else if o = 0x10 then
    let tr := n % 256
    let tt := n / 2 ^ 8 % 256
    let td := n / 2 ^ 16 % 256
    if tr < tt && tt < td && td ≤ 110 then s.setDie d { x with tr, tt, td } else s
  else if h : 0x200 ≤ o ∧ o < 0x260 then
    if o % 8 = 0 then s.setDie d { x with pidle := x.pidle.set ((o - 0x200) / 8) n (by omega) } else s
  else s

/-- A management register's block: its base, the die, and the offset. -/
def regBlk (base a : Nat) : Option (Nat × Nat) :=
  if base ≤ a && a < base + 4 * 0x1000000 then some ((a - base) / 0x1000000, (a - base) % 0x1000000) else none

/-- REGISTER_WRITE by the management core: its blocks answer as R387 and R502 say; a write that reaches no register completes with error
status (R18). -/
def State.registerWrite (a : Nat) (v : Word) (s : State) : State :=
  match regBlk dispatchBase a, regBlk powerBase a with
  | some (d, o), _ => s.dispatchWrite d o v
  | none, some (d, o) => s.powerWrite d o v
  | none, none => s.out (.reg a v true)

def execRegisterWrite (addr : Nat) (val : Word) (s : State) : Out1 := .next (s.registerWrite addr val)

/-! ### Reads of the management core's registers (R382, R387, R390, R502) -/

/-- An entry of Table 12-7. -/
def State.l2pWord (s : State) (c : Nat) : Nat :=
  match s.phys? c with
  | some p => 2 ^ 15 + 2 ^ 12 * (p / 768) + 2 ^ 6 * (p / 16 % 48) + 2 ^ 2 * (p % 16)
  | none => 0

/-- Entry i of a physical core's slot table (Table 12-1). -/
def State.slotEntry (s : State) (p i : Nat) : Nat :=
  match s.logical? p with
  | some c => match ((s.core? c).slots.toList[i]?).join with
    | some (ctx, thr) => 2 ^ 15 + 2 ^ 8 * ctx + thr
    | none => 0
  | none => 0

/-- Four 16-bit entries as a register word. -/
def quadWord (f : Nat → Nat) : Word := wordN ((List.range 4).map fun i => 2 ^ (16 * i) * f i).sum

/-- A register of a dispatch block. What is write-only reads zero. -/
def State.dispatchRead (s : State) (d o : Nat) : Option Word :=
  let x := s.die d
  if o % 8 != 0 then none
  else if o = 0 then some (x.target.setWidth 64)
  else if (0x40 ≤ o && o < 0x80) || o = 0x80 then some 0
  else if o = 0x88 then some (x.bstat.setWidth 64 ||| if x.busy then 0x80000000 else 0)
  else if 0x1000 ≤ o && o < 0x1600 then some (quadWord fun i => s.l2pWord (768 * d + (o - 0x1000) / 2 + i))
  else if 0x10000 ≤ o && o < 0x28000 then
    some (quadWord fun i => s.slotEntry (768 * d + (o - 0x10000) / 128) ((o - 0x10000) % 128 / 2 + i))
  else none

/-- pcore (Table 17-3). -/
def PCore.word (x : PCore) : Word :=
  wordN (2 ^ 24 * (x.temp % 256) + 2 ^ 4 * (x.ratio - 1) + match x.pw with | .on => 0 | .hold => 1 | .off => 2 | .switching => 3)

/-- A register of a power block. DESIGN CHOICE (log 53): the idle set is read at 0x200 to 0x25F, where the voltages of rows 32 to 43 would
stand too. -/
def State.powerRead (s : State) (d o : Nat) : Option Word :=
  let x := s.die d
  if o % 8 != 0 then none
  else if o = 0 then some (wordN x.pbhold)
  else if o = 8 then some 0
  else if o = 0x10 then some (wordN (x.tr + 2 ^ 8 * x.tt + 2 ^ 16 * x.td))
  else if 0x100 ≤ o && o < 0x280 && !(0x200 ≤ o && o < 0x260) then some (wordN (s.prow (48 * d + (o - 0x100) / 8)).mv)
  else if 0x200 ≤ o && o < 0x260 then x.pidle.toList[(o - 0x200) / 8]?
  else if 0x1000 ≤ o && o < 0x2800 then some (s.pcore (768 * d + (o - 0x1000) / 8)).word
  else none

/-- A read of a management register answers its word, or error status where none stands (R18). -/
def State.registerRead (a : Nat) (s : State) : State :=
  let r := match regBlk dispatchBase a, regBlk powerBase a with
    | some (d, o), _ => s.dispatchRead d o
    | none, some (d, o) => s.powerRead d o
    | none, none => none
  match r with
  | some v => s.out (.reg a v false)
  | none => s.out (.reg a 0 true)

end Sys2Proof.Machine
end

