-- ==== Sys2Proof/Machine/Matrix.lean ====
section
/-! DEFINITION. Matrix instructions and the matrix engine, 0x80 to 0x8F (R198 to R228). -/
namespace Sys2Proof.Machine
open Sys2Proof

/-! ### Shapes -/

def tileCols (wide : Bool) : Nat := if wide then 64 else 32
def Tile.cols (t : Tile) : Nat := tileCols t.wide
/-- Quarters that a tile occupies (R36). -/
def quarters (rows : Nat) (wide : Bool) : Nat := (rows * tileCols wide + 2047) / 2048
/-- G, the rows of a step (R198). -/
def rowsPerStep (a b : Ty) : Nat :=
  let w := max a.width b.width
  if w ≤ 4 then 16 else if w ≤ 8 then 8 else 4

def tSpec (t : Fin 4) : BitVec 8 := specOf 0xA0 t

/-- The matrix trap: op and reason (Table 6-7). -/
def matTrap {α : Type} (op reason : Nat) : Except Stop α := trap 0x40 (256 * op + reason)

def State.setEng (e : Engine) (s : State) : State := { s with core := { s.core with eng := e } }

/-! ### Issue (R199, R200) -/

/-- What a matrix instruction begins with; a tile is among the operands of `ops`, and so are the vector registers, whose lent banks it
touches (R61). -/
def State.beginMat (s : State) (op : Nat) (ops : List (Bool × BitVec 8)) (ds ss : List (BitVec 8)) : Except Stop State := do
  s.present ops
  s.noEddy op
  if !s.holds then matTrap op 1
  let s ← s.begin ds ss
  .ok (s.wakeRegs (ops.map (·.2)))

/-- A tile operand is valid (R36). -/
def State.tileOk (s : State) (t : Fin 4) : Except Stop Unit := if s.core.eng.acc[t].valid then .ok () else trap 0x41 (tSpec t).toNat

/-- Enters a command in the queue with its ranges and its future; `f` is what the issue side changes. -/
def State.forkMat (op : MOp) (fl : Fl) (ranges : List (Nat × Nat)) (d : FDst) (f : Engine → Engine) (s : State) : Except Stop State := do
  if 2 ≤ (s.core.eng.queue.filter fun c => !c.begun && !c.ended).length then blockE
  let s ← s.enterRanges s.nextTag ranges
  let x := s.flush.fork d
  let e := f x.2.core.eng
  .ok (x.2.setEng { e with queue := e.queue ++ [{ tag := x.1, thr := s.th.slot, op, exts := ranges, flags := fl }] })

/-! ### Geometry (R207, R208) -/

def Geom.base (g : Geom) : Nat := g.a.toNat % 2 ^ 20
/-- A field of a geometry's source word. -/
def fld (w : Word) (lo n : Nat) : Nat := w.toNat / 2 ^ lo % 2 ^ n

/-- The conditions of R207. -/
def Geom.ok (g : Geom) : Bool :=
  attrLegal g.attr && !attrRaw g.attr && (attrTy g.attr).isA && (Ty.ofCode (attrFmt g.attr)).isSome &&
  if g.unf then
    g.a.toNat % 2 ^ 32 / 2 ^ 20 = 0 && g.a.toNat / 2 ^ 52 = 0 && g.b.toNat / 2 ^ 48 = 0 && fld g.c 24 8 = 0 &&
    [fld g.b 0 16, fld g.b 16 16, fld g.b 32 16, fld g.c 0 4, fld g.c 4 4, fld g.c 8 4, fld g.c 12 4, fld g.c 32 16, fld g.c 48 16].all
      (1 ≤ ·)
  else
    g.a.toNat / 2 ^ 20 = 0 && fld g.b 20 12 = 0 && g.b.toNat / 2 ^ 48 = 0 && g.c.toNat / 2 ^ 32 = 0 &&
    1 ≤ fld g.b 32 16 && 1 ≤ fld g.c 0 32

/-- Bytes that n elements of an attribute take from their start on. -/
def attrBytes (a : BitVec 11) (n : Nat) : Nat :=
  match recSize a with
  | some r => (n + 191) / 192 * r
  | none => (n * (attrTy a).width + 7) / 8

/-- The window extent of a geometry, as offset and length (R203). -/
def Geom.extent (g : Geom) : Nat × Nat :=
  if g.unf then (g.base, (fld g.b 0 16 * fld g.b 16 16 - 1) * fld g.a 32 20 + attrBytes g.attr (fld g.b 32 16))
  else (g.base, (fld g.b 32 16 - 1) * fld g.b 0 20 + attrBytes g.attr (fld g.c 0 32))

/-- Where element (m, κ) starts and its number there; none where it reads +0.0 by rule. -/
def Geom.place (g : Geom) (m k : Nat) : Option (Nat × Nat) :=
  if g.unf then
    let hh := fld g.b 0 16
    let ww := fld g.b 16 16
    let cc := fld g.b 32 16
    let kh := fld g.c 0 4
    let kw := fld g.c 4 4
    let ow := fld g.c 32 16
    if fld g.c 48 16 * ow ≤ m then none
    else
      let ch := k % cc
      let t := k / cc
      if kh * kw ≤ t then none
      else
        let iy : Int := (m / ow * fld g.c 8 4 + t / kw : Nat) - (fld g.c 16 4 : Int)
        let ix : Int := (m % ow * fld g.c 12 4 + t % kw : Nat) - (fld g.c 20 4 : Int)
        if iy < 0 || (hh : Int) ≤ iy || ix < 0 || (ww : Int) ≤ ix then none
        else some (g.base + (iy.toNat * ww + ix.toNat) * fld g.a 32 20, ch)
  else if fld g.b 32 16 ≤ m || fld g.c 0 32 ≤ k then none
  else some (g.base + m * fld g.b 0 20, k)

/-- One element read from the window by an attribute: its bytes as offsets and lengths, and its value once they are there. -/
structure WElem where
  parts : List (Nat × Nat)
  val : Val
  fl : Fl
  deriving DecidableEq, Repr

/-- A touch of the lee banks that window bytes lie in (R61). -/
def State.winWake (l : List (Nat × Nat)) (s : State) : State :=
  { s with core := l.foldl (fun (c : Core) (p : Nat × Nat) => c.wakeAt (s.bd.spadAddr p.1)) s.core }

/-- Element e of an array or of records that start at a window offset, without the superblock factor (R111, R113, R208). -/
def State.winElem (s : State) (a : BitVec 11) (start e : Nat) : WElem :=
  let at_ (o n : Nat) : List Byte := s.core.spad.bytes (s.bd.spadAddr o) n
  match recSize a with
  | some r =>
    let o := start + e / 192 * r
    let pos := e % 192
    let parts := (Elem.rec_ ⟨true, 0, a, 0, 0⟩ pos).parts.filter fun p => p.2 = 1
    let v := decodeElement a (at_ o r) pos false
    ⟨parts.map fun p => (o + p.1, p.2), v.1, v.2⟩
  | none =>
    let t := attrTy a
    if t.width = 4 then
      let c := leNat (at_ (start + e / 2) 1) / 16 ^ (e % 2) % 16
      ⟨[(start + e / 2, 1)], valueOf t c, 0⟩
    else
      let w := t.width / 8 + (if t.width % 8 = 0 then 0 else 1)
      let c := leNat (at_ (start + e * w) w)
      ⟨[(start + e * w, w)], valueOf t c, snanFl t c⟩

/-- Some byte of the parts lies at or beyond the window; some byte is poisoned. -/
def State.winVoid (s : State) (l : List (Nat × Nat)) : Bool := l.any fun p => s.bd.winSize < p.1 + p.2
def State.winPoison (s : State) (l : List (Nat × Nat)) : Bool := l.any fun p => poisoned s.core.spadPoison (s.bd.spadAddr p.1) p.2

/-- The A block of G rows from row m on, at K-block k (R209), its flags, and the window bytes it read. -/
def State.rowBlock (s : State) (g m k : Nat) : Blk × Fl × List (Nat × Nat) :=
  let e := s.core.eng
  match e.geom with
  | none => (⟨s.bd.ctx, g, .q4, e.ksum, .shape, List.replicate (24 * g) (.zero false)⟩, 0, [])
  | some x =>
    let es := (List.range (24 * g)).map fun i =>
      match x.place (m + i / 24) (24 * k + i % 24) with
      | none => (⟨[], .zero false, 0⟩ : WElem)
      | some (st, el) => s.winElem x.attr st el
    let parts := es.flatMap (·.parts)
    let mark : Mark := if s.winVoid parts then .void else if s.winPoison parts then .poisoned else if !e.kval then .scale else .good
    (⟨s.bd.ctx, g, attrTy x.attr, e.ksum, mark, es.map (·.val)⟩, es.foldl (fun f x => f ||| x.fl) 0, parts)

/-! ### The A lane (R211, R212) -/

/-- The core holds the engine for the context (a lee, or a core held by another, passes blocks through). -/
def State.engineHeld (s : State) (core ctx : Nat) : Bool :=
  (s.core? core).holder = some ctx && (s.bind? core ctx).any fun b => !b.dark && !b.went

/-- The next core to the east within the task's rectangle. -/
def State.eastOf (s : State) (core ctx : Nat) : Option Nat :=
  match (s.cx? ctx).bind fun x => x.tasks.find? fun t => t.st = .placed && t.holds core with
  | some t => if t.holds (core + 1) && coreCol core < 15 then some (core + 1) else none
  | none => none

/-- Whether the core to the east can take a block now. -/
def State.eastRoom (s : State) (core ctx : Nat) : Bool :=
  match s.eastOf core ctx with
  | none => false
  | some e =>
    let g := (s.core? e).eng
    if !(s.engineHeld e ctx) then g.lane.isEmpty
    else match g.role with
      | .fwd | .fin => decide (g.feed.length < 4)
      | _ => false

/-- LANE_BLOCK_TRANSFER: the block on its way from a core moves one hop east. -/
def State.laneMove (core : Nat) (s : State) : State :=
  match (s.core? core).eng.lane with
  | [] => s
  | b :: rest =>
    match s.eastOf core b.ctx with
    | none => s
    | some e =>
      let took (s : State) : State := s.updCore core fun x => { x with eng := { x.eng with lane := rest } }
      let onEast (f : Engine → Engine) (s : State) : State := (s.focusCore e).updCore e fun x => { x with eng := f x.eng }
      if !(s.eastRoom core b.ctx) then s
      else if !(s.engineHeld e b.ctx) then took s |> onEast fun g => { g with lane := [b] }
      else match (s.core? e).eng.role with
        | .fin => took s |> onEast fun g => { g with feed := g.feed ++ [b] }
        | .fwd =>
          if (s.core? e).eng.lane.isEmpty && s.eastRoom e b.ctx then took s |> onEast fun g => { g with feed := g.feed ++ [b], lane := [b] }
          else s
        | _ => s

def execLaneBlockTransfer (core : Nat) (s : State) : Out1 := .next (s.laneMove core)

/-! ### Execution -/

/-- The pair that two scale patterns give (R214): the exponents of normal powers of two. -/
def powExp (w : W32) : Option Int :=
  let e : Nat := w.toNat / 2 ^ 23
  if w.toNat % 2 ^ 23 = 0 && 1 ≤ e && e ≤ 254 then some ((e : Int) - 127) else none

def scalePair (a b : W32) : Option Int :=
  match powExp a, powExp b with
  | some x, some y => some (x + y)
  | _, _ => none

/-- Ends a command with a status. -/
def MCmd.done (c : MCmd) (st : BitVec 8) : MCmd := { c with begun := true, ended := true, stop := some st }

/-- mslab (R213). -/
def State.execSlab (c : MCmd) (sl : Fin 2) (cols : Nat) (a : BitVec 11) (base pitch : Nat) (s : State) : MCmd × State :=
  let put (x : Slab) (s : State) : State := s.setEng { s.core.eng with slab := s.core.eng.slab.set sl x }
  let t := attrTy a
  if !(attrLegal a) || attrRaw a || !t.isA || (Ty.ofCode (attrFmt a)).isNone then (c.done 0x10, put {} s)
  else
    let es := (List.range cols).flatMap fun j => (List.range 192).map fun q => s.winElem a (base + j * pitch) q
    let parts := es.flatMap (·.parts)
    if s.winVoid parts then (c.done 4, put {} s)
    else
      let bad := s.winPoison parts
      let data := es.map (·.val) ++ List.replicate ((32 - cols) * 192) (.zero false)
      let s := if bad then s.mcheck 4 s.cx.id (s.bd.spadAddr base) else s
      ({ c.done 0 with flags := es.foldl (fun f x => f ||| x.fl) c.flags, pois := bad }, put ⟨t, true, bad, data⟩ (s.winWake parts))

/-- mwrite (R219): lanes beyond the tile's columns are ignored. -/
def Tile.writeRow (t : Tile) (wide : Bool) (row grp : Nat) (v : VWord) : Tile :=
  let n := tileCols wide
  let lanes := lanesOf 32 v
  { t with data := t.data.zipIdx.map fun x =>
      let j := x.2 % n
      if x.2 / n = row && 24 * grp ≤ j && j < 24 * grp + 24 then BitVec.ofNat 32 (lanes.getD (j - 24 * grp) 0) else x.1 }

/-- mmerge (R220): one step of the merge of R130 on every element. -/
def mergeTiles (a b : Tile) : Tile × Fl × BitVec 8 :=
  if a.poison || b.poison then ({ a with poison := true }, 0, 1)
  else
    let r := (a.data.zip b.data).map fun x => merge32 x.1.toNat x.2.toNat
    ({ a with data := r.map fun x => BitVec.ofNat 32 x.1 }, r.foldl (fun f x => f ||| x.2) 0, 0)

/-! ### mquant (R221) -/

/-- The cells of one element of a page that is no record page, with its flags. -/
def quantCell (t : Ty) (rnd : Rnd) (sat : Bool) (p : Spot) (n : Nat) (bits : W32) : List (Spot × Byte × Byte) × Fl :=
  let v := convCode t rnd sat .f bits.toNat
  let w := stepOf p.attr t
  let e : Elem := if w = 0 then .nib p (n % 2 = 1) else .plain p w
  match storeElem t rnd sat v.1 e with
  | .ok (cells, fl) => (cells.map fun c => ({ p with pa := c.1, va := p.va + (c.1 - p.pa) }, c.2.1, c.2.2), fl ||| v.2)
  | .error _ => ([], v.2)

/-- How writing a tile goes on: the cells so far, flags, elements written, and the status that stopped it. -/
structure QRun where
  cells : List (Spot × Byte × Byte) := []
  flags : Fl := 0
  count : Nat := 0
  stop : Option (BitVec 8 ⊕ (Nat × OpStop)) := none
  deriving DecidableEq, Repr

/-- What an unreachable byte does to the run. -/
def QRun.halt (va : Nat) (e : OpStop) (r : QRun) : QRun := { r with stop := some (.inr (va, e)) }

/-- One element of a plain or raw row. -/
def State.quantElem (s : State) (a : BitVec 11) (t : Ty) (rnd : Rnd) (sat : Bool) (row n : Nat) (bits : W32) (r : QRun) : QRun :=
  if r.stop.isSome then r
  else
    let w := stepOf a t
    let va := va64 (row + (if w = 0 then n / 2 else n * w))
    match s.opSpots va true (max w 1) with
    | (p :: _, none) =>
      if p.attr != a then { r with stop := some (.inl 0x10) }
      else
        let c := quantCell t rnd sat p n bits
        { r with cells := r.cells ++ c.1, flags := r.flags ||| c.2, count := r.count + 1 }
    | (ps, some e) => r.halt (va + ps.length) e
    | ([], none) => r

/-- One block of a row on a record page. -/
def State.quantRec (s : State) (a : BitVec 11) (rnd : Rnd) (sb : Int) (row blk cols : Nat) (bits : List W32) (r : QRun) : QRun :=
  if r.stop.isSome then r
  else
    let k := codeBytes a
    let va := va64 (row + (if k = 192 then 24 * blk else 12 * blk))
    match s.opSpot va true with
    | .error e => r.halt va e
    | .ok p =>
      if p.attr != a then { r with stop := some (.inl 0x10) }
      else match (recSize a).bind (recAt p) with
        | none => { r with stop := some (.inl 0x10) }
        | some (rp, pos) =>
          let code := (sb + 127).toNat * 2 ^ 23
          let q := quantFor a pos (bits.map (·.toNat)) code rnd
          let cells := (blockCells a pos q.1 q.2.1 code).map fun c => ({ rp with pa := rp.pa + c.1, va := rp.va + c.1 }, c.2, (0xFF : Byte))
          { r with cells := r.cells ++ cells, flags := r.flags ||| q.2.2, count := r.count + min 24 (cols - 24 * blk) }

/-- The layout checks of R221, made before anything is written. -/
def quantLayout (a : BitVec 11) (t : Ty) (rows cols base pitch : Nat) : Bool :=
  (List.range rows).all fun i =>
    let va := va64 (base + i * pitch)
    match recSize a with
    | none => let w := stepOf a t; w = 0 || va % w = 0
    | some r => match recAt ⟨false, va, a, va % 65536, va⟩ r with
      | none => false
      | some (_, pos) => pos % 24 = 0 && pos + 24 * ((cols + 23) / 24) ≤ 192

def State.execQuant (c : MCmd) (t : Fin 4) (rows : Nat) (wide : Bool) (ty : Ty) (rnd : Rnd) (sat : Bool) (sb : Int) (base pitch : Nat)
    (s : State) : MCmd × State :=
  let tile := s.core.eng.acc[t]
  let cols := tileCols wide
  match s.opSpot base true with
  | .error (.fail k) => (c.done 4, s.opNote base (.fail k))
  | .error (.wait w) => ({ c with begun := true }, s.opNote base (.wait w))
  | .ok p =>
    let isRec := (recSize p.attr).isSome
    if (isRec && ty != .f) || !(quantLayout p.attr ty rows cols base pitch) then (c.done 0x10, s)
    else
      let run := (List.range rows).foldl (fun (r : QRun) (i : Nat) =>
        let row := va64 (base + i * pitch)
        let data := (tile.data.drop (i * cols)).take cols
        if isRec then
          (List.range ((cols + 23) / 24)).foldl (fun r b =>
            let lanes := (data.drop (24 * b)).take 24
            s.quantRec p.attr rnd sb row b cols (lanes ++ List.replicate (24 - lanes.length) 0) r) r
        else data.zipIdx.foldl (fun r x => s.quantElem p.attr ty rnd sat row x.2 x.1 r) r) {}
      match run.stop with
      | some (.inr (va, .wait w)) => ({ c with begun := true }, s.opNote va (.wait w))
      | stop =>
        let s1 := s.opWriteM run.cells
        let s2 := if tile.poison then s1.opPoisonAll (run.cells.map (·.1)) else s1
        let st : BitVec 8 := match stop with
          | some (.inl x) => x
          | some (.inr _) => 4
          | none => if tile.poison then 1 else 0
        let s3 := match stop with | some (.inr (va, e)) => s2.opNote va e | _ => s2
        let at_ := run.cells.map (·.1)
        ({ c.done st with flags := c.flags ||| run.flags, count := run.count, slices := slicesAt at_, host := hostAny at_ }, s3)

/-! ### Steps (R215, R216) -/

/-- Accumulator element (i, col) after one step. -/
def stepElem (old : W32) (terms : List Val) : W32 × Fl :=
  let m := sumExact (valueOf .f old.toNat :: terms)
  let q := round32 m.1
  (BitVec.ofNat 32 q.1, q.2 ||| m.2 ||| snanFl .f old.toNat)

/-- The tile, of the rows and width it had at issue, after a step of a block at row group g, half hh, K-block k. -/
def stepTile (t : Tile) (rows : Nat) (wide : Bool) (g gRows hh k : Nat) (e : Int) (fresh : Bool) (a : List Val) (sl : Slab) : Tile × Fl :=
  let n := tileCols wide
  let r := t.data.zipIdx.map fun x =>
    let i := x.2 / n
    let col := x.2 % n
    if gRows * g ≤ i && i < gRows * g + gRows && i < rows && 32 * hh ≤ col && col < 32 * hh + 32 then
      let terms := (List.range 24).map fun q =>
        let p := (a.getD ((i - gRows * g) * 24 + q) (.zero false)).mul (sl.data.getD ((col - 32 * hh) * 192 + 24 * k + q) (.zero false))
        let p2 := p.1.mul (.num (pow2 e))
        (p2.1, p.2 ||| p2.2)
      let y := stepElem (if fresh then 0 else x.1) (terms.map (·.1))
      (y.1, terms.foldl (fun f z => f ||| z.2) y.2)
    else (x.1, 0)
  ({ t with data := r.map (·.1) }, r.foldl (fun f x => f ||| x.2) 0)

/-- The checks of R216 before a block's steps, for the slots they use; `feed` says that the block came from the feed. -/
def stepCheck (tile : Tile) (sls : List Slab) (b : Blk) (ty : Ty) (g : Nat) (feed rval : Bool) : Option (BitVec 8) :=
  if sls.any fun sl => !sl.loaded then some 0x10
  else if tile.poison || sls.any (·.poison) || b.mark = .poisoned then some 1
  else if feed && b.mark = .void then some 4
  else if feed && (b.mark = .shape || b.g != g || b.t != ty) then some 0x10
  else if feed && b.mark = .scale then some 0x11
  else if !feed && !rval then some 0x11
  else none

/-- One step of a running mma: of its next block, which is checked once before its first half, or the discard of a block after a stop. -/
def State.mmaStep (c : MCmd) (fresh : Bool) (t : Fin 4) (rows : Nat) (wide : Bool) (f : MmaF) (reg : Option Blk) (s : State) : MCmd × State :=
  let e := s.core.eng
  let n := f.n1.val + 1
  let total := n * (f.ng1.val + 1)
  match reg.or e.feed.head? with
  | none => (c, s)
  | some b =>
    let pop (x : Engine) : Engine := if reg.isSome then x else { x with feed := x.feed.drop 1 }
    let next (c : MCmd) : MCmd := let c := { c with blk := c.blk + 1 }; { c with ended := decide (total ≤ c.blk) }
    if c.stop.isSome then (next c, s.setEng (pop e))
    else
      let hh := if f.both then c.count % 2 else if f.half then 1 else 0
      let sl : Fin 2 := if f.both then ⟨hh % 2, Nat.mod_lt _ (by decide)⟩ else f.slot
      let g := rowsPerStep f.t (e.slab[if f.both then 0 else f.slot]).t
      let sls := if f.both then [e.slab[0], e.slab[1]] else [e.slab[f.slot]]
      match if f.both && hh = 1 then none else stepCheck e.acc[t] sls b f.t g reg.isNone e.rval with
      | some st =>
        let e := if st = 1 then { e with acc := e.acc.set t { e.acc[t] with poison := true } } else e
        (next { c with stop := some st }, s.setEng (pop e))
      | none =>
        let k := c.blk % n
        let x := stepTile e.acc[t] rows wide (f.rg.val + c.blk / n) g hh (f.kb.val + k) (if reg.isSome then e.rsum else b.sum)
          (fresh && k = 0) b.data e.slab[sl]
        let e := { e with acc := e.acc.set t x.1 }
        let c := { c with flags := c.flags ||| x.2, count := c.count + 1 }
        if f.both && hh = 0 then (c, s.setEng e) else (next c, s.setEng (pop e))

/-- One block of a running mrow, where the feed, and the lane of a source, have room (R209, R211). -/
def State.rowStep (c : MCmd) (g m0 kb0 n ng : Nat) (s : State) : MCmd × State :=
  let e := s.core.eng
  let east := e.role = .src
  if 4 ≤ e.feed.length || (east && (!e.lane.isEmpty || !(s.eastRoom s.core.id s.bd.ctx))) then ({ c with begun := true }, s)
  else
    let b := s.rowBlock g (m0 + g * (c.blk / n)) (kb0 + c.blk % n)
    let s := (if b.1.mark = .poisoned then s.mcheck 4 s.cx.id 0 else s).winWake b.2.2
    let e := s.core.eng
    let c := { c with begun := true, blk := c.blk + 1, count := c.count + 1, flags := c.flags ||| b.2.1 }
    let c := if n * ng ≤ c.blk then c.done 0 else c
    (c, s.setEng { e with feed := e.feed ++ [b.1], lane := if east then [b.1] else e.lane })

/-- A command that runs in one move. -/
def State.execOne (c : MCmd) (s : State) : MCmd × State :=
  let e := s.core.eng
  let pair (a b : W32) (set : Int → Bool → Engine) : MCmd × State :=
    match scalePair a b with
    | some x => (c.done 0, s.setEng (set x true))
    | none => (c.done 0x11, s.setEng (set 0 false))
  match c.op with
  | .row g m0 kb0 n ng => s.rowStep c g m0 kb0 n ng
  | .mma .. => ({ c with begun := true }, s)
  | .geom g => if g.ok then (c.done 0, s.setEng { e with geom := some g }) else (c.done 0x10, s)
  | .slab sl cols a base pitch => s.execSlab c sl cols a base pitch
  | .zero t rows wide =>
    (c.done 0, s.setEng { e with acc := e.acc.set t { e.acc[t] with poison := false, data := List.replicate (rows * tileCols wide) 0 } })
  | .write t wide row grp v => (c.done 0, s.setEng { e with acc := e.acc.set t (e.acc[t].writeRow wide row grp v) })
  | .quant t rows wide ty rnd sat _ sb base pitch => s.execQuant c t rows wide ty rnd sat sb base pitch
  | .keep a b => pair a b fun x v => { e with ksum := x, kval := v }
  | .scale a b => pair a b fun x v => { e with rsum := x, rval := v }
  | .merge a b =>
    let r := mergeTiles e.acc[a] e.acc[b]
    ({ c.done r.2.2 with flags := c.flags ||| r.2.1 }, s.setEng { e with acc := e.acc.set a r.1 })
  | .link r => (c.done 0, s.setEng { e with role := r })

/-- Commands that the row former or the lane waits for: they do not run beside an mrow. -/
def MOp.former : MOp → Bool
  | .row .. | .geom _ | .keep _ _ | .link _ => true
  | _ => false

def MOp.isRow : MOp → Bool
  | .row .. => true
  | _ => false

def MOp.isMma : MOp → Bool
  | .mma .. => true
  | _ => false

/-- The commands in execution or next: the first that has not ended, and, beside an mrow, the one after it. -/
def Engine.active (e : Engine) : List MCmd :=
  match e.queue.filter fun c => !c.ended with
  | c :: d :: _ => if c.op.isRow && c.begun && !d.op.former then [c, d] else [c]
  | l => l

def Engine.putCmd (c : MCmd) (e : Engine) : Engine := { e with queue := e.queue.map fun x => if x.tag = c.tag then c else x }

/-- The engine's core with its holder in focus. -/
def State.focusEng (core : Nat) (s : State) : Option State :=
  match (s.core? core).holder with
  | some ctx => if (s.bind? core ctx).isSome then some (s.focusOn core ctx) else none
  | none => none

def State.runCmd (s : State) (c : MCmd) : State :=
  let x := s.execOne c
  x.2.setEng (x.2.core.eng.putCmd x.1)

/-- The engine of the core in focus takes no command: a save of its task, or a drift of its core that is due, is pending (R225). -/
def State.engHalt (s : State) : Bool :=
  (s.cx.task? s.bd.task).any (fun t => t.st = .saving) ||
  match s.phys? s.core.id with
  | some p => s.pcores.any fun x => x.id = p && x.acts.any fun a => a.kind = 2 && (a.due ≤ s.iod || s.bd.notice.getLsbD 63)
  | none => false

/-- MATRIX_COMMAND_EXECUTION: the active commands that run outside the step pipe move on. -/
def State.matExec (core : Nat) (s : State) : State :=
  match s.focusEng core with
  | none => s
  | some s => (s.core.eng.active.filter fun c => (c.begun || !s.engHalt) && !(c.op.isMma && c.begun)).foldl State.runCmd s

/-- An mma that waits on an empty feed, or an mrow that waits for lane room (R225). -/
def State.cmdWaits (s : State) (c : MCmd) : Bool :=
  match c.op with
  | .mma _ _ _ _ _ none => s.core.eng.feed.isEmpty
  | .row .. => 4 ≤ s.core.eng.feed.length ||
      (s.core.eng.role = .src && (!s.core.eng.lane.isEmpty || !(s.eastRoom s.core.id s.bd.ctx)))
  | _ => false

/-- The engine stands where a save or a move may take it: every executing command has ended, or waits at a step or block boundary (R225). -/
def State.engStands (s : State) (core ctx : Nat) : Bool :=
  !((s.core? core).holder = some ctx) ||
  let t := s.focusOn core ctx
  t.core.eng.queue.all fun c => !c.begun || c.ended || t.cmdWaits c

/-- The duty of a heat class, in eighths (Table 12-9), under the context's own cap (R287). -/
def dutyOf (h : Heat) (cap : Nat) : Nat := min cap (match h with | .still => 2 | .breeze => 4 | .gale => 8)

/-- MATRIX_STEP: one engine clk; a step where the duty allows and an mma has what it needs (R215, R397). -/
def State.matStep (core : Nat) (s : State) : State :=
  match s.focusEng core with
  | none => s
  | some s =>
    let e := s.core.eng
    let d := dutyOf s.bd.heat s.bd.cap
    let due := decide (e.clk * d / 8 < (e.clk + 1) * d / 8)
    let s := s.setEng { e with clk := e.clk + 1 }
    match due, e.active.find? fun c => c.op.isMma && c.begun with
    | true, some c => match c.op with
      | .mma fresh t rows wide f reg => let x := s.mmaStep c fresh t rows wide f reg; x.2.setEng (x.2.core.eng.putCmd x.1)
      | _ => s
    | _, _ => s

/-- What a command that completes changes of what mstat shows. -/
def MCmd.show (c : MCmd) (v : EngView) : EngView :=
  let st := c.stop.getD 0
  if !c.begun then v
  else match c.op with
  | .slab i .. => { v with sload := v.sload.set i (st = 0), spois := v.spois.set i c.pois }
  | .mma _ t .. => if st = 1 then { v with tpois := v.tpois.set t true } else v
  | .merge a _ => if st = 1 then { v with tpois := v.tpois.set a true } else v
  | .zero t _ _ => { v with tpois := v.tpois.set t false }
  | .keep a b => { v with ksum := (scalePair a b).getD 0, kval := (scalePair a b).isSome }
  | .scale a b => { v with rsum := (scalePair a b).getD 0, rval := (scalePair a b).isSome }
  | .link r => { v with role := r }
  | .row .. | .geom _ | .write .. | .quant .. => v

/-- MATRIX_COMMAND_COMPLETION: the oldest command completes, if it has ended (R201). -/
def State.matComplete (core : Nat) (s : State) : State :=
  match s.focusEng core with
  | none => s
  | some s =>
    match s.core.eng.queue with
    | c :: r =>
      if c.ended then
        let w := doneWord (c.count * 2 ^ 16 + c.flags.toNat) (c.stop.getD 0)
        let s := s.setEng { s.core.eng with queue := r, view := c.show s.core.eng.view }
        let s := if c.slices = 0 then s else s.updTh ⟨core, s.bd.ctx, c.thr⟩ fun t => { t with mjn := t.mjn ++ [(c.tag, c.slices)] }
        let x := s.hostWord c.host w
        x.2.complete c.tag x.1 c.slices
      else s
    | [] => s

def execMatrixCommandExecution (core : Nat) (s : State) : Out1 := .next (s.matExec core)
def execMatrixStep (core : Nat) (s : State) : Out1 := .next (s.matStep core)
def execMatrixCommandCompletion (core : Nat) (s : State) : Out1 := .next (s.matComplete core)

/-! ### Instructions -/

def opsD (d : FDst) (l : List (BitVec 8)) : List (Bool × BitVec 8) := (true, d.spec) :: l.map fun a => (false, a)

def execMrow (rows : Fin 3) (n1 : Fin 8) (ng1 : Fin 32) (d : FDst) (a b : SReg) (s : State) : Out1 := s.finish (do
  let s ← s.beginMat 0x80 (opsD d [a.spec, b.spec]) [] [a.spec, b.spec]
  let ext := match s.core.eng.geomIssued with | some g => [(winBase + g.extent.1, g.extent.2)] | none => []
  s.forkMat (.row (16 / 2 ^ rows.val) (s.sreg a).toNat (s.sreg b).toNat (n1.val + 1) (ng1.val + 1)) 0 ext d id)

def execMgeom (unf : Bool) (attr : BitVec 11) (d : FDst) (a b c : SReg) (s : State) : Out1 := s.finish (do
  let s ← s.beginMat 0x81 (opsD d [a.spec, b.spec, c.spec]) [] [a.spec, b.spec, c.spec]
  let g : Geom := ⟨unf, attr, s.sreg a, s.sreg b, s.sreg c⟩
  s.forkMat (.geom g) 0 [] d fun e => if g.ok then { e with geomIssued := some g } else e)

def execMslab (attr : BitVec 11) (sl : Fin 2) (cols1 : Fin 32) (d : FDst) (a b : SReg) (s : State) : Out1 := s.finish (do
  let s ← s.beginMat 0x82 (opsD d [a.spec, b.spec]) [] [a.spec, b.spec]
  let base := (s.sreg a).toNat % 2 ^ 20
  let pitch := (s.sreg b).toNat % 2 ^ 20
  let cols := cols1.val + 1
  s.forkMat (.slab sl cols attr base pitch) 0 [(winBase + base, (cols - 1) * pitch + attrBytes attr 192)] d fun e =>
    { e with slabIssued := e.slabIssued.set sl (some (attrTy attr)) })

/-- The block of a register feed, with its decoding flags (R215). -/
def regBlock (t : Ty) (lo hi : VWord) (scales : Option VWord) : Blk × Fl :=
  let w := laneBits t
  let codes := lanesOf w lo ++ lanesOf w hi
  let vals := codes.zipIdx.map fun x =>
    let v := (valueOf t x.1, snanFl t x.1)
    match scales with
    | none => v
    | some c => ((v.1.mul (s8Val ((lanesOf 8 c).getD (x.2 / 24) 0))).1, v.2)
  (⟨0, codes.length / 24, t, 0, .good, vals.map (·.1)⟩, vals.foldl (fun f x => f ||| x.2) 0)

/-- mma and mmas. -/
def State.mma (s : State) (op : Nat) (fresh : Bool) (src : MmaSrc) (f : MmaF) (d : FDst) (t : Fin 4) : Out1 := s.finish (do
  let vs : List (BitVec 8) := match src with | .feed => [] | .reg v => [specOf 0x40 v] | .regs v c => [specOf 0x40 v, specOf 0x40 c]
  let s ← s.beginMat op (opsD d (tSpec t :: vs)) [] []
  s.tileOk t
  let e := s.core.eng
  let tile := e.acc[t]
  let fmt := (e.slabIssued[if f.both then 0 else f.slot]).getD f.t
  let g := rowsPerStep f.t fmt
  if (tile.rows + g - 1) / g * g ≤ (f.rg.val + f.ng1.val) * g then matTrap op 3
  let regPair (v : Fin 64) : Except Stop Unit := if v.val % 2 = 1 || f.n1 != 0 || f.ng1 != 0 then matTrap op 4 else .ok ()
  match src with | .feed => .ok () | .reg v => regPair v | .regs v _ => regPair v
  if (f.half || f.both) && !tile.wide then matTrap op 5
  let blk := match src with
    | .feed => none
    | .reg v => some (regBlock f.t s.src.v[v] s.src.v[v + 1] none)
    | .regs v c => some (regBlock f.t s.src.v[v] s.src.v[v + 1] (some s.src.v[c]))
  s.forkMat (.mma fresh t tile.rows tile.wide f (blk.map (·.1))) ((blk.map (·.2)).getD 0) [] d id)

def execMma (src : MmaSrc) (f : MmaF) (d : FDst) (t : Fin 4) (s : State) : Out1 := s.mma 0x83 false src f d t
def execMmas (src : MmaSrc) (f : MmaF) (d : FDst) (t : Fin 4) (s : State) : Out1 := s.mma 0x84 true src f d t

/-- mzero's issue side (R217): the shape, and the invalidation of every tile it overlaps. -/
def Engine.shape (t : Fin 4) (rows : Nat) (wide : Bool) (e : Engine) : Engine :=
  let last := t.val + quarters rows wide
  { e with acc := Vector.ofFn fun u : Fin 4 =>
      let x := e.acc[u]
      if u = t then { x with valid := true, rows, wide }
      else if u.val < last && t.val < u.val + quarters x.rows x.wide then { x with valid := false } else x }

def execMzero (rows1 : Fin 128) (wide : Bool) (d : FDst) (t : Fin 4) (s : State) : Out1 := s.finish (do
  let s ← s.beginMat 0x85 (opsD d [tSpec t]) [] []
  let rows := rows1.val + 1
  if 4 < t.val + quarters rows wide then matTrap 0x85 2
  s.forkMat (.zero t rows wide) 0 [] d (Engine.shape t rows wide))

/-- The checks that mread, mtrans and mwrite make of a row or column and of a group (R218). -/
def inTile (op : Nat) (r lim grp lim2 : Nat) : Except Stop Unit := if lim ≤ r || lim2 ≤ 24 * grp then matTrap op 3 else .ok ()

/-- mread and mtrans: lane j of the group, for a row or a column. -/
def State.readTile (s : State) (op : Nat) (trans : Bool) (first grp : Nat) (d : Fin 64) (t : Fin 4) (b : SReg) : Out1 := s.finish (do
  let s ← s.beginMat op [(true, specOf 0x40 d), (false, tSpec t), (false, b.spec)] [] [b.spec]
  s.tileOk t
  let x := s.core.eng.acc[t]
  let r := (BitVec.ofNat 64 first + s.sreg b).toNat
  let lim := if trans then x.cols else x.rows
  let other := if trans then x.rows else x.cols
  inTile op r lim grp other
  if !s.core.eng.queue.isEmpty then blockE
  let lane (j : Nat) : Nat :=
    if x.poison then 0x7FA00000
    else
      let k := 24 * grp + j
      if other ≤ k then 0 else (x.data.getD (if trans then k * x.cols + r else r * x.cols + k) 0).toNat
  .ok ((s.setV d (ofLanes 32 ((List.range 24).map lane))).hold 2))

def execMread (row : Fin 128) (grp : Fin 3) (d : Fin 64) (t : Fin 4) (b : SReg) (s : State) : Out1 :=
  s.readTile 0x86 false row.val grp.val d t b
def execMtrans (col : Fin 64) (grp : Fin 6) (d : Fin 64) (t : Fin 4) (b : SReg) (s : State) : Out1 :=
  s.readTile 0x8C true col.val grp.val d t b

def execMwrite (row : Fin 128) (grp : Fin 3) (d : FDst) (t : Fin 4) (v : Fin 64) (c : SReg) (s : State) : Out1 := s.finish (do
  let s ← s.beginMat 0x87 (opsD d [tSpec t, specOf 0x40 v, c.spec]) [] [c.spec]
  s.tileOk t
  let x := s.core.eng.acc[t]
  let r := (BitVec.ofNat 64 row.val + s.sreg c).toNat
  inTile 0x87 r x.rows grp.val x.cols
  s.forkMat (.write t x.wide r grp.val s.src.v[v]) 0 [] d id)

/-- The destination range of mquant (R203): to the last byte of its last row, or to the end of that row's record. -/
def State.quantRange (s : State) (t : Tile) (ty : Ty) (base pitch : Nat) : Nat × Nat :=
  let last := base + (t.rows - 1) * pitch
  let attr := if isWin base then rawAttr else ((s.cx.pte? base).map (·.attr)).getD rawAttr
  match recSize attr with
  | none => (base, (t.rows - 1) * pitch + t.cols * ty.width / 8)
  | some r => (base, (t.rows - 1) * pitch + (r - last % 65536 % r))

def execMquant (ty : Ty) (rnd : Rnd) (sat : Bool) (sc : Scope) (sbexp : BitVec 8) (d : FDst) (t : Fin 4) (b c : SReg) (s : State) : Out1 :=
  s.finish (do
    let s ← s.beginMat 0x88 (opsD d [tSpec t, b.spec, c.spec]) [] [b.spec, c.spec]
    s.tileOk t
    addrs [s.sreg b]
    let x := s.core.eng.acc[t]
    let base := (s.sreg b).toNat
    let pitch := (s.sreg c).toNat
    s.forkMat (.quant t x.rows x.wide ty rnd sat sc sbexp.toInt base pitch) 0 [s.quantRange x ty base pitch] d id)

def execSkeep (d : FDst) (a b : SReg) (s : State) : Out1 := s.finish (do
  let s ← s.beginMat 0x89 (opsD d [a.spec, b.spec]) [] [a.spec, b.spec]
  s.forkMat (.keep ((s.sreg a).setWidth 32) ((s.sreg b).setWidth 32)) 0 [] d id)

def execMscale (d : FDst) (a b : SReg) (s : State) : Out1 := s.finish (do
  let s ← s.beginMat 0x8A (opsD d [a.spec, b.spec]) [] [a.spec, b.spec]
  s.forkMat (.scale ((s.sreg a).setWidth 32) ((s.sreg b).setWidth 32)) 0 [] d id)

def execMmerge (d : FDst) (a b : Fin 4) (s : State) : Out1 := s.finish (do
  let s ← s.beginMat 0x8B (opsD d [tSpec a, tSpec b]) [] []
  s.tileOk a
  s.tileOk b
  let x := s.core.eng.acc[a]
  let y := s.core.eng.acc[b]
  if x.rows != y.rows || x.wide != y.wide then matTrap 0x8B 5
  s.forkMat (.merge a b) 0 [] d id)

/-- The lane ends of R211: an engine-holding core further east in the rectangle; the rectangle's west column. -/
def State.laneEnd (s : State) (role : Role) : Bool :=
  match s.cx.task? s.th.task with
  | none => true
  | some t =>
    let east := (List.range 16).any fun c =>
      coreCol s.th.core < c && t.holds (s.th.core / 16 * 16 + c) && s.engineHeld (s.th.core / 16 * 16 + c) s.th.ctx
    ((role = .src || role = .fwd) && !east) || ((role = .fwd || role = .fin) && coreCol s.th.core = t.lcol)

def execMlink (role : Role) (d : FDst) (s : State) : Out1 := s.finish (do
  let s ← s.beginMat 0x8D (opsD d []) [] []
  if s.laneEnd role then matTrap 0x8D 6
  s.forkMat (.link role) 0 [] d id)

/-- The blocks in the feed as mstat shows them: without those of an mrow, and with those of an mma, that has not completed. DESIGN CHOICE
(log 47): blocks that came over the lane count as they arrive. -/
def Engine.feedShown (e : Engine) : Nat :=
  let moved (f : MCmd → Bool) : Nat := ((e.queue.filter fun c => c.begun && f c).map (·.blk)).sum
  min 4 (e.feed.length + moved (fun c => match c.op with | .mma _ _ _ _ _ none => true | _ => false) - moved fun c => c.op.isRow)

/-- mstat.eng (Table 6-5), as the completed commands have left it; a command is in the queue until it completes. -/
def Engine.word (e : Engine) : Word :=
  let v := e.view
  let bits (f : Fin 4 → Bool) : Nat := (List.finRange 4).foldl (fun x k => x + if f k then 2 ^ k.val else 0) 0
  let two (f : Fin 2 → Bool) : Nat := (List.finRange 2).foldl (fun x k => x + if f k then 2 ^ k.val else 0) 0
  let sum (x : Int) : Nat := (x % 512).toNat
  let role := match v.role with | .loc => 0 | .src => 1 | .fwd => 2 | .fin => 3
  BitVec.ofNat 64 (2 ^ 44 * bits (fun k => v.tpois[k]) + 2 ^ 40 * bits (fun k => e.acc[k].valid) +
    2 ^ 38 * two (fun k => v.spois[k]) + 2 ^ 36 * two (fun k => v.sload[k]) + 2 ^ 27 * sum v.ksum +
    (if v.kval then 2 ^ 26 else 0) + 2 ^ 17 * sum v.rsum + (if v.rval then 2 ^ 16 else 0) + 2 ^ 14 * role + 2 ^ 11 * e.feedShown +
    2 ^ 9 * min 3 e.queue.length)

def execMstatEng (d : SDst) (s : State) : Out1 := s.finish (do
  let s ← s.beginMat 0x8E [(true, d.spec)] [d.spec] []
  .ok (s.put d s.core.eng.word))

def execMstatTile (d : SDst) (t : Fin 4) (s : State) : Out1 := s.finish (do
  let s ← s.beginMat 0x8E [(true, d.spec), (false, tSpec t)] [d.spec] []
  let x := s.core.eng.acc[t]
  .ok (s.put d (BitVec.ofNat 64 ((if x.valid then 2 ^ 31 else 0) + (if s.core.eng.view.tpois[t] then 2 ^ 30 else 0) +
    (if x.valid || x.rows != 0 then 2 ^ 8 * (quarters x.rows x.wide - 1) + (if x.wide then 2 ^ 7 else 0) + (x.rows - 1) else 0)))))

/-- mwait (R223): the join of every matrix command the thread has issued. -/
def Thread.joinMat (t : Thread) : Thread :=
  let f (r : Reg) : Reg := if t.mjn.any fun x => x.1 = r.tag then { r with jn := 0 } else r
  { t with w := t.w.map f, g := t.g.map f, tsm := t.mjn.foldl (fun m x => m ||| x.2) t.tsm, mjn := [] }

def execMwait (s : State) : Out1 := s.finish (do
  let s ← s.beginMat 0x8F [] [] []
  if s.core.eng.queue.any fun c => c.thr = s.th.slot then waitE
  .ok { s with th := s.th.joinMat })

end Sys2Proof.Machine
end

