-- ==== Sys2Proof/Machine/Life.lean ====
section
/-! DEFINITION. The life of a tile task on its cores: swap-out (R57 to R59, R225, R275, R288, R290, R393), placement (R389, R395, R510),
completion (R23), going dark (R401), a drive that is lost (R338), and the rotation (R379). -/
namespace Sys2Proof.Machine
open Sys2Proof

/-! ### What a hint keeps (R58, R290) -/

/-- The registers of a thread that a descriptor line does not name read zero from then on. Stack entries below the window stay. -/
def Thread.byHint (l : List Byte) (t : Thread) : Thread :=
  let keep (o n i : Nat) : Bool := (fieldAt l o n).testBit i
  { t with
    w := (List.finRange 32).foldl (fun w n => if keep 0 4 n.val then w else w.set (stackIx t.wbase n.val) {}) t.w
    g := Vector.ofFn fun n : Fin 8 => if keep 4 1 n.val then t.g[n] else {}
    m := Vector.ofFn fun n : Fin 8 => if keep 5 1 n.val then t.m[n] else 0
    p := Vector.ofFn fun n : Fin 8 => keep 6 1 n.val && t.p[n]
    v := Vector.ofFn fun n : Fin 64 => if keep 8 8 n.val then t.v[n] else 0 }

/-- The descriptor that names what is saved for a thread: none for a full save. -/
def Thread.hint? (t : Thread) : Option (List Byte) :=
  match t.wait with
  | some (.hint l) => if t.handler then none else some l
  | _ => none

/-- A thread as it is saved (R59): fenced, with no range, out of its intervals, its latch to issue again on resumption; its held messages stand
in the mailbox (R257). DESIGN CHOICE (log 47): a slot declined by yield is forgotten. -/
def Thread.saved (t : Thread) : Thread :=
  { t with
    tsm := 0, rsm := 0, rngs := [], held := [], busy := 0, declined := false, rowOk := false, halt := false, probe := none
    retry := t.retry.map fun r => { r with settled := true } }

/-- A 512-byte line of the window that a descriptor's ranges name. -/
def hintLineKept (l : List Byte) (line : Nat) : Bool :=
  (List.range 8).any fun i =>
    let w := fieldAt l (16 + 4 * i) 4
    w.testBit 31 && w % 1024 ≤ line && line ≤ w % 1024 + w / 2 ^ 16 % 1024

/-! ### Swap-out -/

/-- The threads and eddies of a context on a core. -/
def State.threadsAt (s : State) (c ctx : Nat) : List Thread := s.threads.filter fun t => t.core = c && t.ctx = ctx

/-- A thread has stopped for the save, in no interval; an eddy stops with it (R288, R422). -/
def State.stoppedFor (s : State) (t : Thread) : Bool :=
  t.busy = 0 && (t.eddy.isSome || State.halted { s with cx := (s.cx? t.ctx).getD s.cx } t)

def Req.fromCore (c ctx : Nat) (r : Req) : Bool :=
  match r.who with
  | .thr k | .save k => decide (k.core = c) && decide (k.ctx = ctx)
  | .peer _ _ => false

/-- Copies may be left in their queue: none has begun, for the first is a ring copy that waits for its slot, or one that has left its group; others
run to completion (R59, R247, R275, R417). -/
def copiesRest (l : List CopyCmd) : Bool :=
  match l with
  | [] => true
  | c :: _ => (match c.op with | .ring .. => c.claim.isNone | _ => c.offered) && l.all fun x => !x.begun && !x.ended

/-- Every thread of a context on a core has stopped, and its requests are answered: the save fences on their behalf (R59). -/
def State.coreStill (s : State) (c ctx : Nat) : Bool :=
  (s.threadsAt c ctx).all s.stoppedFor && !(s.reqs.any (Req.fromCore c ctx))

/-- The fence of a save: its probes to every home slice in tsm and in the read-slice mask of each thread (R59 item 3). -/
def State.saveFence (c ctx : Nat) (s : State) : State :=
  ((s.threadsAt c ctx).filter fun t => t.probe.isNone).foldl (fun s t =>
    let rs := (slicesOf (t.tsm ||| t.rsm)).map fun i =>
      { who := .save t.key, ctx, key := ((s.cx? ctx).map (·.key)).getD 0, pa := i, rel := false, sc := .dev, port := none, body := .probe : Req }
    { s with reqs := s.reqs ++ rs }.updTh t.key fun t => { t with probe := some rs.length }) s

/-- A core may be saved: its threads have stopped and are fenced, its copies rest, and its engine stands at a boundary (R59, R225, R275). -/
def State.coreReady (s : State) (c ctx : Nat) : Bool :=
  match s.bind? c ctx with
  | none => false
  | some b =>
    s.coreStill c ctx && (s.threadsAt c ctx).all (fun t => t.probe = some 0) && copiesRest b.copies && s.engStands c ctx

/-- A core's part of a task, as the context-save engine writes it (R290), with what each thread's hint names. -/
def State.saveCore (c ctx : Nat) (b : Bind) (hints : List (Option (List Byte))) (s : State) : Saved :=
  let x := s.core? c
  let ts := s.threadsAt c ctx
  let full := hints.any (·.isNone)
  let keptLine (a : Nat) : Bool := b.inWindow a && (full || hints.any fun h => h.any fun l => hintLineKept l ((a - b.base * 512) / 512))
  let eng := x.eng
  let mine := eng.lane.filter fun k => k.ctx = ctx
  let acc := Vector.ofFn fun i : Fin 4 =>
    if full || hints.any (fun h => h.any fun l => (fieldAt l 7 1).testBit i.val) then eng.acc[i] else {}
  let part : Core := { id := c, spad := Memory.shift (x.spad.filter fun m => keptLine m.1) (b.base * 512) 0
                       spadPoison := (x.spadPoison.filter fun u => keptLine (64 * u)).map (· - b.base * 8) }
  let part := if x.holder = some ctx then
    { part with eng := { eng with acc, lane := mine }, lnkw := x.lnkw, lnke := x.lnke, bar := x.bar, tags := x.tags, holder := some ctx }
    else { part with eng := { lane := mine } }
  let sends := b.sends ++ ts.flatMap fun t => t.held.filter fun m => !m.held
  ⟨{ b with due := 0, sends }, part, ts.map Thread.saved⟩

/-- A thread that stopped at a hint keeps what its descriptor names, and stands after the hint (R58, R288). -/
def State.leaveHint (k : TKey) (s : State) : State :=
  match (s.thread? k).bind Thread.hint? with
  | none => s
  | some l => let s := s.focus k; { s with th := s.th.byHint l }.pastHint

/-- The save, once every core of the task is ready, and fenced as soon as every thread of it has stopped; then the unbinds (R393). Held
messages are written to the mailbox (R257). -/
def State.saveTask (ctx : Nat) (t : Task) (s : State) : State :=
  let s := t.coreList.foldl (fun s c => if (s.bind? c ctx).isSome then s.leaveGroups c ctx else s) s
  if t.coreList.all fun c => s.coreReady c ctx then
    let keys := t.coreList.map fun c => ((s.threadsAt c ctx).map fun u => (u.key, u.hint?))
    let hints (c : Nat) : List (Option (List Byte)) := (s.threadsAt c ctx).map Thread.hint?
    let u := keys.flatten.foldl (fun s (p : TKey × Option (List Byte)) => s.leaveHint p.1) s
    let parts := t.coreList.filterMap fun c => (u.bind? c ctx).map fun b => u.saveCore c ctx b (hints c)
    let held (x : Context) : Context := t.coreList.foldl (fun x c => (u.threadsAt c ctx).foldl (fun x v => x.mailHeld v) x) x
    let s := u.updCx ctx fun x => { (held x).updTask t.num fun k => { k with st := .saved, deadline := false, outAt := s.iod } with
      saved := x.saved ++ parts }
    t.coreList.foldl (fun s c => s.unbindCore c ctx) s
  else if t.coreList.all fun c => s.coreStill c ctx then t.coreList.foldl (fun s c => s.saveFence c ctx) s
  else s

/-- Firmware may ask for a swap-out: a reserved context's only while its bound is unproved, and a shared one's only while no spare context
stands on cores that could be parked before it (R378). -/
def State.mayPark (s : State) (x : Context) : Bool :=
  (x.cls != 0 || (s.bound x.kslot).isNone) &&
  !(x.cls = 1 && (s.bound x.kslot).isSome && s.contexts.any fun y => y.cls = 2 && y.tasks.any (·.st.onCores))

/-- SWAP_OUT: the request, or, once it stands, the save. -/
def State.swapAt (ctx task : Nat) (s : State) : State :=
  match s.cx? ctx with
  | none => s
  | some x => match x.task? task with
    | none => s
    | some t => match t.st with
      | .placed => if s.mayPark x then s.updCx ctx fun x => x.updTask task (Task.ask s.iod) else s
      | .saving => s.saveTask ctx t
      | _ => s

def execSwapOut (ctx task : Nat) (s : State) : Out1 := .next (s.swapAt ctx task)

/-- PREEMPTION_DEADLINE: 200 µs after the request every thread stops at its next issue boundary. -/
def execPreemptionDeadline (ctx task : Nat) (s : State) : Out1 :=
  .next (s.updCx ctx fun x => x.updTask task fun t =>
    if t.st = .saving && t.asked + 200 ≤ s.iod then { t with deadline := true } else t)

/-! ### Completion and darkness (R23, R159, R401) -/

/-- Every operation that a core's threads of a context forked has ended, a barr among them (R229). -/
def State.opsOver (s : State) (c ctx : Nat) (b : Bind) : Bool :=
  b.copies.isEmpty && b.reads.isEmpty && b.bursts.isEmpty && b.sends.isEmpty && !(s.reqs.any (Req.fromCore c ctx)) &&
  !(s.nets.any fun n => n.core = c && n.ctx = ctx) && !(s.wops.any fun w => w.key.core = c && w.key.ctx = ctx) &&
  (!((s.core? c).holder = some ctx) || ((s.core? c).eng.queue.isEmpty && (s.core? c).bar.all fun x => x.futs.isEmpty)) &&
  !(s.pkts.any fun p => match p with | .msg m | .refuse m _ => m.src.core = c && m.src.ctx = ctx | _ => false)

/-- A core's part of a task is over: bound, with no thread, eddy or operation. -/
def State.coreOver (s : State) (c ctx task : Nat) : Bool :=
  match s.bind? c ctx with
  | none => false
  | some b => b.task = task && (s.threadsAt c ctx).isEmpty && s.opsOver c ctx b

/-- TASK_COMPLETION: messages that still wait for the task are dropped (R255); held ones belong to their senders. -/
def State.taskOver (ctx task : Nat) (s : State) : State :=
  match (s.cx? ctx).bind (·.task? task) with
  | none => s
  | some t =>
    if t.st.onCores && t.coreList.all fun c => s.coreOver c ctx task then
      s.updCx ctx fun x => (x.updTask task fun k => { k with st := .done 0 }).mailDrop fun m => !m.held && dstTask m.dst = task
    else s

def execTaskCompletion (ctx task : Nat) (s : State) : Out1 := .next (s.taskOver ctx task)

/-- CORE_GOES_DARK: the window's contents are lost, and its banks gated. -/
def State.goDark (core ctx : Nat) (s : State) : State :=
  match s.bind? core ctx, s.taskAt core ctx with
  | some b, some _ =>
    if !b.dark && !b.went && s.coreOver core ctx b.task then
      let s := s.updCore core fun x => { x.wipe b with banks := Vector.replicate 20 .gated }
      s.updBd core ctx fun b => { b with went := true }
    else s
  | _, _ => s

def execCoreGoesDark (core ctx : Nat) (s : State) : Out1 := .next (s.goDark core ctx)

/-- The cores of ended tasks with nothing left on them, which firmware unbinds. -/
def State.overBinds (s : State) : List Bind := s.binds.filter fun b =>
  match (s.cx? b.ctx).bind (·.task? b.task) with
  | some t => (match t.st with
    | .done _ => s.coreOver b.core b.ctx b.task
    | _ => false) && !(s.pends.any fun p => p.core = b.core && recCtx p.rec_ = b.ctx)
  | none => false

/-- The record of a bound context, for unbinding it. -/
def Bind.unbindRec (b : Bind) : Vector Word 8 :=
  #v[recWord0 3 b.ctx b.task b.nthr b.heat b.eng b.lee b.dark, b.mask, 0, if b.dark then 0 else wordN (b.base + 2 ^ 16 * (b.lines - 1)),
    b.mins, b.caps, 0, b.save]

/-- Firmware writes the unbind record of an ended task's core, where it passes the checks of R386. -/
def State.unbindOver (b : Bind) (s : State) : State :=
  if s.bindStatus b.core b.unbindRec = 0 then s.addPend b.core b.unbindRec else s

/-! ### Placement (R389, R395, R510) -/

/-- The core of the rectangle is a lee (R398). -/
def Task.isLee (t : Task) (row col : Nat) : Bool := t.heat = .gale && (row + col) % 2 = 1

/-- A task at a place: its logical coordinates. -/
def Task.moved (p : Place) (t : Task) : Task := { t with die := p.die, lrow := p.lrow, lcol := p.lcol }

/-- The record for one core of a task (Table 12-3). -/
def State.placeRec (s : State) (x : Context) (t : Task) (p : Place) (row col : Nat) : Vector Word 8 :=
  let c := t.core row col
  let op := if t.st = .saved then 2 else 1
  let lee := t.isLee row col
  let was := x.saved.find? fun v => v.bd.core = c && v.bd.task = t.num
  let eng := match was with | some v => v.bd.eng | none => !((s.boundList c).any (·.eng))
  if lee then #v[recWord0 op x.id t.num 1 t.heat false false true, 0, 0, 0, 0, 0, 0, 0]
  else #v[recWord0 op x.id t.num t.thr t.heat eng (t.heat = .gale) false, p.mask, 0, wordN (p.base + 2 ^ 16 * (2 * t.spad - 1)), p.mins, p.caps,
    if op = 1 then t.entry else 0, wordN p.save]

/-- The physical core of a place. -/
def placePhys (p : Place) (row col : Nat) : Nat := 768 * p.pdie + 16 * (p.prow + row) + p.pcol + col

/-- Entry and record of one core: its logical core is free, or stands there already with other contexts; none where the physical core is
taken, or the context is on the core already (R384). -/
def State.placeCore (x : Context) (t : Task) (p : Place) (s : State) (rc : Nat × Nat) : Option State :=
  let c := t.core rc.1 rc.2
  let q := placePhys p rc.1 rc.2
  let held := match s.logical? q with | some l => l != c && !(s.boundList l).isEmpty | none => false
  if held || (!(s.boundList c).isEmpty && s.phys? c != some q) || (s.boundList c).any (fun b => b.ctx = x.id) then none
  else
    let s := if (s.boundList c).isEmpty then s.setL2p c (some q) else s
    some (s.addPend c (s.placeRec x t p rc.1 rc.2))

/-- A task of a running context that firmware could place, were there room (R293, R369, R492). -/
def State.placeable (s : State) (x : Context) (t : Task) : Bool :=
  !x.prov && !x.retired && !x.capFull && x.running && (x.replay.isSome || (s.bound x.kslot).isSome) &&
  ((t.st = .saved && t.pages.isEmpty) || x.canStart t) && decide (x.u 0 + t.threads ≤ x.quota[0])

/-- A context waits: it has a task to place. -/
def State.waits (s : State) (x : Context) : Bool := x.tasks.any (s.placeable x)

/-- The rotation period P, in µs (R377, R379). -/
def State.rotation (s : State) : Nat := 1000 * s.conf.p

/-- A task of a shared context has been out for P (R510). -/
def State.overdue (s : State) (x : Context) (t : Task) : Bool :=
  x.cls = 1 && t.st = .saved && s.placeable x t && decide (t.outAt + s.rotation ≤ s.iod)

/-- Of the shared contexts that wait, x has had the least core time for its weight in this period (R379). -/
def State.nextShared (s : State) (x : Context) : Bool :=
  s.contexts.all fun y => !(y.cls = 1 && s.waits y) || decide (x.served * y.weight ≤ y.served * x.weight)

/-- Whether firmware may place a task (R378, R379, R395, R510). Reserved contexts come first, then shared ones, overdue tasks before others
and the least served context next, then spare ones; of one context, the lowest task that can be placed. DESIGN CHOICE (log 51). -/
def State.mayPlace (s : State) (x : Context) (t : Task) : Bool :=
  let late := s.contexts.any fun y => y.tasks.any (s.overdue y)
  s.placeable x t && (s.overdue x t || x.tasks.all fun u => !(s.placeable x u) || decide (t.num ≤ u.num)) &&
  match x.cls with
  | 0 => true
  | 1 => !(s.contexts.any fun y => y.cls = 0 && s.waits y) && (s.overdue x t || (!late && s.nextShared x))
  | _ => !(s.contexts.any fun y => y.cls != 2 && s.waits y)

/-- The rectangle lies in both grids, and a task that has stood keeps its logical coordinates. -/
def placeFits (p : Place) (t : Task) : Bool :=
  p.die < 4 && p.pdie < 4 && p.lrow + t.rows ≤ 48 && p.lcol + t.cols ≤ 16 && p.prow + t.rows ≤ 48 && p.pcol + t.cols ≤ 16 &&
  p.base < 512 && (t.st != .saved || (t.die = p.die && t.lrow = p.lrow && t.lcol = p.lcol))

/-- TASK_PLACEMENT: the entries, the wakes, and the records, each of which must pass the checks of R386. Otherwise nothing changes. -/
def State.placeTask (ctx task : Nat) (p : Place) (s : State) : State :=
  match s.cx? ctx with
  | none => s
  | some x => match x.task? task with
    | none => s
    | some t0 =>
      let t := t0.moved p
      if !(s.mayPlace x t0) || !(placeFits p t0) then s
      else
        let cells := (List.range t.rows).flatMap fun r => (List.range t.cols).map fun c => (r, c)
        let u := s.updCx ctx fun x => { x.updTask task fun _ => { t with st := .placed, deadline := false, outAt := 0 } with parked := false }
        match cells.foldlM (State.placeCore x t p) u with
        | none => s
        | some v =>
          let mine := v.pends.drop u.pends.length
          let ok := mine.all fun e => State.bindStatus { v with pends := v.pends.filter fun f => f != e } e.core e.rec_ = 0
          if ok then cells.foldl (fun s rc => s.wakeCore (placePhys p rc.1 rc.2)) (v.setDie p.die { v.die p.die with bstat := 0 }) else s

def execTaskPlacement (ctx task : Nat) (place : Place) (s : State) : Out1 := .next (s.placeTask ctx task place)

/-! ### A lost drive, and the rotation -/

/-- STORAGE_LOST: tasks that wait for a page of the drive end with status 0x42. -/
def State.loseDrive (d : Nat) (s : State) : State :=
  let onDrive (x : Context) (va : Nat) : Bool := (x.pte? va).any fun e => e.state = 1 && e.drive = d
  let lost (x : Context) : List Nat := (x.tasks.filter fun t => (t.st = .saved || t.st = .saving) && t.pages.any (onDrive x)).map (·.num)
  (s.contexts.map fun x => (x.id, lost x)).foldl (fun s (p : Nat × List Nat) => p.2.foldl (fun s n => s.failTask p.1 n 0x42) s) s

def execStorageLost (drive : Nat) (s : State) : Out1 := .next (s.loseDrive drive)

/-- Makes room for the tasks of shared contexts that have been out for P: spare tasks are asked out (R378, R510). -/
def State.makeRoom (s : State) : State :=
  if s.contexts.any fun y => y.tasks.any (s.overdue y) then
    s.mapCxs fun x => if x.cls = 2 then { x with tasks := x.tasks.map (Task.ask s.iod) } else x
  else s

/-- ROTATION_PERIOD, once P has passed: the core time is counted anew, and no shared context with work stays parked beyond it (R379); one whose
bound is unproved stays (R369). -/
def State.rotate (s : State) : State :=
  if s.iod < s.period + s.rotation then s
  else
    let s := { s with period := s.iod }
    (s.mapCxs fun x => { x with
      served := 0, parked := x.parked && !(x.cls = 1 && x.running && (s.bound x.kslot).isSome) }).makeRoom

def execRotationPeriod (s : State) : Out1 := .next s.rotate

end Sys2Proof.Machine
end

