-- ==== Sys2Proof/Machine/Heat.lean ====
section
/-! DEFINITION. Heat: sensors, notices and actions (R286, R404), drift (R405 to R407), and the module's limits (R503, R504). -/
namespace Sys2Proof.Machine
open Sys2Proof

/-- The physical cores that are judged and act together: a gale core with its lee, or one core alone (R404). -/
def State.heatGroup (s : State) (p : Nat) : List Nat :=
  let bs := s.bindsOn p
  if bs.any (·.dark) && bs.any (fun b => b.heat = .gale) then [p ^^^ 1, p] else if bs.any (·.lee) then [p, p ^^^ 1] else [p]

def State.heatHead (s : State) (p : Nat) : Nat := (s.heatGroup p).headD p

/-- The records a notice is posted to. -/
def State.heatBinds (s : State) (p : Nat) : List Bind := ((s.heatGroup p).flatMap s.bindsOn).filter fun b => !b.dark

/-- The ratio a core has, or is about to have. -/
def PCore.aimed (x : PCore) : Nat := x.want.getD x.ratio
def PCore.pending (x : PCore) (kind : Nat) : Bool := x.acts.any fun a => a.kind = kind

def State.updPcore (p : Nat) (f : PCore → PCore) (s : State) : State := s.setPcore (f (s.pcore p))

/-- A core is to take a ratio: the change is its own event (R498). -/
def PCore.goTo (r : Nat) (x : PCore) : PCore := if x.ratio = r then { x with want := none } else { x with want := some r }

/-- A notice word (R286). -/
def noticeWord (kind ratio us : Nat) : Word := wordN (kind + 2 ^ 8 * ratio + 2 ^ 16 * us)

/-- A context under replay takes the notices of its stream, not the sensors' (R495). -/
def State.replaying (s : State) (ctx : Nat) : Bool := (s.cx? ctx).any fun x => x.replay.isSome

/-- Posts a notice to every context on the cores, and schedules the action; a core that carries none is acted on at once. While an action of
the kind is pending nothing further happens. -/
def State.heatPost (p kind ratio us : Nat) (s : State) : State :=
  let h := s.heatHead p
  if (s.pcore h).pending kind then s
  else
    let bs := s.heatBinds p
    if bs.isEmpty then (if kind = 2 then s else s.updPcore p (PCore.goTo ratio))
    else
      let w := noticeWord kind (if kind = 2 then 0 else ratio) us
      let s := bs.foldl (fun s b => if s.replaying b.ctx then s
        else s.updBd b.core b.ctx fun b => { b with notice := w, due := s.iod + us, irq := some w }) s
      s.updPcore h fun x => { x with acts := x.acts ++ [⟨kind, ratio, s.iod + us⟩] }

/-! ### Drift (R405) -/

def State.eligible (s : State) (p : Nat) : Bool :=
  ((s.die (p / 768)).pidle.toList[p % 768 / 64]?).any fun w => w.getLsbD (p % 64)

/-- Idle: no bound context, and eligible. -/
def State.idleTarget (s : State) (p : Nat) : Bool := s.eligible p && ((s.logical? p).map s.boundList).all List.isEmpty

/-- The coolest of a list, the lowest first on ties. -/
def coolest (f : Nat → Nat) : List Nat → Option Nat
  | [] => none
  | p :: r => match coolest f r with
    | none => some p
    | some q => if f p ≤ f q then some p else some q

/-- Where a core, or a pair, drifts to. -/
def State.driftTarget (s : State) (h : Nat) : Option Nat :=
  let die := (List.range 768).map (h / 768 * 768 + ·)
  let t (p : Nat) : Nat := (s.pcore p).temp
  if (s.heatGroup h).length = 2 then
    coolest (fun p => max (t p) (t (p ^^^ 1)))
      (die.filter fun p => (p / 16 % 48 + p % 16) % 2 = 0 && s.idleTarget p && s.idleTarget (p ^^^ 1))
  else coolest t (die.filter s.idleTarget)

/-- The state on a logical core may move: no interval runs, no stores of a wspill or a stream append stand unperformed (R153, R191), copies
rest with no range held but by what waits in the queue, and the engine stands at a boundary (R225, R275, R407). -/
def State.mayDrift (s : State) (b : Bind) : Bool :=
  (s.threadsAt b.core b.ctx).all (fun t => t.busy = 0 && !(match t.wait with | some (.spill _) => s.storing t.key | _ => false)) &&
  !(s.reqs.any fun r => Req.fromCore b.core b.ctx r && r.port.isSome) && copiesRest b.copies && s.engStands b.core b.ctx

/-- What stands on one physical core moves to another: the entry, the wake within the pause, the TLB's loss; the old core is held. -/
def State.moveCore (old new : Nat) (s : State) : State :=
  match s.logical? old with
  | none => s
  | some c =>
    let s := s.setL2p c (some new)
    let s := s.updCore c fun x => { x with tlb := [] }
    let r := s.prow (new / 16)
    let s := s.setProw { r with queue := r.queue.filter (· != new) }
    let s := s.updPcore new fun x => if x.powered then { x with pw := .on } else
      { x with pw := .on, ratio := 8, want := none, acts := [], cool := none, ratioAt := s.iod, window := 8 }
    s.updPcore old fun x => { x with pw := .hold, since := s.iod }

/-- Every bound context has acknowledged, or the time of an action is over. -/
def State.actDue (s : State) (p : Nat) (a : HAct) : Bool :=
  decide (a.due ≤ s.iod) || (s.heatBinds p).all fun b => b.notice.getLsbD 63

def State.dropAct (p kind : Nat) (s : State) : State := s.updPcore p fun x => { x with acts := x.acts.filter fun a => a.kind != kind }

/-- A ratio for every member of the group. -/
def State.throttleTo (p ratio : Nat) (s : State) : State := (s.heatGroup p).foldl (fun s q => s.updPcore q (PCore.goTo ratio)) s

/-- Drift, once its action is due (R407). One asked for during a save, or of a core that carries nothing any more, is
dropped (R394); with no target, the core goes to ratio 8. -/
def State.driftAt (p : Nat) (s : State) : State :=
  let h := s.heatHead p
  match (s.pcore h).acts.find? fun a => a.kind = 2 with
  | none => s
  | some a =>
    if !(s.actDue h a) then s
    else
      let g := s.heatGroup h
      let bs := g.flatMap s.bindsOn
      if bs.isEmpty || bs.any fun b => ((s.cx? b.ctx).bind (·.task? b.task)).any fun t => t.st = .saving then s.dropAct h 2
      else match s.driftTarget h with
        | none => (s.dropAct h 2).throttleTo h 8
        | some q =>
          let s := bs.foldl (fun s b => s.leaveGroups b.core b.ctx) s
          if (g.flatMap s.bindsOn).all s.mayDrift then
            let s := s.dropAct h 2
            if g.length = 2 then (s.moveCore h q).moveCore (h ^^^ 1) (q ^^^ 1) else s.moveCore h q
          else s

def execDrift (pcore : Nat) (s : State) : Out1 := .next (s.driftAt pcore)

/-- HEAT_ACTION: the first of the core's actions that is due. -/
def State.heatAct (p : Nat) (s : State) : State :=
  let h := s.heatHead p
  match (s.pcore h).acts.find? (s.actDue h) with
  | none => s
  | some a => if a.kind = 2 then s.driftAt h else (s.dropAct h a.kind).throttleTo h a.ratio

def execHeatAction (pcore : Nat) (s : State) : Out1 := .next (s.heatAct pcore)

/-! ### Sensors (Table 12-10) -/

/-- Judges a core's group by the warmer reading. At or above Td the drift row acts in place of the throttle row (log 22). -/
def State.judge (p : Nat) (s : State) : State :=
  let h := s.heatHead p
  let x := s.pcore h
  let d := s.die (p / 768)
  let t := ((s.heatGroup p).map fun q => (s.pcore q).temp).foldl max 0
  let cool := if t ≤ d.tr then some (x.cool.getD s.iod) else none
  let s := s.updPcore h fun y => { y with cool }
  if !x.powered then s
  else if d.td ≤ t then
    (if (s.driftTarget h).isSome then s.heatPost h 2 0 20 else if x.aimed < 8 then s.heatPost h 1 8 20 else s)
  else if d.tt ≤ t then (if x.aimed < 8 then s.heatPost h 1 (x.aimed + 1) 20 else s)
  else if cool.any (fun c => max c x.ratioAt + 1000 ≤ s.iod) && 1 < x.aimed && !s.inhibit then s.heatPost h 3 (x.aimed - 1) 0
  else s

def execSensorReading (pcore temp : Nat) (s : State) : Out1 :=
  .next (if pcore < 3072 then (s.updPcore pcore fun x => { x with temp }).judge pcore else s)

/-- The powered cores that head their group. -/
def State.heads (s : State) : List Nat := (s.pcores.filter fun x => x.powered && s.heatHead x.id = x.id).map (·.id)

/-- MODULE_POWER_SENSE: the mean of the last 1 ms, in watts (R503). The action comes when the mean rises over the limit, and again every 1 ms
until it has fallen. -/
def execModulePowerSense (watts : Nat) (s : State) : Out1 :=
  let s := { s with inhibit := decide (2200 < watts) }
  .next (if 2400 < watts then
    (if s.overAt.all fun t => t + 1000 ≤ s.iod then
      s.heads.foldl (fun s p => let r := (s.pcore p).aimed; if r < 8 then s.heatPost p 1 (r + 1) 20 else s) { s with overAt := some s.iod }
    else s)
  else { s with overAt := none })

/-- COLD_PLATE_ALARM: the outlet in °C and the flow in tenths of a litre per minute (R504). Every core goes to ratio 8, one with a throttle
pending too, and firmware is told. -/
def execColdPlateAlarm (outlet flow : Nat) (s : State) : Out1 :=
  .next (if 65 < outlet || flow < 10 then
    (s.heads.foldl (fun s p =>
      let x := s.pcore p
      if x.pending 1 then s.setPcore { x with acts := x.acts.map fun a => if a.kind = 1 then { a with ratio := 8 } else a }
      else if x.aimed < 8 then s.heatPost p 1 8 20 else s) s).mcheck 6 0 outlet
  else s)

end Sys2Proof.Machine
end

