-- ==== Sys2Proof/Machine/Peer.lean ====
section
/-! DEFINITION. What a network peer does to the device: placements and gets (R351, R465, R466, R469), and the protection of frames
(R471, R472). -/
namespace Sys2Proof.Machine
open Sys2Proof

/-- A context that accepts a peer (R465): its peer table names the sender's address and context, with accept set. The context is in focus
afterwards. -/
def State.acceptPeer (s : State) (peer peerCtx ctx : Nat) : Option State :=
  match s.cx? ctx with
  | none => none
  | some x =>
    let s := s.atCx ctx
    if !x.prov && ((List.range 512).any fun p => (s.peer? p).any fun e => e.accept && e.addr = peer && e.ctx = peerCtx) then some s else none

def State.refusePeer (peer : Nat) (s : State) : State := s.out (.netStatus peer 0x14)

/-! ### Packets that wait for a page (R469) -/

/-- The context that a peer's packet is for. -/
def peerTarget : PeerPkt → Option Nat
  | .put _ _ (.ctx c) .. | .send _ _ c .. | .get _ _ (.ctx c) .. => some c
  | _ => none

/-- A packet waits at the endpoint for a page of its target. -/
def State.endWait (i : PeerPkt) (w : Walk) (s : State) : State := { s.opNote w.va (.wait w) with endq := s.endq ++ [i] }

/-- A packet arrives: behind what waits for the same context, for packets are placed in arrival order. -/
def State.arrive (i : PeerPkt) (f : State → State) (s : State) : State :=
  if s.endq.any fun j => peerTarget j = peerTarget i then { s with endq := s.endq ++ [i] } else f s

/-- A write by a peer, as requests to the home slices; a releasing put's last 8 bytes are a release (R469). -/
def State.peerWrite (peer off : Nat) (rel : Bool) (cells : List (Nat × Byte × Byte)) (s : State) : State :=
  let n := cells.length - 8
  let req (r : Bool) (l : List (Nat × Byte × Byte)) : Req :=
    { who := .peer peer off, ctx := s.cx.id, key := s.cx.key, pa := (l.head?.map (·.1)).getD 0, rel := r, sc := .dev, port := none, body := .write l }
  let rs := if rel then (byLine (cells.take n)).map (req false) ++ (byLine (cells.drop n)).map (req true) else (byLine cells).map (req false)
  { s with reqs := s.reqs ++ rs }

/-- PUT_PLACEMENT: into a context's memory, to a wake register, or to a presentation slot. -/
def State.putAt (peer peerCtx : Nat) (dst : NetDst) (off : Nat) (rel : Bool) (data : List Byte) (s : State) : State :=
  match dst with
  | .pres => s.slotWrite (.peer peer peerCtx) (off / 0x8000000) (off % 0x8000000) data
  | .ctx c =>
    match s.acceptPeer peer peerCtx c with
    | none => s.refusePeer peer
    | some t =>
      match t.opSpots off true data.length with
      | (_, some (.wait w)) => t.endWait (.put peer peerCtx dst off rel data) w
      | (ps, some e) => (t.opNote (off + ps.length) e).refusePeer peer
      | (ps, none) =>
        match ps with
        | [] => t
        | p :: _ =>
          if isWake p.pa then t.wake (.peer peer peerCtx) c (p.pa / 4096 % 256) (if p.pa % 4096 = 0 then data.length else 0) (leWord data)
          else
            let t := { t with cx := ps.foldl (fun x (q : Spot) => x.touch q.va true) t.cx }
            (t.record 3 off data).peerWrite peer off rel ((ps.zip data).map fun x => (x.1.pa, x.2, 0xFF))

def execPutPlacement (peer peerCtx : Nat) (dst : NetDst) (off : Nat) (rel : Bool) (data : List Byte) (s : State) : Out1 :=
  .next (s.arrive (.put peer peerCtx dst off rel data) (State.putAt peer peerCtx dst off rel data))

/-- SEND_PLACEMENT: 64 bytes into a receive ring, the header last and with bit 63 set; nothing while the slot's header is nonzero. -/
def State.sendAt (peer peerCtx c q : Nat) (data : List Byte) (s : State) : State :=
  match s.acceptPeer peer peerCtx c with
  | none => s.refusePeer peer
  | some t =>
    let w0 := t.desc q 0
    if 256 ≤ q || dKind w0 != 2 then t.refusePeer peer
    else if data.length != 64 then t
    else
      let slot := fieldAt data 0 4 % dRing w0
      let a := (t.desc q 1).toNat + 64 * slot
      let rw (o : Nat) (b : List Byte) (s : State) : Except OpStop State := s.sideWrite (dSide w0) (dFunc w0) (dPasid w0) (a + o) b
      match t.sideRead (dSide w0) (dFunc w0) (dPasid w0) a 8 with
      | .error (.wait w) => t.endWait (.send peer peerCtx c q data) w
      | .error e => (t.opNote a e).refusePeer peer
      | .ok h =>
        if leNat h != 0 then t
        else match rw 8 (data.drop 8) t with
          | .error (.wait w) => t.endWait (.send peer peerCtx c q data) w
          | .error e => (t.opNote a e).refusePeer peer
          | .ok u => match rw 0 (leBytes (fieldAt data 0 8 ||| 2 ^ 63) 8) u with
            | .ok v =>
              let v := if dSide w0 then v else v.record 3 a (leBytes (fieldAt data 0 8 ||| 2 ^ 63) 8 ++ data.drop 8)
              v.out (.netStatus peer 0)
            | .error _ => u.refusePeer peer

def execSendPlacement (peer peerCtx ctx q : Nat) (data : List Byte) (s : State) : Out1 :=
  .next (s.arrive (.send peer peerCtx ctx q data) (State.sendAt peer peerCtx ctx q data))

/-- A get's reads: the places cut into lines, each asked for with its offset. -/
def State.peerReads (peer : Nat) (s : State) : Nat → List Spot → List Req
  | _, [] => []
  | o, p :: r =>
    let q : Req := { who := .peer peer o, ctx := s.cx.id, key := s.cx.key, pa := p.pa, rel := false, sc := .dev, port := none, body := .read 1 }
    match s.peerReads peer (o + 1) r with
    | x :: l => match x.body with
      | .read n => if x.pa = p.pa + 1 && x.pa % 64 != 0 then { q with body := .read (n + 1) } :: l else q :: x :: l
      | _ => q :: x :: l
    | [] => [q]

/-- GET_SERVICE: reads for a peer; an acquiring get reads its first 8 bytes before the rest (R469). -/
def State.getAt (peer peerCtx : Nat) (dst : NetDst) (off : Nat) (acq : Bool) (len : Nat) (s : State) : State :=
  match dst with
  | .pres => s.out (.reply peer 0 (s.slotRead (.peer peer peerCtx) (off / 0x8000000) (off % 0x8000000) len))
  | .ctx c =>
    match s.acceptPeer peer peerCtx c with
    | none => s.refusePeer peer
    | some t =>
      match t.opSpots off false len with
      | (_, some (.wait w)) => t.endWait (.get peer peerCtx dst off acq len) w
      | (ps, some e) => (t.opNote (off + ps.length) e).refusePeer peer
      | (ps, none) =>
        let t := { t with cx := ps.foldl (fun x (q : Spot) => x.touch q.va false) t.cx }
        let first := if acq then 8 else 0
        let t := if !acq then t
          else if (ps.take 8).any t.opPoison then t.out (.netStatus peer 1)
          else t.out (.reply peer 0 ((ps.take 8).map t.opByte))
        { t with reqs := t.reqs ++ t.peerReads peer first (ps.drop first) }

def execGetService (peer peerCtx : Nat) (dst : NetDst) (off : Nat) (acq : Bool) (len : Nat) (s : State) : Out1 :=
  .next (s.arrive (.get peer peerCtx dst off acq len) (State.getAt peer peerCtx dst off acq len))

/-- What a peer's packet does. -/
def placePacket : PeerPkt → State → State
  | .put p pc d o r b => State.putAt p pc d o r b
  | .send p pc c q b => State.sendAt p pc c q b
  | .get p pc d o a n => State.getAt p pc d o a n

/-- The k-th packet that waits is tried again, where none before it is for the same context; one that still waits keeps its place. -/
def State.endRetry (k : Nat) (s : State) : State :=
  match s.endq[k]? with
  | none => s
  | some i =>
    if (s.endq.take k).any fun j => peerTarget j = peerTarget i then s
    else
      let t := placePacket i { s with endq := [] }
      { t with endq := if t.endq.isEmpty then s.endq.eraseIdx k else s.endq }

/-! ### Reads by the host (R359) -/

/-- The device address of presentation slot 0; slot p stands p × 0x800_0000 above it. -/
def slotBase : Nat := 0xF000040000000

/-- The bytes of a wake register as a source reads them: status word 4 of its queue, or zeros for a source that may not write it (R456). -/
def State.wakeRead (src : Src) (a n : Nat) (s : State) : List Byte :=
  let c := (a - wakeWin) / 2 ^ 20
  let ok := (s.cx? c).isSome && (s.atCx c).wakeFrom src (a / 4096 % 256)
  (List.range n).map fun i => if ok then s.regByte (a + i) else 0

/-- A read of a device address by the host: a presentation slot or a wake register answers (R443); another address is not populated for
it (R18). -/
def State.hostRead (src : Src) (a n : Nat) (s : State) : State :=
  let o := a - slotBase
  if slotBase ≤ a && o < 16 * 0x8000000 then s.heard.out (.host a (s.slotRead src (o / 0x8000000) (o % 0x8000000) n))
  else if isWake a then s.heard.out (.host a (s.wakeRead src a n))
  else s.out (.reg a 0 true)

/-! ### Frames (R471, R472) -/

/-- The replay check: the number is new and within 4,096 of the highest. -/
def replayOk (top : Nat) (seen : List Nat) (pn : Nat) : Bool := decide (top < pn + 4096) && !(seen.contains pn)
def replayNote (top : Nat) (seen : List Nat) (pn : Nat) : Nat × List Nat :=
  let top := max top pn
  (top, insertNat pn seen |>.filter fun x => top < x + 4096)

/-- A protected frame: dropped and counted where a check fails; the partner's first frame under the new key ends the old one. -/
def EPort.frame (pn assoc : Nat) (icvOk : Bool) (x : EPort) : EPort :=
  if !x.up then x
  else if assoc = x.assoc then
    if icvOk && replayOk x.top x.seen pn then
      let n := replayNote x.top x.seen pn
      { x with top := n.1, seen := n.2, old := none, oldTop := 0, oldSeen := [] }
    else { x with dropped := x.dropped + 1 }
  else if x.old = some assoc then
    if icvOk && replayOk x.oldTop x.oldSeen pn then
      let n := replayNote x.oldTop x.oldSeen pn
      { x with oldTop := n.1, oldSeen := n.2 }
    else { x with dropped := x.dropped + 1 }
  else { x with dropped := x.dropped + 1 }

/-- FRAME: a session frame passes at any time; others once the keys are in place. -/
def execFrame (port pn assoc : Nat) (icvOk spdm : Bool) (s : State) : Out1 :=
  .next (if h : port < 8 then (if spdm then s else { s with eports := s.eports.set port (s.eports[port].frame pn assoc icvOk) }) else s)

/-- REKEY: the session agrees a key; the first one puts the port into use. -/
def EPort.rekey (now : Nat) (x : EPort) : EPort :=
  { x with
    up := true, assoc := x.assoc + 1, old := if x.up then some x.assoc else none, oldTop := x.top, oldSeen := x.seen, top := 0, seen := []
    keyed := now }

def execRekey (port : Nat) (s : State) : Out1 :=
  .next (if h : port < 8 then { s with eports := s.eports.set port (s.eports[port].rekey s.iod) } else s)

end Sys2Proof.Machine
end

