-- ==== Sys2Proof/Machine/Seat.lean ====
section
/-! DEFINITION. The operator seat and its commands (R354, R485 to R491), capture and replay (R492 to R495), and the reset of the module
(R505). -/
namespace Sys2Proof.Machine
open Sys2Proof

/-! ### Sessions and the seat (R488 to R490) -/

def State.session? (s : State) (c : Cand) : Option Session := s.seat.sessions.find? fun x => x.cand = c
def State.updSeat (f : Seat → Seat) (s : State) : State := { s with seat := f s.seat }

/-- A message of a candidate keeps its session. -/
def State.touchSession (c : Cand) (s : State) : State :=
  s.updSeat fun t => { t with sessions := t.sessions.map fun x => if x.cand = c then { x with last := s.iod } else x }

def State.answerSeat (c : Cand) (st : BitVec 8) (s : State) : State := s.out (.seat c st)

/-- The seat falls vacant: an election opens. -/
def State.vacate (s : State) : State :=
  s.updSeat fun t => { t with holder := none, open_ := true, opened := s.iod, claims := [], handover := none }

/-- A session ends: a holder's leaves the seat vacant, a claim under way lapses. -/
def State.endSession (c : Cand) (s : State) : State :=
  let s := s.updSeat fun t => { t with sessions := t.sessions.filter (fun x => x.cand != c), claims := t.claims.filter (· != c) }
  if s.seat.holder = some c then s.vacate else s

/-- SPDM_SESSION: mutual authentication has ended with a session; an older one of the same candidate has ended with it. -/
def State.newSession (c : Cand) (cert : List Byte) (s : State) : State :=
  if s.bring < 2 then s
  else
    let s := s.endSession c
    s.updSeat fun t => { t with sessions := t.sessions ++ [⟨c, cert, s.iod, s.iod⟩] }

def execSpdmSession (cand : Cand) (cert : List Byte) (s : State) : Out1 := .next (s.newSession cand cert)

/-- SESSION_TIMEOUT: ten seconds without a message. -/
def execSessionTimeout (cand : Cand) (s : State) : Out1 :=
  .next (if (s.session? cand).any fun x => x.last + 10000000 ≤ s.iod then s.endSession cand else s)

def candPrio : Cand → Nat
  | .board => 0
  | .host => 1
  | .peer _ => 2
def candAddr : Cand → Nat
  | .peer a => a
  | _ => 0

/-- A claim goes before another: priority, then the earlier session, then the lower address (R489). -/
def State.claimBefore (s : State) (a b : Cand) : Bool :=
  let began (c : Cand) : Nat := ((s.session? c).map (·.began)).getD 0
  decide (candPrio a < candPrio b) || (candPrio a = candPrio b &&
    (decide (began a < began b) || (began a = began b && decide (candAddr a ≤ candAddr b))))

def State.winner (s : State) : Option Cand := s.seat.claims.foldl (fun w c => match w with
  | some b => if s.claimBefore c b then some c else some b
  | none => some c) none

/-- ELECTION_CLOSE, two seconds after it opened: the winner holds the seat, and the others' claims have lost. -/
def State.closeElection (s : State) : State :=
  if s.seat.open_ && s.seat.opened + 2000000 ≤ s.iod && s.seat.holder.isNone then
    let w := s.winner
    let s := s.seat.claims.foldl (fun s c => s.answerSeat c (if some c = w then 0 else 2)) s
    s.updSeat fun t => { t with open_ := false, claims := [], holder := w }
  else s

def execElectionClose (s : State) : Out1 := .next s.closeElection

/-- The owner's signature on a certificate (R488): the signature field carries the owner's public key and its signature. Without an owner, the
board controller alone may claim. -/
def State.certOk (s : State) (c : Cand) (cert sig : List Byte) : Bool :=
  match s.seat.owner with
  | none => c = .board
  | some fp => Config.shake256 (slice sig 0 1952) = fp && Config.mldsaVerify (slice sig 0 1952) cert (slice sig 1952 3309)

/-- CLAIM (R486, R489, R490). -/
def State.claimAt (c : Cand) (cert sig : List Byte) (s : State) : State :=
  match s.session? c with
  | none => s
  | some x =>
    let s := (s.touchSession c).closeElection
    if s.recovery && c != .board then s.answerSeat c 5
    else if x.cert != cert || !(s.certOk c cert sig) then s.answerSeat c 3
    else if s.recovery then (s.updSeat fun t => { t with holder := some c }).answerSeat c 0
    else match s.seat.holder with
      | some _ =>
        if s.seat.handover.any fun h => h.1 = Config.shake256 cert && s.iod ≤ h.2 + 10000000 then
          (s.updSeat fun t => { t with holder := some c, handover := none }).answerSeat c 0
        else s.answerSeat c 2
      | none =>
        if s.seat.open_ then s.updSeat fun t => { t with claims := if t.claims.contains c then t.claims else t.claims ++ [c] }
        else (s.updSeat fun t => { t with holder := some c }).answerSeat c 0

def execClaim (cand : Cand) (cert sig : List Byte) (s : State) : Out1 := .next (s.claimAt cand cert sig)

/-- A command of the holder within its session (R490, R491): its own effect answers the status, or none where it waits. -/
def State.seatCmd (c : Cand) (inRecovery : Bool) (f : State → Option (BitVec 8 × State)) (s : State) : State :=
  if (s.session? c).isNone then s
  else
    let s := s.touchSession c
    if s.recovery && !inRecovery then s.answerSeat c 5
    else if s.seat.holder != some c then s.answerSeat c 1
    else match f s with
      | none => s
      | some r => r.2.answerSeat c r.1

def execHandover (cand : Cand) (succ : List Byte) (s : State) : Out1 :=
  .next (s.seatCmd cand false fun s => some (0, s.updSeat fun t => { t with handover := some (succ, s.iod) }))

/-- HANDOVER_TIMEOUT: the successor has not claimed within ten seconds. -/
def execHandoverTimeout (s : State) : Out1 :=
  .next (if s.seat.handover.any fun h => h.2 + 10000000 < s.iod then s.updSeat fun t => { t with handover := none } else s)

def execRelease (cand : Cand) (s : State) : Out1 :=
  .next (s.seatCmd cand true fun s => some (0, if s.recovery then s.updSeat fun t => { t with holder := none } else s.vacate))

/-! ### Keys, owner, configuration, drives (R354, Table 16-4) -/

/-- A presentation that has passed the signature check under the slot has not ended (R354). -/
def State.slotWaits (s : State) (n : Nat) : Bool := s.commits.any (fun c => c.kslot = n) || s.admits.any fun a => recSlot a.rec_ = n

def execKeyLoad (cand : Cand) (slot : Nat) (key : List Byte) (s : State) : Out1 :=
  .next (s.seatCmd cand false fun s =>
    if 16 ≤ slot || key.length != 1952 then some (3, s)
    else if s.slotWaits slot then none
    else
      let k := s.kslot slot
      some (0, s.setKslot slot (if k.loaded && k.key = key then k else { k with loaded := true, key, floor := 0, window := 0 })))

def execKeyUnload (cand : Cand) (slot : Nat) (s : State) : Out1 :=
  .next (s.seatCmd cand false fun s =>
    if 16 ≤ slot then some (3, s)
    else if s.slotWaits slot then none
    else some (0, s.setKslot slot { s.kslot slot with loaded := false, key := [] }))

def execOwnerSet (cand : Cand) (fp : List Byte) (s : State) : Out1 :=
  .next (s.seatCmd cand false fun s => if fp.length = 32 then some (0, s.updSeat fun t => { t with owner := some fp }) else some (3, s))

/-- CONFIG: v from 1 to 16, P from 1 ms to 10 s in ms, the order of the thresholds, at least 4,096 staging frames. -/
def execConfig (cand : Cand) (v p tr tt td staging : Nat) (s : State) : Out1 :=
  .next (s.seatCmd cand false fun s =>
    if 1 ≤ v && v ≤ 16 && 1 ≤ p && p ≤ 10000 && tr < tt && tt < td && td ≤ 110 && 4096 ≤ staging then
      some (0, { s with stored := { v, p, tr, tt, td, staging } })
    else some (3, s))

/-- DRIVE: the mask; a drive that it puts out of use is flushed before (R339). -/
def execDrive (cand : Cand) (mask : BitVec 8) (s : State) : Out1 :=
  .next (s.seatCmd cand false fun s =>
    let off (d : Nat) : Bool := (s.drive d).enabled && !(mask.getLsbD d)
    some (0, State.syncDrives { s.flushDrives off with driveMask := mask }))

/-! ### Firmware (R486) -/

def execFwLoad (cand : Cand) (ver : Nat) (img key sig : List Byte) (s : State) : Out1 :=
  .next (s.seatCmd cand true fun s =>
    if Config.shake256 key = Config.firmwareKeyDigest && Config.mldsaVerify key img sig && s.fwMin ≤ ver then
      some (0, { s with fwNext := some (ver, img) })
    else some (3, s))

def execFwCommit (cand : Cand) (s : State) : Out1 :=
  .next (s.seatCmd cand false fun s => some (0, { s with fwMin := max s.fwMin s.fwVer }))

/-! ### Measurements and status (R487) -/

def Conf.bytes (c : Conf) (mask : BitVec 8) : List Byte :=
  leBytes c.v 1 ++ leBytes c.p 4 ++ leBytes c.tr 1 ++ leBytes c.tt 1 ++ leBytes c.td 1 ++ leBytes c.staging 4 ++ [mask]

/-- The six blocks of Table 16-3; blocks 1 to 3 as they stood at reset. -/
def State.measurements (s : State) : List (List Byte) :=
  [Config.bootDigest,
   (s.fwImg.map Config.shake256).getD Config.firmwareDigest,
   leBytes s.fwVer 4 ++ leBytes s.fwMinBoot 4,
   Config.shake256 (s.stored.bytes s.driveMask),
   s.keys.toList.flatMap fun (k : KeySlot) => if k.loaded then slice (Config.shake256 k.key) 0 32 else List.replicate 32 0,
   slice (((s.seat.holder.bind s.session?).map fun x => Config.shake256 x.cert).getD []) 0 32 ++ slice (s.seat.owner.getD []) 0 32]

def State.measurementBytes (s : State) : List Byte := s.measurements.flatten

def execSpdmMeasurements (cand : Cand) (s : State) : Out1 :=
  .next (if 2 ≤ s.bring then (s.touchSession cand).out (.bytes cand s.measurementBytes) else s)

def MCheck.bytes (m : MCheck) : List Byte := leBytes m.kind 4 ++ leBytes m.ctx 2 ++ leBytes m.key 2 ++ leBytes m.addr 8

/-- STATUS, by any party: measurements, the seat's state and the bring-up step, and the machine-check log. -/
def execStatus (cand : Cand) (s : State) : Out1 :=
  .next (if (s.session? cand).isNone then s
  else
    let s := s.touchSession cand
    let seat := leBytes (match s.seat.holder with | some c => candPrio c + 1 | none => 0) 1 ++ leBytes (if s.seat.open_ then 1 else 0) 1 ++ leBytes s.bring 1
    (s.out (.bytes cand (s.measurementBytes ++ seat ++ s.mchecks.flatMap MCheck.bytes))).answerSeat cand 0)

/-! ### Capture (R492, R493) -/

def execCapture (cand : Cand) (kslot : Nat) (on : Bool) (s : State) : Out1 :=
  .next (s.seatCmd cand false fun s =>
    if 16 ≤ kslot then some (3, s) else some (0, s.setKslot kslot { s.kslot kslot with capture := on }))

/-- A record as its bytes. -/
def CapRec.bytes (r : CapRec) : List Byte :=
  leBytes r.stamp 8 ++ leBytes r.task 2 ++ leBytes (r.row + 64 * r.die) 1 ++ leBytes r.col 1 ++ leBytes r.kind 1 ++ List.replicate 3 0 ++
  leBytes r.addr 8 ++ leBytes r.data.length 4 ++ List.replicate 4 0 ++ r.data ++ List.replicate ((32 - r.data.length % 32) % 32) 0

/-- The records of one chunk (log 23). -/
def chunkRecs : Nat := 256

/-- CAPTURE_READ: the next chunk, sealed to this device; a region drained to half lets its context return. -/
def State.captureRead (c : Cand) (ctx : Nat) (s : State) : Option (BitVec 8 × State) :=
  match s.cx? ctx with
  | none => some (3, s)
  | some x =>
    if !x.capture then some (3, s)
    else
      let l := x.capRecs.take chunkRecs
      let s := s.updCx ctx fun x =>
        let x := { x with capRecs := x.capRecs.drop chunkRecs }
        { x with capFull := x.capFull && decide (2 ^ 29 < x.capBytes) }
      some (0, s.out (.bytes c (Config.sealChunk ctx (l.flatMap CapRec.bytes))))

def execCaptureRead (cand : Cand) (ctx : Nat) (s : State) : Out1 := .next (s.seatCmd cand false fun s => s.captureRead cand ctx)

/-! ### Replay (R495) -/

/-- REPLAY: steps 1 to 3, 7, 9 and 10 of R362 on the record and image of a presentation slot, and a spare context that takes its inputs from
the stream. -/
def State.replayAt (slot : Nat) (stream : List CapRec) (s : State) : BitVec 8 × State :=
  if 16 ≤ slot then (3, s)
  else
    let x := s.pslot slot
    let r := x.area.bytes 0 4096
    if (s.signed r).isSome || s.kfree = 0 then (3, s)
    else
      let img := (List.range (fieldAt r 3848 8)).map fun i => if 0x1000 + i < areaEnd then x.area.get (0x1000 + i) else 0
      let c := { s.fromRecord r x.src with cls := 2, capture := false, replay := some stream }
      match s.build c img with
      | .error _ => (3, s)
      | .ok (c, t) => if Config.shake256 img != slice r 80 32 then (3, s) else (0, t.enter c)

def execReplay (cand : Cand) (slot : Nat) (stream : List CapRec) (s : State) : Out1 :=
  .next (s.seatCmd cand false fun s => some (s.replayAt slot stream))

def CapRec.isInput (r : CapRec) : Bool := r.kind = 1 || r.kind = 3 || r.kind = 7
/-- Whether the stamping core's count has reached a record's stamp; where no task runs, a stamp of 0 is reached (R493). -/
def State.stampDue (s : State) (ctx : Nat) (r : CapRec) : Bool :=
  match s.bind? (coreId r.die r.row r.col) ctx with
  | some b => b.task = r.task && decide (r.stamp ≤ b.ccount.toNat)
  | none => r.stamp = 0

/-- REPLAY_INPUT: the stream's next wake, placement or notice is performed when its stamp is reached. -/
def State.replayInput (ctx : Nat) (s : State) : State :=
  match (s.cx? ctx).bind fun x => x.replay.bind (pick CapRec.isInput) with
  | none => s
  | some (r, rest) =>
    let v := s.atCx ctx
    let waits := if r.kind = 3 then (v.opSpots r.addr true r.data.length).2 else none
    if !(s.stampDue ctx r) then s
    else match waits with
    | some (.wait w) => v.opNote w.va (.wait w)
    | _ =>
      let s := s.updCx ctx fun x => { x with replay := some rest }
      if r.kind = 1 then (s.atCx ctx).wakeIn (leNat r.data) (wordN r.addr)
      else if r.kind = 3 then
        let s := s.atCx ctx
        match s.opSpots r.addr true r.data.length with
        | (ps, none) => s.opWrite (ps.zip r.data)
        | _ => s
      else s.updBd (coreId r.die r.row r.col) ctx fun b => { b with notice := wordN r.addr, irq := some (wordN r.addr) }

def execReplayInput (ctx : Nat) (s : State) : Out1 := .next (s.replayInput ctx)

/-! ### Reset and bring-up (R485, R486, R505) -/

/-- MODULE_RESET: all but the replay-protected store, the fuses, the drives' setting and the world outside is lost. The IOD's count starts
anew, so notes and nonces that hold counts of it are gone. -/
def State.moduleReset (s : State) : State :=
  { State.reset with
    keys := s.keys.map fun k => { k with note := none, nonce := none, capture := false }
    resv := s.resv, stored := s.stored, driveMask := s.driveMask, fwVer := s.fwVer, fwMin := s.fwMin, fwMinBoot := s.fwMin, fwNext := s.fwNext, fwImg := s.fwImg
    seat := { owner := s.seat.owner, open_ := false }, bring := 0, linkUp := false, host := s.host, outs := s.outs, agenda := s.agenda
    free := s.free, nextTag := s.nextTag, nextUid := s.nextUid }

def execModuleReset (s : State) : Out1 := .next s.moduleReset

/-- POWER_GOOD: the boot ROM checks the image (R486); then steps 2 to 7 in order, or the recovery seat. -/
def State.powerGood (s : State) : State :=
  if s.bring != 0 then s
  else
    let s := match s.fwNext with
      | some (v, i) => { s with fwVer := v, fwImg := some i, fwNext := none }
      | none => s
    if s.fwVer < s.fwMin then { s with bring := 2, recovery := true }
    else
      let c := s.stored
      State.syncDrives { s with
        bring := 7, conf := c, cap := capReset, free_ := capReset.map (c.v * ·), staging := c.staging, stagingFree := c.staging
        dies := s.dies.map (fun d => { d with tr := c.tr, tt := c.tt, td := c.td })
        seat := { s.seat with open_ := true, opened := s.iod }
        linkUp := true }

def execPowerGood (s : State) : Out1 := .next s.powerGood

end Sys2Proof.Machine
end

