-- ==== Sys2Proof/Machine/Errors.lean ====
section
/-! DEFINITION. Physical errors as the machine meets them (R224, R427, R429, R430, R479, R482, R484). The kinds of machine-checks are those of
log 48. -/
namespace Sys2Proof.Machine
open Sys2Proof

/-- A machine-check that names a key ID by itself (R479). -/
def State.mcheckKey (kind key addr : Nat) (s : State) : State :=
  { s with mchecks := s.mchecks ++ [⟨kind, ((s.contexts.find? fun x => x.key = key).map (·.id)).getD 0, key, addr⟩] }

/-! ### Flits (R429, R430) -/

/-- A flit that fails its CRC on a bridge is sent again, up to eight times; only then does R429 apply. -/
def resent (crc : Option Nat) : Bool := crc.any fun n => decide (n ≤ 8)

/-- An error in a data flit leaves the data poisoned, and delivery proceeds. -/
def Req.spoil (r : Req) : Req :=
  match r.body with
  | .data b _ => { r with body := .data b 1 }
  | .write _ | .amo .. => { r with pois := true }
  | _ => r

/-- A request or answer is dropped. An operation of a peer completes with status error. An atomic whose answer is lost takes the access trap, and
a fence whose probe is lost ends its task as unmarked state does: DESIGN CHOICES (log 48). -/
def State.reqLost (k : Nat) (r : Req) (s : State) : State :=
  let s := (s.mcheck 7 r.ctx r.pa).dropReq k
  match r.who, r.body with
  | .peer a _, _ => s.out (.netStatus a 1)
  | .thr w, .amo _ _ _ _ _ true => s.lostValue w r.pa
  | .thr w, .data _ _ => s.lostValue w r.pa
  | .thr w, .probe | .thr w, .echo | .save w, _ => s.failTask w.ctx (s.taskFor w) 0x44
  | .thr _, _ => s

def State.reqErr (k : Nat) (f : Flit) (s : State) : State :=
  match s.reqs[k]?, f with
  | none, _ => s
  | some r, .data _ => s.setReq k r.spoil
  | some r, _ => s.reqLost k r

/-- The task on a logical core loses a packet of its barriers or gangs: it ends with status error. -/
def State.coreTaskFails (core ctx : Nat) (st : BitVec 8) (s : State) : State :=
  match s.bind? core ctx with
  | some b => s.failTask ctx b.task st
  | none => s

/-- A packet is dropped. -/
def State.pktLost (k : Nat) (p : Pkt) (s : State) : State :=
  let s := { s with pkts := s.pkts.eraseIdx k }
  match p with
  | .link d c _ _ _ => s.mcheck 7 c d
  | .arrival c d _ _ _ => (s.mcheck 7 c d).coreTaskFails d c 1
  | .release c d _ _ _ _ _ => (s.mcheck 7 c d).coreTaskFails d c 1
  | .gang t _ _ => (s.mcheck 7 t.ctx t.core).coreTaskFails t.core t.ctx 1
  | .msg m | .refuse m _ => (s.mcheck 7 m.src.ctx m.src.core).sent m 1
  | .window p _ => s.mcheck 7 0 p

/-- An instruction word or a message that has lost data: the packet of a gang counts as dropped (log 48). -/
def State.pktErr (k : Nat) (f : Flit) (s : State) : State :=
  match s.pkts[k]?, f with
  | none, _ => s
  | some (.msg m), .data _ => { s with pkts := s.pkts.set k (.msg { m with pois := true }) }
  | some (.gang t a b), .data _ => s.pktLost k (.gang t a b)
  | some _, .data _ => s
  | some p, _ => s.pktLost k p

/-- A packet of no known type, or of another class than its type's, is dropped (R427). -/
def State.pktUnknown (k : Nat) (s : State) : State :=
  if k < s.pkts.length then ({ s with pkts := s.pkts.eraseIdx k }).mcheck 7 0 k else s

/-! ### Operand streams (R224, R235, R250) -/

def Blk.spoil (b : Blk) : Blk := { b with mark := .poisoned }

def spoilAt (k : Nat) (l : List Blk) : List Blk := l.zipIdx.map fun p => if p.2 = k then p.1.spoil else p.1

/-- The register feed of a queued mma is damaged. -/
def MCmd.spoil (tag : Nat) (c : MCmd) : MCmd :=
  match c.op with
  | .mma fresh t rows wide f (some b) => if c.tag = tag then { c with op := .mma fresh t rows wide f (some b.spoil) } else c
  | _ => c

def State.engErr (core : Nat) (f : Engine → Engine) (s : State) : State :=
  (s.updCore core fun x => { x with eng := f x.eng }).mcheck 12 (((s.core? core).holder).getD 0) core

/-- A flit of a copy's data: what it has written there last is poisoned, and it completes with status error (R235, R429). -/
def State.copyErr (core ctx tag : Nat) (f : Flit) (s : State) : State :=
  s.whereOp core ctx fun _ s =>
    match s.bd.copies.find? fun c => c.tag = tag && c.begun with
    | none => s
    | some c =>
      let s := { s with bd := s.bd.updCopy tag fun c => { c with error := true } }.mcheck 7 ctx core
      match f with
      | .data _ => if c.pos = 0 then s else s.opPoisonAll (s.opSpots (c.op.seg (c.claim.getD 0) 0 (c.pos - 1)).dst true 1).1
      | _ => s

def State.groupErr (id : Nat) (f : Flit) (s : State) : State :=
  { s with groups := s.groups.map fun (g : Group) => if g.id = id then (match f with
    | .data k => { g with pois := if g.pois.contains (32 * k) then g.pois else g.pois ++ [32 * k], error := true }
    | _ => { g with error := true }) else g }.mcheck 7 0 id

/-! ### Lines and nodes of the tiers (R479) -/

/-- A line is poisoned in its key ID, and rebuilt from its poison. -/
def State.poisonLine (a : Nat) (s : State) : State :=
  { s with
    poison := insertNat (a / 64) s.poison
    tier := s.tier.map fun t => if t.pa = a then { t with tag := poisonTag } else t }

def State.lineErr (pa : Nat) (ecc : Bool) (s : State) : State :=
  let a := pa / 64 * 64
  (s.poisonLine a).mcheckKey (if ecc then 9 else 8) (s.keyAt a) a

/-- A node at level h: each line of its key ID beneath it. -/
def State.nodeErr (lvl pa : Nat) (ecc : Bool) (s : State) : State :=
  let k := s.keyAt pa
  let first := nodeIx lvl pa * 8 ^ lvl
  let lines := ((List.range (8 ^ lvl)).map fun i => 64 * (first + i)).filter fun a => s.keyAt a = k
  (lines.foldl (fun s a => s.poisonLine a) s).mcheckKey (if ecc then 9 else 8) k pa

/-! ### Every error -/

/-- An error is met. -/
def State.meetErr (e : Err) (s : State) : State :=
  match e with
  | .req k f crc => if resent crc then s else s.reqErr k f
  | .pkt k f crc => if resent crc then s else s.pktErr k f
  | .unknown k => s.pktUnknown k
  | .lane core _ => s.engErr core fun x => { x with lane := spoilAt 0 x.lane }
  | .feed core k => s.engErr core fun x => { x with feed := spoilAt k x.feed }
  | .regs core tag => s.engErr core fun x => { x with queue := x.queue.map (MCmd.spoil tag) }
  | .burst core ctx tag n =>
    s.whereOp core ctx fun _ s =>
      if s.bd.reads.any fun r => r.tag = tag && n < r.bursts && !(r.delivered.contains n) && !r.cancelled then
        (s.mcheck 7 ctx core).burstGot tag n fun r => { r with error := true }
      else s
  | .copy core ctx tag f => s.copyErr core ctx tag f
  | .group id f => s.groupErr id f
  | .line pa ecc => s.lineErr pa ecc
  | .node lvl pa ecc => s.nodeErr lvl pa ecc
  | .spad core u => (s.updCore core fun x => { x with spadPoison := insertNat u x.spadPoison }).mcheck 9 0 (64 * u)
  | .corrected =>
    let s := { s with eccs := s.eccs + 1 }
    if s.eccMax < s.eccs then s.mcheck 10 0 s.eccs else s
  | .state core ctx => (s.mcheck 11 ctx core).coreTaskFails core ctx 0x44
  | .tlb core i => s.updCore core fun x => { x with tlb := x.tlb.eraseIdx i }
  | .row i => { s with rtlb := s.rtlb.eraseIdx i }
  | .atc i => { s with atc := s.atc.eraseIdx i }

end Sys2Proof.Machine
end

