-- ==== Sys2Proof/Machine/Dispatch.lean ====
section
/-! DEFINITION. The dispatch: one arm for each constructor of `Instr`. -/
namespace Sys2Proof.Machine
open Sys2Proof

def exec (i : Instr) (s : State) : Host.Outcome State Fault Refusal :=
  match i with
  | .add t sat d a b => Sys2Proof.Machine.execAdd t sat d a b s
  | .sub t sat d a b => Sys2Proof.Machine.execSub t sat d a b s
  | .mul t sat d a b => Sys2Proof.Machine.execMul t sat d a b s
  | .mulh t d a b => Sys2Proof.Machine.execMulh t d a b s
  | .madd t sat d a b c => Sys2Proof.Machine.execMadd t sat d a b c s
  | .div t sat d a b => Sys2Proof.Machine.execDiv t sat d a b s
  | .rem t d a b => Sys2Proof.Machine.execRem t d a b s
  | .abs t sat d a => Sys2Proof.Machine.execAbs t sat d a s
  | .min t d a b => Sys2Proof.Machine.execMin t d a b s
  | .max t d a b => Sys2Proof.Machine.execMax t d a b s
  | .and t d a b => Sys2Proof.Machine.execAnd t d a b s
  | .or t d a b => Sys2Proof.Machine.execOr t d a b s
  | .xor t d a b => Sys2Proof.Machine.execXor t d a b s
  | .andn t d a b => Sys2Proof.Machine.execAndn t d a b s
  | .shl t sat d a b => Sys2Proof.Machine.execShl t sat d a b s
  | .shr t d a b => Sys2Proof.Machine.execShr t d a b s
  | .sar t d a b => Sys2Proof.Machine.execSar t d a b s
  | .rot t d a b => Sys2Proof.Machine.execRot t d a b s
  | .clz t d a => Sys2Proof.Machine.execClz t d a s
  | .ctz t d a => Sys2Proof.Machine.execCtz t d a s
  | .popc t d a => Sys2Proof.Machine.execPopc t d a s
  | .brev t d a => Sys2Proof.Machine.execBrev t d a s
  | .bswap t d a => Sys2Proof.Machine.execBswap t d a s
  | .bext t d a b => Sys2Proof.Machine.execBext t d a b s
  | .bins d a b c => Sys2Proof.Machine.execBins d a b c s
  | .sext t d a => Sys2Proof.Machine.execSext t d a s
  | .zext t d a => Sys2Proof.Machine.execZext t d a s
  | .mov t d a => Sys2Proof.Machine.execMov t d a s
  | .movi d imm => Sys2Proof.Machine.execMovi d imm s
  | .lea t d m idx => Sys2Proof.Machine.execLea t d m idx s
  | .setc cnd t d a b => Sys2Proof.Machine.execSetc cnd t d a b s
  | .cvt t u rnd sat d a => Sys2Proof.Machine.execCvt t u rnd sat d a s
  | .cmp cnd t d a b => Sys2Proof.Machine.execCmp cnd t d a b s
  | .pand na nb nr d a b => Sys2Proof.Machine.execPand na nb nr d a b s
  | .por na nb nr d a b => Sys2Proof.Machine.execPor na nb nr d a b s
  | .pxor na nb nr d a b => Sys2Proof.Machine.execPxor na nb nr d a b s
  | .pmov neg o => Sys2Proof.Machine.execPmov neg o s
  | .sel neg d a b p => Sys2Proof.Machine.execSel neg d a b p s
  | .br tgt => Sys2Proof.Machine.execBr tgt s
  | .brc cnd t a b tgt => Sys2Proof.Machine.execBrc cnd t a b tgt s
  | .bri a => Sys2Proof.Machine.execBri a s
  | .call tgt => Sys2Proof.Machine.execCall tgt s
  | .calli a => Sys2Proof.Machine.execCalli a s
  | .tcall tgt => Sys2Proof.Machine.execTcall tgt s
  | .ret => Sys2Proof.Machine.execRet s
  | .loop n a tgt => Sys2Proof.Machine.execLoop n a tgt s
  | .lbrk n => Sys2Proof.Machine.execLbrk n s
  | .wspill a => Sys2Proof.Machine.execWspill a s
  | .wfill a => Sys2Proof.Machine.execWfill a s
  | .exit => Sys2Proof.Machine.execExit s
  | .nop => Sys2Proof.Machine.execNop s
  | .yield => Sys2Proof.Machine.execYield s
  | .vadd t rnd sat d a b m => Sys2Proof.Machine.execVadd t rnd sat d a b m s
  | .vsub t rnd sat d a b m => Sys2Proof.Machine.execVsub t rnd sat d a b m s
  | .vmul t rnd sat d a b m => Sys2Proof.Machine.execVmul t rnd sat d a b m s
  | .vfma t rnd sat d a b m => Sys2Proof.Machine.execVfma t rnd sat d a b m s
  | .vfms t rnd sat d a b m => Sys2Proof.Machine.execVfms t rnd sat d a b m s
  | .vdiv t rnd sat d a b m => Sys2Proof.Machine.execVdiv t rnd sat d a b m s
  | .vsqrt t rnd sat d a m => Sys2Proof.Machine.execVsqrt t rnd sat d a m s
  | .vmin t d a b m => Sys2Proof.Machine.execVmin t d a b m s
  | .vmax t d a b m => Sys2Proof.Machine.execVmax t d a b m s
  | .vabs t sat d a m => Sys2Proof.Machine.execVabs t sat d a m s
  | .vneg t sat d a m => Sys2Proof.Machine.execVneg t sat d a m s
  | .vand t d a b m => Sys2Proof.Machine.execVand t d a b m s
  | .vor t d a b m => Sys2Proof.Machine.execVor t d a b m s
  | .vxor t d a b m => Sys2Proof.Machine.execVxor t d a b m s
  | .vshl t sat d a b m => Sys2Proof.Machine.execVshl t sat d a b m s
  | .vshr t d a b m => Sys2Proof.Machine.execVshr t d a b m s
  | .vsar t d a b m => Sys2Proof.Machine.execVsar t d a b m s
  | .vrcp t rnd sat d a m => Sys2Proof.Machine.execVrcp t rnd sat d a m s
  | .vrsq t rnd sat d a m => Sys2Proof.Machine.execVrsq t rnd sat d a m s
  | .vexp2 t rnd sat d a m => Sys2Proof.Machine.execVexp2 t rnd sat d a m s
  | .vlog2 t rnd sat d a m => Sys2Proof.Machine.execVlog2 t rnd sat d a m s
  | .vcmp cnd t d a b m => Sys2Proof.Machine.execVcmp cnd t d a b m s
  | .vsel t d a b m => Sys2Proof.Machine.execVsel t d a b m s
  | .vshuf t d a b m => Sys2Proof.Machine.execVshuf t d a b m s
  | .vbcast t d a m => Sys2Proof.Machine.execVbcast t d a m s
  | .vlaneGet t d a b => Sys2Proof.Machine.execVlaneGet t d a b s
  | .vlanePut t d a b => Sys2Proof.Machine.execVlanePut t d a b s
  | .vmov t d a m => Sys2Proof.Machine.execVmov t d a m s
  | .vsum acc t rnd sat d a m => Sys2Proof.Machine.execVsum acc t rnd sat d a m s
  | .vrmax acc t rnd sat d a m => Sys2Proof.Machine.execVrmax acc t rnd sat d a m s
  | .vrmin acc t rnd sat d a m => Sys2Proof.Machine.execVrmin acc t rnd sat d a m s
  | .vdot acc t rnd sat d a b m => Sys2Proof.Machine.execVdot acc t rnd sat d a b m s
  | .vpack lo hi d a b => Sys2Proof.Machine.execVpack lo hi d a b s
  | .vunpk part d a => Sys2Proof.Machine.execVunpk part d a s
  | .vcvt part t u rnd sat d a => Sys2Proof.Machine.execVcvt part t u rnd sat d a s
  | .vquant pos t rnd d a b c => Sys2Proof.Machine.execVquant pos t rnd d a b c s
  | .ld t rnd sat sc ord d m idx => Sys2Proof.Machine.execLd t rnd sat sc ord d m idx s
  | .st t rnd sat sc ord m idx c => Sys2Proof.Machine.execSt t rnd sat sc ord m idx c s
  | .vld t rnd sat sc ord d m idx k => Sys2Proof.Machine.execVld t rnd sat sc ord d m idx k s
  | .vst t rnd sat sc ord m idx c => Sys2Proof.Machine.execVst t rnd sat sc ord m idx c s
  | .vqst rnd sc ord m b c => Sys2Proof.Machine.execVqst rnd sc ord m b c s
  | .vgath t rnd sat sc ord d m b k => Sys2Proof.Machine.execVgath t rnd sat sc ord d m b k s
  | .vscat t rnd sat sc ord k m b c => Sys2Proof.Machine.execVscat t rnd sat sc ord k m b c s
  | .sbind wr t rnd sat sc d a b c => Sys2Proof.Machine.execSbind wr t rnd sat sc d a b c s
  | .sfree q => Sys2Proof.Machine.execSfree q s
  | .sseek q b c => Sys2Proof.Machine.execSseek q b c s
  | .sstatPos d q => Sys2Proof.Machine.execSstatPos d q s
  | .sstatCfg d q => Sys2Proof.Machine.execSstatCfg d q s
  | .sstatBase d q => Sys2Proof.Machine.execSstatBase d q s
  | .sflush sc ord q => Sys2Proof.Machine.execSflush sc ord q s
  | .tlook d a => Sys2Proof.Machine.execTlook d a s
  | .tset a b c => Sys2Proof.Machine.execTset a b c s
  | .tinvEnt a => Sys2Proof.Machine.execTinvEnt a s
  | .tinvTag a => Sys2Proof.Machine.execTinvTag a s
  | .tinvAll => Sys2Proof.Machine.execTinvAll s
  | .mrow rows n1 ng1 d a b => Sys2Proof.Machine.execMrow rows n1 ng1 d a b s
  | .mgeom unf attr d a b c => Sys2Proof.Machine.execMgeom unf attr d a b c s
  | .mslab attr slot cols1 d a b => Sys2Proof.Machine.execMslab attr slot cols1 d a b s
  | .mma src f d a => Sys2Proof.Machine.execMma src f d a s
  | .mmas src f d a => Sys2Proof.Machine.execMmas src f d a s
  | .mzero rows1 wide d a => Sys2Proof.Machine.execMzero rows1 wide d a s
  | .mread row grp d a b => Sys2Proof.Machine.execMread row grp d a b s
  | .mwrite row grp d a b c => Sys2Proof.Machine.execMwrite row grp d a b c s
  | .mquant t rnd sat sc sbexp d a b c => Sys2Proof.Machine.execMquant t rnd sat sc sbexp d a b c s
  | .skeep d a b => Sys2Proof.Machine.execSkeep d a b s
  | .mscale d a b => Sys2Proof.Machine.execMscale d a b s
  | .mmerge d a b => Sys2Proof.Machine.execMmerge d a b s
  | .mtrans col grp d a b => Sys2Proof.Machine.execMtrans col grp d a b s
  | .mlink role d => Sys2Proof.Machine.execMlink role d s
  | .mstatEng d => Sys2Proof.Machine.execMstatEng d s
  | .mstatTile d a => Sys2Proof.Machine.execMstatTile d a s
  | .mwait => Sys2Proof.Machine.execMwait s
  | .cpyMem comb sc d a b c => Sys2Proof.Machine.execCpyMem comb sc d a b c s
  | .cpyRing sc d k b c => Sys2Proof.Machine.execCpyRing sc d k b c s
  | .cpy2d out comb sc rb1 rows1 d a b c => Sys2Proof.Machine.execCpy2d out comb sc rb1 rows1 d a b c s
  | .cpyg sc e n1 d a b c => Sys2Proof.Machine.execCpyg sc e n1 d a b c s
  | .cpys sc e n1 d a b c => Sys2Proof.Machine.execCpys sc e n1 d a b c s
  | .cpyf sc w d a b c => Sys2Proof.Machine.execCpyf sc w d a b c s
  | .fwait d a => Sys2Proof.Machine.execFwait d a s
  | .ftest d a => Sys2Proof.Machine.execFtest d a s
  | .fcancel a => Sys2Proof.Machine.execFcancel a s
  | .fpass d a => Sys2Proof.Machine.execFpass d a s
  | .fany d a => Sys2Proof.Machine.execFany d a s
  | .kinitOwn k a b => Sys2Proof.Machine.execKinitOwn k a b s
  | .kinitPeer k a b => Sys2Proof.Machine.execKinitPeer k a b s
  | .kwaitFill d k b => Sys2Proof.Machine.execKwaitFill d k b s
  | .kwaitFree d k b => Sys2Proof.Machine.execKwaitFree d k b s
  | .kfree k => Sys2Proof.Machine.execKfree k s
  | .kadvFill k b => Sys2Proof.Machine.execKadvFill k b s
  | .kadvDrain k b => Sys2Proof.Machine.execKadvDrain k b s
  | .hread v sc d a b c => Sys2Proof.Machine.execHread v sc d a b c s
  | .hret => Sys2Proof.Machine.execHret s
  | .msendQ sc ord d a b => Sys2Proof.Machine.execMsendQ sc ord d a b s
  | .msendDep sc ord g d a b => Sys2Proof.Machine.execMsendDep sc ord g d a b s
  | .msendSpec sc ord d a b => Sys2Proof.Machine.execMsendSpec sc ord d a b s
  | .mcommit => Sys2Proof.Machine.execMcommit s
  | .mabort => Sys2Proof.Machine.execMabort s
  | .mrecvPop sc ord d => Sys2Proof.Machine.execMrecvPop sc ord d s
  | .mrecvCnt d => Sys2Proof.Machine.execMrecvCnt d s
  | .amoAdd t sc ord d m b => Sys2Proof.Machine.execAmoAdd t sc ord d m b s
  | .amoAnd t sc ord d m b => Sys2Proof.Machine.execAmoAnd t sc ord d m b s
  | .amoOr t sc ord d m b => Sys2Proof.Machine.execAmoOr t sc ord d m b s
  | .amoXor t sc ord d m b => Sys2Proof.Machine.execAmoXor t sc ord d m b s
  | .amoMin t sc ord d m b => Sys2Proof.Machine.execAmoMin t sc ord d m b s
  | .amoMax t sc ord d m b => Sys2Proof.Machine.execAmoMax t sc ord d m b s
  | .amoSwap t sc ord d m b => Sys2Proof.Machine.execAmoSwap t sc ord d m b s
  | .amoFadd rnd sc ord d m b => Sys2Proof.Machine.execAmoFadd rnd sc ord d m b s
  | .cas t sc ord d m b c => Sys2Proof.Machine.execCas t sc ord d m b c s
  | .fence sc ord => Sys2Proof.Machine.execFence sc ord s
  | .barm n a => Sys2Proof.Machine.execBarm n a s
  | .barr n sc d => Sys2Proof.Machine.execBarr n sc d s
  | .barw n sc => Sys2Proof.Machine.execBarw n sc s
  | .wfe => Sys2Proof.Machine.execWfe s
  | .sevCore => Sys2Proof.Machine.execSevCore s
  | .sevThr a => Sys2Proof.Machine.execSevThr a s
  | .gang d a b => Sys2Proof.Machine.execGang d a b s
  | .gdetach => Sys2Proof.Machine.execGdetach s
  | .gjoin => Sys2Proof.Machine.execGjoin s
  | .rld t sc ord d m b => Sys2Proof.Machine.execRld t sc ord d m b s
  | .rst t sc ord m b c => Sys2Proof.Machine.execRst t sc ord m b c s
  | .nsend spray cls d a b => Sys2Proof.Machine.execNsend spray cls d a b s
  | .nput ord spray cls d a b c => Sys2Proof.Machine.execNput ord spray cls d a b c s
  | .nget ord spray cls d a b c => Sys2Proof.Machine.execNget ord spray cls d a b c s
  | .ncoll spray cls d a b => Sys2Proof.Machine.execNcoll spray cls d a b s
  | .nstatPkts d a => Sys2Proof.Machine.execNstatPkts d a s
  | .nstatMarks d a => Sys2Proof.Machine.execNstatMarks d a s
  | .nstatRetx d a => Sys2Proof.Machine.execNstatRetx d a s
  | .nstatRtt d a => Sys2Proof.Machine.execNstatRtt d a s
  | .sysr d a => Sys2Proof.Machine.execSysr d a s
  | .sysw a b => Sys2Proof.Machine.execSysw a b s
  | .tret => Sys2Proof.Machine.execTret s
  | .trap a => Sys2Proof.Machine.execTrap a s
  | .phintPt off => Sys2Proof.Machine.execPhintPt off s
  | .phintTest d => Sys2Proof.Machine.execPhintTest d s
  | .heatAck => Sys2Proof.Machine.execHeatAck s
  | .heatCap a => Sys2Proof.Machine.execHeatCap a s
  | .heatUncap => Sys2Proof.Machine.execHeatUncap s
  | .wpres d a b => Sys2Proof.Machine.execWpres d a b s
  | .wsplit d a b => Sys2Proof.Machine.execWsplit d a b s
  | .wdeleg d a b => Sys2Proof.Machine.execWdeleg d a b s
  | .wsurr d a => Sys2Proof.Machine.execWsurr d a s
  | .wqryState d a => Sys2Proof.Machine.execWqryState d a s
  | .wqryAmt d a => Sys2Proof.Machine.execWqryAmt d a s
  | .wqryUsed d a => Sys2Proof.Machine.execWqryUsed d a s
  | .wqrySerial d a => Sys2Proof.Machine.execWqrySerial d a s
  | .wqryCtx d a => Sys2Proof.Machine.execWqryCtx d a s
  | .wqryArg d a => Sys2Proof.Machine.execWqryArg d a s
  | .wtimeLo d => Sys2Proof.Machine.execWtimeLo d s
  | .wtimeHi d => Sys2Proof.Machine.execWtimeHi d s
  | .wtimeAge d => Sys2Proof.Machine.execWtimeAge d s
  | .xinv d a b => Sys2Proof.Machine.execXinv d a b s
  | .xprobe d a => Sys2Proof.Machine.execXprobe d a s
  | .xmapNew d a b c => Sys2Proof.Machine.execXmapNew d a b c s
  | .xmapAttr d a b c => Sys2Proof.Machine.execXmapAttr d a b c s
  | .xunmap d a b => Sys2Proof.Machine.execXunmap d a b s
  | .svsave d a b => Sys2Proof.Machine.execSvsave d a b s
  | .svload d a b => Sys2Proof.Machine.execSvload d a b s
  | .svsize d a => Sys2Proof.Machine.execSvsize d a s
  | .dbrk => Sys2Proof.Machine.execDbrk s
  | .dstep => Sys2Proof.Machine.execDstep s
  | .cmark d a => Sys2Proof.Machine.execCmark d a s
  | .hnote d => Sys2Proof.Machine.execHnote d s
  | .idle => Sys2Proof.Machine.execIdle s
  | .heatNoticeInterrupt core ctx thr => Sys2Proof.Machine.execHeatNoticeInterrupt core ctx thr s
  | .warrantEventInterrupt core ctx thr => Sys2Proof.Machine.execWarrantEventInterrupt core ctx thr s
  | .copyExecution core ctx => Sys2Proof.Machine.execCopyExecution core ctx s
  | .copyCompletion core ctx => Sys2Proof.Machine.execCopyCompletion core ctx s
  | .ringCopySlotClaim core ctx => Sys2Proof.Machine.execRingCopySlotClaim core ctx s
  | .matrixCommandExecution core => Sys2Proof.Machine.execMatrixCommandExecution core s
  | .matrixStep core => Sys2Proof.Machine.execMatrixStep core s
  | .matrixCommandCompletion core => Sys2Proof.Machine.execMatrixCommandCompletion core s
  | .laneBlockTransfer core => Sys2Proof.Machine.execLaneBlockTransfer core s
  | .burstDelivery core ctx tag n => Sys2Proof.Machine.execBurstDelivery core ctx tag n s
  | .eddyBirth core => Sys2Proof.Machine.execEddyBirth core s
  | .lastBurstEvent core ctx tag => Sys2Proof.Machine.execLastBurstEvent core ctx tag s
  | .combiningGroupClose row grp => Sys2Proof.Machine.execCombiningGroupClose row grp s
  | .multicast row grp => Sys2Proof.Machine.execMulticast row grp s
  | .message k => Sys2Proof.Machine.execMessage k s
  | .refuse k => Sys2Proof.Machine.execRefuse k s
  | .mailboxDelivery ctx => Sys2Proof.Machine.execMailboxDelivery ctx s
  | .readReq k => Sys2Proof.Machine.execReadReq k s
  | .writeReq k => Sys2Proof.Machine.execWriteReq k s
  | .atomicReq k => Sys2Proof.Machine.execAtomicReq k s
  | .probeReq k => Sys2Proof.Machine.execProbeReq k s
  | .echoReq k => Sys2Proof.Machine.execEchoReq k s
  | .dataReq k => Sys2Proof.Machine.execDataReq k s
  | .ackReq k => Sys2Proof.Machine.execAckReq k s
  | .linkWord k => Sys2Proof.Machine.execLinkWord k s
  | .barrierArrival k => Sys2Proof.Machine.execBarrierArrival k s
  | .barrierRelease k => Sys2Proof.Machine.execBarrierRelease k s
  | .gangForward k => Sys2Proof.Machine.execGangForward k s
  | .windowUpdate k => Sys2Proof.Machine.execWindowUpdate k s
  | .walkCompletion k => Sys2Proof.Machine.execWalkCompletion k s
  | .retryLatchReissue core ctx thr => Sys2Proof.Machine.execRetryLatchReissue core ctx thr s
  | .storageReadCompletion k ok => Sys2Proof.Machine.execStorageReadCompletion k ok s
  | .storageEviction => Sys2Proof.Machine.execStorageEviction s
  | .storageLost drive => Sys2Proof.Machine.execStorageLost drive s
  | .swapOut ctx task => Sys2Proof.Machine.execSwapOut ctx task s
  | .preemptionDeadline ctx task => Sys2Proof.Machine.execPreemptionDeadline ctx task s
  | .taskCompletion ctx task => Sys2Proof.Machine.execTaskCompletion ctx task s
  | .coreGoesDark core ctx => Sys2Proof.Machine.execCoreGoesDark core ctx s
  | .launchEnd ctx => Sys2Proof.Machine.execLaunchEnd ctx s
  | .taskPlacement ctx task place => Sys2Proof.Machine.execTaskPlacement ctx task place s
  | .contextEnd ctx => Sys2Proof.Machine.execContextEnd ctx s
  | .retirement ctx => Sys2Proof.Machine.execRetirement ctx s
  | .boundUnproved kslot => Sys2Proof.Machine.execBoundUnproved kslot s
  | .present slot => Sys2Proof.Machine.execPresent slot s
  | .timeNonce slot => Sys2Proof.Machine.execTimeNonce slot s
  | .timeNote slot => Sys2Proof.Machine.execTimeNote slot s
  | .receiptNonce slot => Sys2Proof.Machine.execReceiptNonce slot s
  | .receiptRequest slot => Sys2Proof.Machine.execReceiptRequest slot s
  | .graphStatus slot => Sys2Proof.Machine.execGraphStatus slot s
  | .slotBindingLapse slot => Sys2Proof.Machine.execSlotBindingLapse slot s
  | .receiptNonceExpiry => Sys2Proof.Machine.execReceiptNonceExpiry s
  | .commitNote kslot serial target sig => Sys2Proof.Machine.execCommitNote kslot serial target sig s
  | .commitAcknowledgement serial sig => Sys2Proof.Machine.execCommitAcknowledgement serial sig s
  | .commitTimeout serial => Sys2Proof.Machine.execCommitTimeout serial s
  | .releaseNote kslot serial target sig => Sys2Proof.Machine.execReleaseNote kslot serial target sig s
  | .warrantOperationCompletion k => Sys2Proof.Machine.execWarrantOperationCompletion k s
  | .bindStart die => Sys2Proof.Machine.execBindStart die s
  | .bindResume die => Sys2Proof.Machine.execBindResume die s
  | .bindUnbind die => Sys2Proof.Machine.execBindUnbind die s
  | .bindRecordApply k => Sys2Proof.Machine.execBindRecordApply k s
  | .registerWrite addr val => Sys2Proof.Machine.execRegisterWrite addr val s
  | .pwake die n => Sys2Proof.Machine.execPwake die n s
  | .sensorReading pcore temp => Sys2Proof.Machine.execSensorReading pcore temp s
  | .heatAction pcore => Sys2Proof.Machine.execHeatAction pcore s
  | .drift pcore => Sys2Proof.Machine.execDrift pcore s
  | .modulePowerSense watts => Sys2Proof.Machine.execModulePowerSense watts s
  | .coldPlateAlarm outlet flow => Sys2Proof.Machine.execColdPlateAlarm outlet flow s
  | .rowVoltageReached prow => Sys2Proof.Machine.execRowVoltageReached prow s
  | .ratioChange pcore => Sys2Proof.Machine.execRatioChange pcore s
  | .wake pcore => Sys2Proof.Machine.execWake pcore s
  | .switchOnComplete pcore => Sys2Proof.Machine.execSwitchOnComplete pcore s
  | .holdExpiry pcore => Sys2Proof.Machine.execHoldExpiry pcore s
  | .leeBankRetention core bank => Sys2Proof.Machine.execLeeBankRetention core bank s
  | .wakeWrite src ctx q bytes val => Sys2Proof.Machine.execWakeWrite src ctx q bytes val s
  | .queueBind ctx q slot => Sys2Proof.Machine.execQueueBind ctx q slot s
  | .queueUnmap ctx q => Sys2Proof.Machine.execQueueUnmap ctx q s
  | .lookAhead ctx q => Sys2Proof.Machine.execLookAhead ctx q s
  | .launch ctx q => Sys2Proof.Machine.execLaunch ctx q s
  | .map ctx q => Sys2Proof.Machine.execMap ctx q s
  | .unmap ctx q => Sys2Proof.Machine.execUnmap ctx q s
  | .callPacket ctx q => Sys2Proof.Machine.execCallPacket ctx q s
  | .join ctx q => Sys2Proof.Machine.execJoin ctx q s
  | .signal ctx q => Sys2Proof.Machine.execSignal ctx q s
  | .packetCompletion ctx q => Sys2Proof.Machine.execPacketCompletion ctx q s
  | .atsTranslationResponse func pasid iova rd wr => Sys2Proof.Machine.execAtsTranslationResponse func pasid iova rd wr s
  | .prgResponse func pasid iova ok => Sys2Proof.Machine.execPrgResponse func pasid iova ok s
  | .pageRequestTimeout func pasid iova => Sys2Proof.Machine.execPageRequestTimeout func pasid iova s
  | .invalidateRequest func pasid iova pages => Sys2Proof.Machine.execInvalidateRequest func pasid iova pages s
  | .tdiLeavesRun func => Sys2Proof.Machine.execTdiLeavesRun func s
  | .conventionalReset => Sys2Proof.Machine.execConventionalReset s
  | .functionLevelReset func => Sys2Proof.Machine.execFunctionLevelReset func s
  | .spdmMeasurements cand => Sys2Proof.Machine.execSpdmMeasurements cand s
  | .putPlacement peer peerCtx dst off rel data => Sys2Proof.Machine.execPutPlacement peer peerCtx dst off rel data s
  | .sendPlacement peer peerCtx ctx q data => Sys2Proof.Machine.execSendPlacement peer peerCtx ctx q data s
  | .getService peer peerCtx dst off acq len => Sys2Proof.Machine.execGetService peer peerCtx dst off acq len s
  | .networkAcknowledgement tag path off ecn rtt credit data => Sys2Proof.Machine.execNetworkAcknowledgement tag path off ecn rtt credit data s
  | .packetLoss tag path off => Sys2Proof.Machine.execPacketLoss tag path off s
  | .collectivePartial tag slice hdr data => Sys2Proof.Machine.execCollectivePartial tag slice hdr data s
  | .networkCommandCompletion tag rf => Sys2Proof.Machine.execNetworkCommandCompletion tag rf s
  | .frame port pn assoc icvOk spdm => Sys2Proof.Machine.execFrame port pn assoc icvOk spdm s
  | .rekey port => Sys2Proof.Machine.execRekey port s
  | .claim cand cert sig => Sys2Proof.Machine.execClaim cand cert sig s
  | .electionClose => Sys2Proof.Machine.execElectionClose s
  | .handover cand succ => Sys2Proof.Machine.execHandover cand succ s
  | .handoverTimeout => Sys2Proof.Machine.execHandoverTimeout s
  | .sessionTimeout cand => Sys2Proof.Machine.execSessionTimeout cand s
  | .release cand => Sys2Proof.Machine.execRelease cand s
  | .keyLoad cand slot key => Sys2Proof.Machine.execKeyLoad cand slot key s
  | .keyUnload cand slot => Sys2Proof.Machine.execKeyUnload cand slot s
  | .ownerSet cand fp => Sys2Proof.Machine.execOwnerSet cand fp s
  | .config cand v p tr tt td staging => Sys2Proof.Machine.execConfig cand v p tr tt td staging s
  | .drive cand mask => Sys2Proof.Machine.execDrive cand mask s
  | .fwLoad cand ver img key sig => Sys2Proof.Machine.execFwLoad cand ver img key sig s
  | .fwCommit cand => Sys2Proof.Machine.execFwCommit cand s
  | .capture cand kslot on => Sys2Proof.Machine.execCapture cand kslot on s
  | .captureRead cand ctx => Sys2Proof.Machine.execCaptureRead cand ctx s
  | .replay cand slot stream => Sys2Proof.Machine.execReplay cand slot stream s
  | .status cand => Sys2Proof.Machine.execStatus cand s
  | .powerGood => Sys2Proof.Machine.execPowerGood s
  | .moduleReset => Sys2Proof.Machine.execModuleReset s
  | .storageWriteCompletion k => Sys2Proof.Machine.execStorageWriteCompletion k s
  | .rotationPeriod => Sys2Proof.Machine.execRotationPeriod s
  | .tdispRequest func req => Sys2Proof.Machine.execTdispRequest func req s
  | .ideKmMessage func => Sys2Proof.Machine.execIdeKmMessage func s
  | .spdmSession cand cert => Sys2Proof.Machine.execSpdmSession cand cert s
  | .presentationSlotWrite src slot off data => Sys2Proof.Machine.execPresentationSlotWrite src slot off data s
  | .replayInput ctx => Sys2Proof.Machine.execReplayInput ctx s

end Sys2Proof.Machine
end

