-- ==== Sys2Proof/Machine/Issue.lean ====
section
/-! DEFINITION. Issue: one unit of one thread (R62 to R70, R85), gangs (R438), the choice of the thread in a clk (R382, R383), and
the moves of the machine. -/
namespace Sys2Proof.Machine
open Sys2Proof

/-- Continues from the next state. -/
def Out1.andThen (o : Out1) (f : State → Out1) : Out1 :=
  match o with
  | .next s => f s
  | .fault e => .fault e
  | .refused e => .refused e

/-- One member of a unit: decoding, the predicate, the meaning (steps 4 to 9 of R85). DESIGN CHOICE (log 47): the predicate field is no
operand in the sense of R27, so an eddy's instruction that p4 to p7 predicate reads the bit as false and raises no trap. -/
def State.member (w : IWord) (s : State) : Out1 :=
  match decode w with
  | .error e => s.finish (.error (.trap (e.cause.setWidth 64) e.tval))
  | .ok x => if xor (s.pred x.pr) x.pn then exec x.instr s else s.finish (.ok s)

/-- A stop of a unit that holds a pair, with the pair facts (R68). -/
def State.pairStop (s : State) (e : Stop) (second : Bool) : State :=
  match e with
  | .trap c v => (s.trapLog c v).takeTrap c v s.th.pc true second
  | e => s.stopped e

/-- Both members of a pair, each run on the unit's state `s`, where `stop e second` ends it: where one stops the other has no effect, and while
one is parked the other has none either (R68). A wait of the first that has ended is kept while the second waits. -/
def State.members (w1 w2 : IWord) (stop : Stop → Bool → State) (fin : State → State) (s : State) : Out1 :=
  let first := { s with th := { s.th with wait := s.th.wait1 <|> s.th.wait } }
  let second (t : State) : Out1 := State.member w2 { t with
    th := { t.th with wait := s.th.wait }
    iss := { t.iss with mode := .second s.th s.reqs.length, res := .done } }
  Out1.andThen (first.member w1) fun r =>
    match r.iss.res with
    | .stop e => .next (stop e false)
    | .parked => Out1.andThen (second s) fun q =>
      match q.iss.res with
      | .stop e => .next (stop e true)
      | _ => .next r
    | .done => Out1.andThen (second r) fun q =>
      match q.iss.res with
      | .stop e => .next (stop e true)
      | .parked => Out1.andThen (second s) fun p => .next { p with th := { p.th with wait1 := s.th.wait1 <|> s.th.wait } }
      | .done => .next (fin q)

/-- A unit of two members (R68): both are checked before either changes anything; the second reads the thread from before the
pair. -/
def State.issuePair (w1 w2 : IWord) (s0 : State) : Out1 :=
  let s := { s0 with iss := { s0.iss with mode := .first, pair := true } }
  s.members w1 w2 s.pairStop State.retire

/-- The checks of steps 1 to 3 of R85 and of a thread's start at its entry point (R69): the words that issue, or a stop. -/
def State.fetch (s : State) : Except Stop (IWord × Option IWord) := do
  let pc := s.th.pc
  if !s.th.started && s.th.eddy.isNone then s.checkTarget pc
  if pc.toNat / 2 ^ 56 != 0 then trapW 2 pc
  match s.lineAt pc with
  | none => trapW 1 pc
  | some pa =>
    let l := lineOf s.mem pa
    if !l.lwpOk then trapW 0x11 pc
    if h : pcSlot pc < 5 ∧ pc.extractLsb' 3 3 = 0 then
      let k : Fin 5 := ⟨pcSlot pc, h.1⟩
      if !(l.parOk k) then trapW 0x11 pc
      if l.paired k.val && !(l.parOk (k + 1)) then trapW 0x11 (pc + 1)
      if l.malformed then trapW 0x10 (l.word.setWidth 64)
      .ok (l.slots[k], if l.paired k.val then some l.slots[k + 1] else none)
    else trapW 0x12 pc

/-! ### Gangs (R268, R269, R438) -/

/-- The words of a unit that a leader forwards: those of the integer, vector, memory, matrix and async classes but gang and gjoin. A
gdetach that the leader executes is forwarded as one every member executes. -/
def State.forwards (s : State) (w : IWord) : Option IWord :=
  let r := Raw.ofWord w
  match uclass r.op with
  | none | some .ctl | some .sys => none
  | some _ =>
    if r.op = 0xAC || r.op = 0xAE then none
    else if r.op = 0xAD && xor (s.pred r.pr) r.pn then some ({ r with pn := false, pr := 0 }.toWord)
    else some w

/-- The unit as the leader in focus forwards it, and to whom. -/
def State.gangUnit (s : State) (w : IWord) (w2 : Option IWord) : Option (List TKey × IWord × Option IWord) :=
  match s.th.gang with
  | .leader ms _ _ _ =>
    if s.th.handler then none
    else match s.forwards w, w2.bind s.forwards with
      | some a, b => some (ms, a, b)
      | none, some b => some (ms, b, none)
      | none, none => none
  | _ => none

def State.sendGang (g : List TKey × IWord × Option IWord) (s : State) : State :=
  let isMember (t : Thread) : Bool := match t.gang with | .member _ _ => true | _ => false
  { s with pkts := s.pkts ++ (g.1.filter fun m => (s.thread? m).any isMember).map fun m => Pkt.gang m g.2.1 g.2.2 }

/-- A member issues the next forwarded unit. It does not retire at its own PC: it stays in its gjoin (R269). -/
def State.issueForwarded (leader : TKey) (w : IWord) (w2 : Option IWord) (rest : List (IWord × Option IWord)) (s : State) : Out1 :=
  let s0 := { s with
    th := { s.th with wait := match s.th.wait with | some (.gjoin _) => none | x => x }
    iss := { mode := .first } }
  let stop (e : Stop) (_ : Bool) : State := { s with iss := {} }.stopped e
  let fin (n : Nat) (t : State) : State :=
    match t.iss.res with
    | .stop e => stop e false
    | .parked => t
    | .done =>
      if t.th.exited || (t.th.handler && !s.th.handler) then t
      else
        let left := match t.th.gang with | .member _ _ => false | _ => true
        { t with
          th := { t.th with
            wait := some (.gjoin left), wait1 := none, rowOk := false, retry := none, icount := t.th.icount + BitVec.ofNat 64 n
            gang := if left then .none else .member leader rest }
          iss := { t.iss with mode := .single, target := none } }
  match w2 with
  | none => Out1.andThen (s0.member w) fun r => .next (fin 1 r)
  | some v => s0.members w v stop (fin 2)

/-! ### One issue -/

/-- Issues a unit of the thread in focus. Where it must wait and has done nothing, `iss.res` says so and nothing else changes. DESIGN
CHOICE (log 27): a trap of steps 1 to 3 of R85, which are made for the whole line, leaves tstat.pair and tstat.mem 0 at a pair too. -/
def State.issue (s0 : State) : Out1 :=
  let s := { s0 with iss := {} }
  match s.th.gang, s.th.wait with
  | .member l ((w, w2) :: rest), _ => s.issueForwarded l w w2 rest
  | _, _ =>
    match s.fetch with
    | .error e => s.finish (.error e)
    | .ok (w, w2) =>
      let s := { s with th := { s.th with started := true }, cx := s.cx.touch s.th.pc.toNat false }
      let g := s.gangUnit w w2
      let n := match g with | some (_, _, some _) => 2 | _ => 1
      if g.any fun g => g.1.any fun m => 4 < s.gangHeld m + n then s.finish (.error .block)
      else
        let r := match w2 with
          | none => s.member w
          | some v => s.issuePair w v
        Out1.andThen r fun t =>
          .next (match g with | some g => if t.th.icount != s.th.icount then t.sendGang g else t | none => t)

/-! ### The slot winner (R383) -/

/-- Whether a parked thread's wait is over. -/
def State.waitOver (s : State) (t : Thread) : Bool :=
  match t.wait with
  | none => true
  | some (.echoes n) => n = 0
  | some (.value v) => v.isSome
  | some (.barrier _ d) => d.isSome
  | some (.event _) => t.latch
  | some .gang => true
  | some (.gjoin left) => left || match t.gang with | .member _ (_ :: _) => true | _ => false
  | some (.hint _) => !s.swapAsked
  | some (.spill _) => !(s.storing t.key)

/-- A thread that may try to issue: in rotation, in no interval, and not stopped for a swap-out (R288). -/
def State.mayIssue (s : State) (t : Thread) : Bool :=
  !t.exited && t.busy = 0 && (match t.retry with | some r => r.settled | none => true) && s.waitOver t && !(s.halted t)

def State.isBlocked (s : State) : Bool := match s.iss.res with | .stop .block | .stop .wait => true | _ => false
def State.isWaiting (s : State) : Bool := match s.iss.res with | .stop .wait => true | _ => false

/-- Tries the candidates in order: the first that does not block issues; an interrupt that is due is taken in its place, unless the unit
there takes a synchronous trap, which comes first (R286). -/
def State.tryIssue (s : State) : List TKey → Out1
  | [] => .next { s with iss := {} }
  | k :: l =>
    match s.thread? k with
    | none => s.tryIssue l
    | some t =>
      let f := s.focusTh k
      if f.irqDue && !(f.halted t) then
        if f.mayIssue t then Out1.andThen f.issue fun r => .next (if r.th.handler then r else f.takeIrq) else .next f.takeIrq
      else if !(f.mayIssue t) then s.tryIssue l
      else Out1.andThen f.issue fun r =>
        if r.isWaiting then State.tryIssue (s.haltWaiting k) l
        else if r.isBlocked then s.tryIssue l
        else .next (if 8 ≤ k.slot then { r with bd := { r.bd with ep := (k.slot - 8 + 1) % 8 } } else r)

/-- The entries of a context in the core's slot table. -/
def Core.entries (c : Core) (ctx : Nat) : List Nat :=
  (List.range 64).filter fun i => ((c.slots.toList[i]?).join.map (·.1)) == some ctx

/-- The candidates for an entry, in the order of SlotWinner. -/
def State.candidates (s : State) (entry ctx thr : Nat) : List TKey :=
  let key (slot : Nat) : TKey := ⟨s.core.id, ctx, slot⟩
  let eddies := (List.range 8).map fun i => key (8 + (s.bd.ep + i) % 8)
  let es := s.core.entries ctx
  let first := es.head? = some entry && (decide (2 ≤ es.length) || s.core.clk / 64 % 2 = 0) &&
    !((List.range 8).any fun n => (s.thread? (key n)).any fun t => { s with th := t }.irqDue)
  (if first then eddies else []) ++ (List.range 8).map (fun i => key ((thr + i) % 8)) ++ eddies

/-- The arrivals and releases that a clk leaves due at the barriers of a core's holder (R263, R437). -/
def State.sweepHolder (c : Nat) (s : State) : State :=
  match (s.core? c).holder with
  | none => s
  | some ctx => match s.taskAt c ctx with
    | some t => s.barSweep ctx t.num
    | none => s

/-- The records of a core whose frame has come take effect, in the order of their go (R388). The first argument bounds how many. -/
def State.applyDue (c : Nat) : Nat → State → State
  | 0, s => s
  | n + 1, s => match s.pends.findIdx? fun p => p.core = c && s.pendDue p with
    | some k => State.applyDue c n (s.applyAt k)
    | none => s

/-- One clk of a core (R382): at the start of a frame, first the records that are due; every interval on it is one shorter, the entry's context
counts the clk, and one unit issues. A thread that declined passes over a slot it owns (R160). -/
def State.coreClk (c : Nat) (s : State) : Out1 :=
  let s := (s.applyDue c s.pends.length).focusCore c
  let entry := s.core.clk % 64
  let s := s.mapThreads fun t => if t.core = c then { t with busy := t.busy - 1 } else t
  let slot := (s.core.slots.toList[entry]?).join
  let next (t : State) : State := { t with core := { t.core with clk := t.core.clk + 1 } }
  match slot with
  | none => .next (next s)
  | some (ctx, thr) =>
    let s := s.focusOn c ctx
    let s := { s with bd := { s.bd with ccount := s.bd.ccount + 1 }, cx := { s.cx with served := s.cx.served + 1 } }
    let own : TKey := ⟨c, ctx, thr⟩
    let ks := s.candidates entry ctx thr
    let declined := (s.thread? own).any (·.declined)
    let ks := if declined then ks.filter (· != own) else ks
    let s := if declined then s.updTh own fun t => { t with declined := false } else s
    Out1.andThen (s.tryIssue ks) fun t =>
      .next (State.sweepHolder c (if t.core.id = c then next t else t.updCore c fun x => { x with clk := x.clk + 1 }))

end Sys2Proof.Machine
end

