-- ==== Sys2Proof/Machine/Auto.lean ====
section
/-! DEFINITION. The order in which the machine moves where the outside gives no move: which core's clk comes next, and which of the
events of the machine's own engines is due. -/
namespace Sys2Proof.Machine
open Sys2Proof

/-- Cores that carry contexts, or wait for the frame in which a record applies. -/
def State.busyCores (s : State) : List Core :=
  (s.core :: s.cores).filter (fun c => c.slots.any (·.isSome)) ++
  (s.pends.filter fun p => (s.phys? p.core).any fun q => (s.pcore q).pw = .on).map fun p => s.core? p.core

/-- The core whose clk comes next: of those that carry contexts, the one that has had the fewest. -/
def State.nextCore (s : State) : Nat :=
  match s.busyCores with
  | [] => s.core.id
  | c :: l => (l.foldl (fun b x => if x.clk < b.clk then x else b) c).id

/-- The events of packets and requests in flight. -/
def State.flightMoves (s : State) : List (State → State) :=
  (List.range s.reqs.length).map (fun k => match (s.reqs[k]?).map (·.body) with
    | some (.write _) => State.writeAt k
    | some (.amo ..) => State.atomicAt k
    | some (.read _) => State.readReqAt k
    | some .probe => State.probeAt k
    | some .echo => State.echoAt k
    | some (.data _ _) => State.dataAt k
    | some (.ack _ _) => State.ackAt k
    | none => id) ++
  (List.range s.pkts.length).map (fun k => match s.pkts[k]? with
    | some (.link ..) => State.linkAt k
    | some (.arrival ..) => State.arrivalAt k
    | some (.release ..) => State.releaseAt k
    | some (.gang ..) => State.gangAt k
    | some (.msg _) => State.messageAt k
    | some (.refuse _ _) => State.refuseAt k
    | some (.window _ _) => State.windowAt k
    | none => id) ++
  (List.range s.walks.length).map State.walkAt

/-- The events of a core's engines for one of its contexts. -/
def State.bindMoves (s : State) (b : Bind) : List (State → State) :=
  (if b.copies.isEmpty && b.reads.all (·.asked) then [] else [State.copyExec b.core b.ctx, State.ringClaimAt b.core b.ctx, State.copyComplete b.core b.ctx]) ++
  (if b.bursts.isEmpty then [] else [State.birth b.core]) ++
  b.reads.flatMap (fun r => ((List.range r.bursts).filter fun n => !(r.delivered.contains n)).map (State.burstAt b.core b.ctx r.tag) ++
    [State.lastBurst b.core b.ctx r.tag]) ++
  (if (s.core? b.core).holder = some b.ctx then
    let e := (s.core? b.core).eng
    (if e.queue.isEmpty then [] else [State.matExec b.core, State.matStep b.core, State.matComplete b.core])
  else []) ++
  (if (s.core? b.core).eng.lane.isEmpty then [] else [State.laneMove b.core]) ++
  (if b.dark || b.went then [] else [State.goDark b.core b.ctx])

/-- The next packet of a queue, by its type. -/
def State.queueMoves (x : Queue) : List (State → State) :=
  let ev (f : State → Out1) (s : State) : State := match f s with | .next t => t | _ => s
  [State.lookAt x.ctx x.q, State.packetDone x.ctx x.q] ++ match x.look with
    | p :: _ => match p.type with
      | 1 => [ev (execLaunch x.ctx x.q)]
      | 2 => [ev (execMap x.ctx x.q)]
      | 3 => [ev (execUnmap x.ctx x.q)]
      | 4 => [ev (execCallPacket x.ctx x.q)]
      | 5 => [ev (execJoin x.ctx x.q)]
      | 6 => [ev (execSignal x.ctx x.q)]
      | _ => []
    | [] => []

/-- The events of a context: its mail, its tasks, its launch, and its end. -/
def State.cxMoves (s : State) (x : Context) : List (State → State) :=
  let ev (f : State → Out1) (s : State) : State := match f s with | .next t => t | _ => s
  (if x.mail.isEmpty then [] else [State.mailAt x.id]) ++
  x.tasks.flatMap (fun (t : Task) => match t.st with
    | .placed => [State.taskOver x.id t.num]
    | .saving => [State.taskOver x.id t.num, State.swapAt x.id t.num, ev (execPreemptionDeadline x.id t.num)]
    | _ => []) ++
  (if x.launchOver then [State.launchEndAt x.id] else []) ++ (if x.surr || x.retired then [State.contextEndAt x.id] else []) ++
  (if x.replay.isSome then [State.replayInput x.id] else [State.retireAt x.id]) ++
  (({ s with cx := x }.cmdQueues.filter fun q => State.desc { s with cx := x } q 3 != 0 && (s.queue? x.id q).isNone).map fun q s =>
    match (List.range 64).find? fun k => !(s.queues.any fun y => y.die = dDie (State.desc { s with cx := x } q 0) && y.slot = k) with
    | some k => s.bindQueue x.id q k
    | none => s)

/-- The events of the IOD: warrant operations, notices of time, presentation slots, and the seat. -/
def State.iodMoves (s : State) : List (State → State) :=
  let ev (f : State → Out1) (s : State) : State := match f s with | .next t => t | _ => s
  (List.range s.wops.length).map State.wopAt ++ s.commits.map (fun c => ev (execCommitTimeout c.serial)) ++
  (List.range 16).flatMap (fun n => match (s.pslot n).pgo with
    | some v => match v.toNat % 8 with
      | 1 => [ev (execPresent n)]
      | 2 => [ev (execTimeNonce n)]
      | 3 => [ev (execTimeNote n)]
      | 4 => [ev (execReceiptNonce n)]
      | 5 => [ev (execReceiptRequest n)]
      | _ => [ev (execGraphStatus n)]
    | none => if (s.pslot n).src.isSome then [ev (execSlotBindingLapse n)] else []) ++
  (List.range 16).flatMap (fun k => if (s.kslot k).note.isSome && (s.bound k).isNone then [State.unproved k] else []) ++
  (if s.invs.isEmpty then [] else [State.invPump]) ++ (List.range s.endq.length).map State.endRetry ++
  (if s.rnonces.isEmpty then [] else [ev execReceiptNonceExpiry]) ++ (if s.seat.open_ then [State.closeElection] else []) ++
  (if s.seat.handover.isSome then [ev execHandoverTimeout] else []) ++ s.seat.sessions.map (fun x => ev (execSessionTimeout x.cand)) ++
  s.nets.flatMap (fun n => [State.netPump n.tag, State.netComplete n.tag false]) ++
  (if s.period + s.rotation ≤ s.iod then [State.rotate] else []) ++ (if s.evicting || 16 * s.stagingFree < s.staging then [State.evict] else [])

/-- The events of the dispatch and power hardware. -/
def State.powerMoves (s : State) : List (State → State) :=
  let ev (f : State → Out1) (s : State) : State := match f s with | .next t => t | _ => s
  (List.range 4).filterMap (fun d => if (s.die d).busy then some (State.goOp d fun _ => true) else none) ++
  (List.range s.pends.length).map State.applyAt ++
  s.overBinds.map State.unbindOver ++
  s.pcores.flatMap fun x =>
    (if x.pw = .switching then [State.switchedOn x.id] else []) ++ (if x.pw = .hold then [State.holdOver x.id] else []) ++
    (if x.want.isSome then [ev (execRowVoltageReached (x.id / 16)), State.ratioSwitch x.id] else []) ++
    (if x.acts.isEmpty then [] else [State.heatAct x.id])

/-- Threads whose translation is settled. -/
def State.latchMoves (s : State) : List (State → State) :=
  (s.threads.filter fun t => t.retry.any fun r => r.settled && !r.bad).map fun t => State.updTh t.key Thread.reissue

/-- Every event that the machine's own parts may make now. Drives, peers, the host and firmware's choices are not among them. -/
def State.moves (s : State) : List (State → State) :=
  s.flightMoves ++ s.latchMoves ++ s.binds.flatMap s.bindMoves ++
  s.groups.flatMap (fun g => [State.closeGroup g.id, State.multicastOne g.id]) ++ s.contexts.flatMap s.cxMoves ++
  s.queues.flatMap State.queueMoves ++ s.iodMoves ++ s.powerMoves

/-- A move of the agenda: an event of the opcode table, a clk of a core, or what is no row of the table. -/
def State.runMove (m : Move) (s : State) : Out1 :=
  match m with
  | .ev i => if (encRaw i).isNone then exec i s else .next s
  | .clk c => s.coreClk c
  | .wake c q v => .next (State.wake (.ctx c) c q 8 v s)
  | .tick us => .next { s with iod := s.iod + us }
  | .err e => .next (s.meetErr e)
  | .evict pa => .next (s.evictLine (pa / 64 * 64))
  | .evictNode k l i => .next (s.evictNode k l i)
  | .nvme d n => .next (s.probeDrive d n)
  | .hostRead src a n => .next (s.hostRead src a n)
  | .regRead a => .next (s.registerRead a)

/-- The number that picks an event at a turn: multiples of a constant taken modulo 2^32, which keep no step with a list whose order
changes as the machine moves (log 1). -/
def whichMove (turn : Nat) : Nat := turn / 2 * 2654435769 % 2 ^ 32 / 2 ^ 12

/-- A move where the agenda is empty: an event and a core's clk take turns, and the events take turns among them (log 1). -/
def State.autoMove (s : State) : Out1 :=
  let t := { s with turn := s.turn + 1 }
  let ms := s.moves
  if s.turn % 2 = 1 then t.coreClk t.nextCore
  else match ms[whichMove s.turn % ms.length]? with
    | some f => .next (f t)
    | none => t.coreClk t.nextCore

/-! ### The state in which a given word issues next -/

/-- The bytes of a line whose slot 0 holds a word, with its parity; the other slots are zero. -/
def fetchLine (w : Nat) : List Byte :=
  leBytes (w % 2 ^ 96) 12 ++ List.replicate 48 0 ++ leBytes (if oddOnes (w % 2 ^ 96) 0 96 then 1 else 0) 4

def fetchPc : Word := 0x4000000000

def fetchPage : Pte := { va := fetchPc.toNat, lvl := 4, ctl := leafCtl 0 0 false false true true false rawAttr 0 0, loc := 0 }

end Sys2Proof.Machine
end

