-- ==== Sys2Proof/Machine/Step.lean ====
section
/-! DEFINITION. The step: the next move of the agenda, or of the machine itself; and the state in which a given word is the next
instruction. -/
namespace Sys2Proof.Machine
open Sys2Proof

/-- One step: the agenda's next move (an event, a core's clk, the passing of time); where the agenda is empty, a move of the
machine's own (log 1). -/
def step (s : State) : Host.Outcome State Fault Refusal :=
  match s.agenda with
  | m :: r => { s with agenda := r }.runMove m
  | [] => s.autoMove

/-- Stands for the loading and binding of a program (log 15): thread 0 of context 0 on logical core 0 stands at a line whose slot 0
holds the word, and the next move is a clk of that core. -/
def State.withFetchWord (s : State) (nbits w : Nat) : State :=
  { s with
    th := { s.th with
      core := 0, ctx := 0, slot := 0, eddy := none, pc := fetchPc, handler := false, exited := false, gang := .none, retry := none
      wait := none, wait1 := none, rowOk := false, started := true, busy := 0, declined := false, irqs := [] }
    bd := { s.bd with core := 0, ctx := 0, gone := false, irq := none, ep := 0 }
    core := { s.core with id := 0, slots := Vector.replicate 64 (some (0, 0)) }
    cx := { s.cx with id := 0, dead := false, key := 0, ptes := fetchPage :: s.cx.ptes }
    mem := s.mem.put 0 (fetchLine (w % 2 ^ nbits))
    poison := s.poison.filter (· != 0)
    agenda := [.clk 0] }

end Sys2Proof.Machine
end

