-- ==== Sys2Proof/Safety.lean ====
section
/-! DEFINITION. What counts as a safe run: the machine goes on. -/
namespace Sys2Proof.Machine
open Sys2Proof

/-- The step answers a next state. -/
def GoesOn (s : State) : Prop := ∃ t, step s = .next t

/-- Every memory the machine holds is in its canonical form: device memory, host memory, each core's scratchpad, the scratchpads of
saved tasks, the pages on the drives, and the areas of the presentation slots. -/
def State.memWf (s : State) : Prop :=
  s.mem.wf = true ∧ s.host.wf = true ∧ (∀ c ∈ s.core :: s.cores, c.spad.wf = true) ∧
  (∀ x ∈ s.cx :: s.cxs, ∀ v ∈ x.saved, v.core.spad.wf = true) ∧ (∀ d ∈ s.drives.toList, ∀ p ∈ d.slots, p.bytes.wf = true) ∧
  ∀ x ∈ s.pres.toList, x.area.wf = true

end Sys2Proof.Machine
end

