-- ==== Sys2Proof/Certificates/Slice0/Obligations.lean ====
section
/-! DEFINITION. The statements for the provers. The names of `Sys2Proof.Ob` are the vocabulary they share. -/

namespace Sys2Proof.Ob
open Sys2Proof Sys2Proof.Machine

/-- A unit that is a single is about to issue: nothing of it has happened. -/
def Fresh (s : State) : Prop := s.iss.mode = .single ∧ s.iss.res = .done

/-- The registers named exist for the thread (R27), and none of them is pending (R41, R43). -/
def Ready (ds ss : List (BitVec 8)) (s : State) : Prop :=
  Fresh s ∧ s.present (ds.map (fun d => (true, d)) ++ ss.map fun a => (false, a)) = .ok () ∧ s.settled (ds ++ ss) = true

/-- From every ready state the instruction completes: the effect f, on the state in which the operands named are joined, and the unit
retires. -/
def Does (i : Instr) (ds ss : List (BitVec 8)) (f : State → State) : Prop :=
  ∀ s, Ready ds ss s → exec i s = .next (f (s.joined (ds ++ ss))).retire

/-- The same where a condition on that state holds. -/
def DoesIf (i : Instr) (ds ss : List (BitVec 8)) (c : State → Prop) (f : State → State) : Prop :=
  ∀ s, Ready ds ss s → c (s.joined (ds ++ ss)) → exec i s = .next (f (s.joined (ds ++ ss))).retire

/-- The instruction ends in a trap of its thread, with its cause and value, before any effect. -/
def TrapsIf (i : Instr) (ds ss : List (BitVec 8)) (c : State → Prop) (cause : Word) (val : State → Word) : Prop :=
  ∀ s, Ready ds ss s → c (s.joined (ds ++ ss)) → exec i s = .next (s.stopped (.trap cause (val (s.joined (ds ++ ss)))))

/-- The same for an instruction that no eddy may issue. -/
def DoesTh (i : Instr) (ds ss : List (BitVec 8)) (c : State → Prop) (f : State → State) : Prop :=
  ∀ s, Ready ds ss s → s.th.eddy = none → c (s.joined (ds ++ ss)) → exec i s = .next (f (s.joined (ds ++ ss))).retire

/-- A trap of an instruction that no eddy may issue. -/
def TrapsTh (i : Instr) (ds ss : List (BitVec 8)) (c : State → Prop) (cause : Word) (val : State → Word) : Prop :=
  ∀ s, Ready ds ss s → s.th.eddy = none → c (s.joined (ds ++ ss)) →
    exec i s = .next (s.stopped (.trap cause (val (s.joined (ds ++ ss)))))

/-- The instruction stops before any effect: with a trap, or because a translation must be awaited. -/
def StopsIf (i : Instr) (ds ss : List (BitVec 8)) (c : State → Stop → Prop) : Prop :=
  ∀ s e, Ready ds ss s → c (s.joined (ds ++ ss)) e → exec i s = .next (s.stopped e)

/-- Issued by an eddy, with the operands it reads present, the instruction is the eddy-forbidden trap with its op. -/
def NotInEddy (i : Instr) (ops : List (Bool × BitVec 8)) (op : Word) : Prop :=
  ∀ s, Fresh s → s.th.wait = none → s.present ops = .ok () → s.th.eddy ≠ none → exec i s = .next (s.stopped (.trap 0x23 op))

/-- One result of a vector instruction: active lanes take the operation's value, the others keep the prior one; the flags of the active
lanes are raised (R169). -/
def merged (j : State) (t : Ty) (m : Mask) (d : VDst) (r : List (Nat × Fl)) : List Nat × Fl :=
  mergeLanes (active j.src m t.width) (j.prior t.width t.lanes d) r

/-- A meaning of several readings and a writing: where they succeed with u, the instruction completes with u and holds its thread for n clk;
where one of them stops, with a trap or because something must be awaited, so does the instruction, before any effect. -/
def Gives (i : Instr) (ds ss : List (BitVec 8)) (n : Nat) (f : State → Except Stop State) : Prop :=
  ∀ s, Ready ds ss s → (∀ u, f (s.joined (ds ++ ss)) = .ok u → exec i s = .next (u.hold n).retire) ∧
    ∀ e, f (s.joined (ds ++ ss)) = .error e → exec i s = .next (s.stopped e)

/-- A lane-wise instruction on two sources, registers, ports or a broadcast scalar (R168 to R170), which holds its thread for n clk. -/
def Lanes2 (i : Instr) (n : Nat) (t : Ty) (rnd : Rnd) (sat : Bool) (d : VDst) (a : VSrc) (b : BSrc) (m : Mask)
    (op : Nat → Nat → Nat → Nat × Fl) : Prop :=
  Gives i [d.spec] (a.spec :: b.spec :: maskOps m) n (fun j => do
    let x ← j.vsrc [] t t.lanes (active j.src m t.width) a
    let y ← State.bsrc x.1 x.2.1 t rnd sat t.lanes (active j.src m t.width) b
    let r := merged j t m d (((x.2.2.zip y.2.2).zip (j.prior t.width t.lanes d)).map fun z => op z.1.1 z.1.2 z.2)
    (y.1.flag r.2).vdst t r.1 d)

/-- The same on one source. -/
def Lanes1 (i : Instr) (n : Nat) (t : Ty) (d : VDst) (a : VSrc) (m : Mask) (op : Nat → Nat × Fl) : Prop :=
  Gives i [d.spec] (a.spec :: maskOps m) n (fun j => do
    let x ← j.vsrc [] t t.lanes (active j.src m t.width) a
    let r := merged j t m d (x.2.2.map op)
    (x.1.flag r.2).vdst t r.1 d)

/-- A reduction: the lanes that are active, the others at the identity, combined as R127 combines them, the old value last. -/
def Folds (i : Instr) (acc : Bool) (t : Ty) (d : RDst) (a : VSrc) (m : Mask) (ident : Nat) (op : Nat → Nat → Nat × Fl) : Prop :=
  Gives i [d.spec] (a.spec :: maskOps m) 3 (fun j => do
    let x ← j.vsrc [] t t.lanes (active j.src m t.width) a
    let node (p q : Nat × Fl) : Nat × Fl := ((op p.1 q.1).1, (op p.1 q.1).2 ||| p.2 ||| q.2)
    let r := reduceAll node (ident, 0) (x.2.2.zipIdx.map fun y => (if active j.src m t.width y.2 then y.1 else ident, (0 : Fl)))
      (if acc then some (j.priorCode t d, 0) else none)
    (x.1.flag r.2).rdst t r.1 d)

/-- A w or g register, as a source and as a destination. -/
def fSrc : FReg → SReg
  | .w n => .w n
  | .g n => .g n
def fDst : FReg → SDst
  | .w n => .w n
  | .g n => .g n

end Sys2Proof.Ob

open Sys2Proof Sys2Proof.Machine Sys2Proof.Ob

/-! ### Scalar instructions -/

/-- R134: the exact result of the operation, fitted (R101: modulo 2^width under .wrap, clamped with flags.is under .sat, extended to 64
bits), is put into d with its flag, and the unit retires. -/
def Obligations.ScalarArithmetic : Prop :=
  ∀ (t : Ty) (sat : Bool) (d : SDst) (a b c : SSrc),
    Does (.add t sat d a b) [d.spec] [a.spec, b.spec] (fun j => j.putInt t d (fitInt t sat (j.int t a + j.int t b))) ∧
    Does (.sub t sat d a b) [d.spec] [a.spec, b.spec] (fun j => j.putInt t d (fitInt t sat (j.int t a - j.int t b))) ∧
    Does (.mul t sat d a b) [d.spec] [a.spec, b.spec] (fun j => j.putInt t d (fitInt t sat (j.int t a * j.int t b))) ∧
    Does (.mulh t d a b) [d.spec] [a.spec, b.spec] (fun j => j.putInt t d (fitInt t false (j.int t a * j.int t b / 2 ^ t.width))) ∧
    Does (.madd t sat d a b c) [d.spec] [a.spec, b.spec, c.spec]
      (fun j => j.putInt t d (fitInt t sat (j.int t a * j.int t b + j.int t c))) ∧
    Does (.abs t sat d a) [d.spec] [a.spec] (fun j => j.putInt t d (fitInt t sat (j.int t a).natAbs)) ∧
    Does (.min t d a b) [d.spec] [a.spec, b.spec] (fun j => j.putInt t d (fitInt t false (min (j.int t a) (j.int t b)))) ∧
    Does (.max t d a b) [d.spec] [a.spec, b.spec] (fun j => j.putInt t d (fitInt t false (max (j.int t a) (j.int t b)))) ∧
    Does (.and t d a b) [d.spec] [a.spec, b.spec] (fun j => j.putInt t d (j.bits t a &&& j.bits t b, 0)) ∧
    Does (.or t d a b) [d.spec] [a.spec, b.spec] (fun j => j.putInt t d (j.bits t a ||| j.bits t b, 0)) ∧
    Does (.xor t d a b) [d.spec] [a.spec, b.spec] (fun j => j.putInt t d (j.bits t a ^^^ j.bits t b, 0)) ∧
    Does (.andn t d a b) [d.spec] [a.spec, b.spec] (fun j => j.putInt t d (j.bits t a ^^^ (j.bits t a &&& j.bits t b), 0)) ∧
    (∀ (n : Int) (j : State) (p : Nat × Fl), fitInt t false n = ((n % 2 ^ t.width).toNat, 0) ∧
      (n < intMin t → fitInt t true n = ((intMin t % 2 ^ t.width).toNat, Fl.is)) ∧
      (intMin t ≤ n → intMax t < n → fitInt t true n = ((intMax t % 2 ^ t.width).toNat, Fl.is)) ∧
      (intMin t ≤ n → n ≤ intMax t → fitInt t true n = ((n % 2 ^ t.width).toNat, 0)) ∧
      j.putInt t d p = (j.put d (extend t p.1)).flag p.2)

/-- R135: division truncates toward zero and the thread stays out of issue for 18 clk; by zero the quotient is all ones, the remainder
the dividend, and flags.dz is set; no form traps. -/
def Obligations.ScalarDivision : Prop :=
  (∀ (t : Ty) (sat : Bool) (d : SDst) (a b : SSrc),
    DoesIf (.div t sat d a b) [d.spec] [a.spec, b.spec] (fun j => j.int t b ≠ 0)
      (fun j => (j.putInt t d (fitInt t sat ((j.int t a).tdiv (j.int t b)))).hold 18) ∧
    DoesIf (.div t sat d a b) [d.spec] [a.spec, b.spec] (fun j => j.int t b = 0)
      (fun j => (j.putInt t d (2 ^ t.width - 1, Fl.dz)).hold 18) ∧
    DoesIf (.rem t d a b) [d.spec] [a.spec, b.spec] (fun j => j.int t b ≠ 0)
      (fun j => (j.putInt t d (fitInt t false ((j.int t a).tmod (j.int t b)))).hold 18) ∧
    DoesIf (.rem t d a b) [d.spec] [a.spec, b.spec] (fun j => j.int t b = 0)
      (fun j => (j.putInt t d (wrapInt t (j.int t a), Fl.dz)).hold 18))

/-- R136, R137: shifts and rotates by the whole count of b, counts of bits, reversals, bit fields with the field of the descriptor
clipped to bit 63, and the extensions. -/
def Obligations.ScalarBits : Prop :=
  ∀ (t : Ty) (sat : Bool) (d : SDst) (a b c : SSrc),
    Does (.shl t sat d a b) [d.spec] [a.spec, b.spec]
      (fun j => j.putInt t d (fitInt t sat (j.int t a * 2 ^ min (j.count t b) t.width))) ∧
    Does (.shr t d a b) [d.spec] [a.spec, b.spec]
      (fun j => j.putInt t d (if j.count t b < t.width then j.bits t a / 2 ^ j.count t b else 0, 0)) ∧
    Does (.sar t d a b) [d.spec] [a.spec, b.spec] (fun j =>
      let k := min (j.count t b) t.width
      j.putInt t d (if 2 ^ (t.width - 1) ≤ j.bits t a then 2 ^ t.width - 1 - (2 ^ t.width - 1 - j.bits t a) / 2 ^ k
        else j.bits t a / 2 ^ k, 0)) ∧
    Does (.rot t d a b) [d.spec] [a.spec, b.spec] (fun j =>
      let k := j.count t b % t.width
      j.putInt t d (j.bits t a * 2 ^ k % 2 ^ t.width + j.bits t a / 2 ^ (t.width - k), 0)) ∧
    Does (.clz t d a) [d.spec] [a.spec] (fun j => j.putInt t d (ctzBits (bitList t.width (j.bits t a)).reverse, 0)) ∧
    Does (.ctz t d a) [d.spec] [a.spec] (fun j => j.putInt t d (ctzBits (bitList t.width (j.bits t a)), 0)) ∧
    Does (.popc t d a) [d.spec] [a.spec] (fun j => j.putInt t d ((bitList t.width (j.bits t a)).count true, 0)) ∧
    Does (.brev t d a) [d.spec] [a.spec] (fun j => j.putInt t d (ofBits (bitList t.width (j.bits t a)).reverse, 0)) ∧
    Does (.bswap t d a) [d.spec] [a.spec] (fun j => j.putInt t d (leNat (leBytes (j.bits t a) (t.width / 8)).reverse, 0)) ∧
    Does (.bext t d a b) [d.spec] [a.spec, b.spec] (fun j =>
      let desc := extend t (j.bits t b)
      let pos := desc.toNat % 64
      let len := min (desc.toNat / 256 % 128) (64 - pos)
      let f := (extend t (j.bits t a)).toNat / 2 ^ pos % 2 ^ len
      j.put d (if t = .i64 ∧ len ≠ 0 ∧ 2 ^ (len - 1) ≤ f then BitVec.ofInt 64 ((f : Int) - 2 ^ len) else BitVec.ofNat 64 f)) ∧
    Does (.bins d a b c) [d.spec] [a.spec, b.spec, c.spec] (fun j =>
      let pos := (j.i64 c).toNat % 64
      let len := min ((j.i64 c).toNat / 256 % 128) (64 - pos)
      let m : Word := BitVec.ofNat 64 ((2 ^ len - 1) * 2 ^ pos)
      j.put d ((j.i64 a &&& ~~~m) ||| ((j.i64 b <<< pos) &&& m))) ∧
    Does (.sext t d a) [d.spec] [a.spec] (fun j => j.put d (extend t (j.bits t a))) ∧
    Does (.zext t d a) [d.spec] [a.spec] (fun j => j.put d (extend t (j.bits t a)))

/-- R138 to R143: moves, addresses, conversion, comparison, predicates and selection. An effective address at or above 2⁵⁶ is the address
trap. -/
def Sys2Proof.Ob.MovesAndPredicates : Prop :=
  ∀ (t u : Ty) (rnd : Rnd) (sat neg na nb nr : Bool) (k : Cond) (d : SDst) (a b : SSrc) (m : MAddr) (x : Option SReg) (p q r : Fin 8)
    (w : Word),
    Does (.mov t (.s d) (.s a)) [d.spec] [a.spec] (fun j => j.put d (extend t (j.bits t a))) ∧
    Does (.movi d w) [d.spec] [] (fun j => j.put d w) ∧
    DoesIf (.lea t d m x) [d.spec] (m.base.spec :: idxOps x) (fun j => (leaAddr j t m x).toNat < 2 ^ 56)
      (fun j => j.put d (leaAddr j t m x)) ∧
    TrapsIf (.lea t d m x) [d.spec] (m.base.spec :: idxOps x) (fun j => 2 ^ 56 ≤ (leaAddr j t m x).toNat) 2
      (fun j => leaAddr j t m x) ∧
    Does (.setc k t d a b) [d.spec] [a.spec, b.spec] (fun j => j.put d (if condHolds k t (j.bits t a) (j.bits t b) then 1 else 0)) ∧
    Does (.cvt t u rnd sat d a) [d.spec] [a.spec] (fun j =>
      (j.put d (codeWord t (convCode t rnd sat u (j.cvtCode u a)).1)).flag (convCode t rnd sat u (j.cvtCode u a)).2) ∧
    Does (.cmp k t p a b) [specOf 0xB8 p] [a.spec, b.spec] (fun j =>
      (j.setP p (condHolds k t (j.pat t .rne false a).1 (j.pat t .rne false b).1)).flag ((j.pat t .rne false a).2 |||
        (j.pat t .rne false b).2 ||| if t.isInt then 0 else condFl t (j.pat t .rne false a).1 (j.pat t .rne false b).1)) ∧
    Does (.pand na nb nr p q r) [specOf 0xB8 p] [specOf 0xB8 q, specOf 0xB8 r]
      (fun j => j.setP p (xor (xor (j.pred q) na && xor (j.pred r) nb) nr)) ∧
    Does (.por na nb nr p q r) [specOf 0xB8 p] [specOf 0xB8 q, specOf 0xB8 r]
      (fun j => j.setP p (xor (xor (j.pred q) na || xor (j.pred r) nb) nr)) ∧
    Does (.pxor na nb nr p q r) [specOf 0xB8 p] [specOf 0xB8 q, specOf 0xB8 r]
      (fun j => j.setP p (xor (xor (xor (j.pred q) na) (xor (j.pred r) nb)) nr)) ∧
    Does (.pmov neg (.pp p q)) [specOf 0xB8 p] [specOf 0xB8 q] (fun j => j.setP p (xor (j.pred q) neg)) ∧
    Does (.pmov neg (.ps p a)) [specOf 0xB8 p] [a.spec] (fun j => j.setP p (xor (j.n64 a != 0) neg)) ∧
    Does (.pmov neg (.sp d p)) [d.spec] [specOf 0xB8 p] (fun j => j.put d (if xor (j.pred p) neg then 1 else 0)) ∧
    Does (.sel neg d a b p) [d.spec] [a.spec, b.spec, specOf 0xB8 p] (fun j =>
      j.put d (if xor (j.pred p) neg then j.i64 a else j.i64 b))

namespace Sys2Proof.Ob

/-- The word a mov reads, from a register, an immediate, or a link register that holds one; and the state in which it is taken. -/
def linkVal (t : Ty) (j : State) : MovSrc → Option Word
  | .s a => some (extend t (j.bits t a))
  | .lnkw => j.core.lnkw.map fun v => extend t v.toNat
  | .lnke => j.core.lnke.map fun v => extend t v.toNat
def linkTook (j : State) : MovSrc → State
  | .s _ => j
  | .lnkw => { j with core := { j.core with lnkw := none } }
  | .lnke => { j with core := { j.core with lnke := none } }

/-- The link register that sends east, or west. -/
def linkDst (east : Bool) : MovDst := if east then .lnke else .lnkw

end Sys2Proof.Ob

/-- R432, R433: a move from a link register takes its word and empties it, and waits while it is empty; a move to one sends the word to the
next member of the chain on that side, and waits while that member has no room. -/
def Sys2Proof.Ob.LinkRegisterMoves : Prop :=
  ∀ (t : Ty) (d : SDst) (e : MovDst) (o : MovSrc) (v : Word) (east : Bool),
    DoesIf (.mov t (.s d) o) [d.spec] [o.spec] (fun j => linkVal t j o = some v) (fun j => (linkTook j o).put d v) ∧
    DoesIf (.mov t (linkDst east) o) [(linkDst east).spec] [o.spec]
      (fun j => linkVal t j o = some v ∧ (linkTook j o).linkRoom (j.linkPeer east) east = true)
      (fun j => { linkTook j o with pkts := j.pkts ++ [.link (j.linkPeer east) j.th.ctx east v (linkHops j.core.id (j.linkPeer east))] }) ∧
    StopsIf (.mov t e o) [e.spec] [o.spec] (fun j x => linkVal t j o = none ∧ x = .block) ∧
    StopsIf (.mov t (linkDst east) o) [(linkDst east).spec] [o.spec]
      (fun j x => linkVal t j o = some v ∧ (linkTook j o).linkRoom (j.linkPeer east) east = false ∧ x = .block)

/-- Moves, addresses, conversion, comparison, predicates, selection (R138 to R143) and the link registers (R432, R433). -/
def Obligations.ScalarMoves : Prop := Ob.MovesAndPredicates ∧ Ob.LinkRegisterMoves

/-! ### Control -/

/-- R146: a taken transfer goes to its target once the target has passed the checks of R70, and stops as they say where it has not; an
untaken one retires to Following of itself. -/
def Sys2Proof.Ob.Branches : Prop :=
  ∀ (k : Cond) (t : Ty) (a b : SReg) (g : Tgt),
    StopsIf (.br g) [] [] (fun j e => j.checkTarget (j.tgt g) = .error e) ∧
    StopsIf (.brc k t a b g) [] [a.spec, b.spec] (fun j e =>
      condHolds k t (wrapInt t (j.int t (.reg a))) (wrapInt t (j.int t (.reg b))) = true ∧ j.checkTarget (j.tgt g) = .error e) ∧
    StopsIf (.bri a) [] [a.spec] (fun j e => j.checkTarget (j.sreg a) = .error e) ∧
    DoesIf (.br g) [] [] (fun j => j.checkTarget (j.tgt g) = .ok ()) (fun j => j.jump (j.tgt g)) ∧
    DoesIf (.brc k t a b g) [] [a.spec, b.spec]
      (fun j => condHolds k t (wrapInt t (j.int t (.reg a))) (wrapInt t (j.int t (.reg b))) = true ∧ j.checkTarget (j.tgt g) = .ok ())
      (fun j => j.jump (j.tgt g)) ∧
    DoesIf (.brc k t a b g) [] [a.spec, b.spec]
      (fun j => condHolds k t (wrapInt t (j.int t (.reg a))) (wrapInt t (j.int t (.reg b))) = false) (fun j => j) ∧
    DoesIf (.bri a) [] [a.spec] (fun j => j.checkTarget (j.sreg a) = .ok ()) (fun j => j.jump (j.sreg a))

/-- R146 to R148, R161: call opens a window of 24 registers with the return PC in w7, unless more than 200 entries are resident; ret closes it
and goes to the old w7, unless fewer than 24 are; each first checks its target; none of them is an eddy's. The registers w8 to w31 of the
new window are undefined (log 12). -/
def Sys2Proof.Ob.CallAndReturn : Prop :=
  ∀ (a : SReg) (g : Tgt),
    NotInEddy (.call g) [] 0x2B ∧ NotInEddy (.calli a) [(false, a.spec)] 0x2C ∧ NotInEddy (.tcall g) [] 0x2D ∧
    NotInEddy .ret [(false, 0x07)] 0x2E ∧
    (∀ s e, Ready [0x1F] [] s → s.th.eddy = none → (s.joined [0x1F]).checkTarget (s.tgt g) = .error e →
      exec (.call g) s = .next (s.stopped e)) ∧
    (∀ s e, Ready [0x1F] [a.spec] s → s.th.eddy = none → let j := s.joined [0x1F, a.spec]
      j.checkTarget (j.sreg a) = .error e → exec (.calli a) s = .next (s.stopped e)) ∧
    (∀ s e, Ready [] [0x07] s → s.th.eddy = none → let j := s.joined [0x07]
      j.checkTarget (j.sreg (.w 7)) = .error e → exec .ret s = .next (s.stopped e)) ∧
    DoesTh (.call g) [0x1F] [] (fun j => j.checkTarget (j.tgt g) = .ok () ∧ j.th.wvalid ≤ 200)
      (fun j => (j.pushFrame j.following).jump (j.tgt g)) ∧
    TrapsTh (.call g) [0x1F] [] (fun j => j.checkTarget (j.tgt g) = .ok () ∧ 200 < j.th.wvalid) 0x20
      (fun j => BitVec.ofNat 64 j.th.wvalid) ∧
    DoesTh (.calli a) [0x1F] [a.spec] (fun j => j.checkTarget (j.sreg a) = .ok () ∧ j.th.wvalid ≤ 200)
      (fun j => (j.pushFrame j.following).jump (j.sreg a)) ∧
    TrapsTh (.calli a) [0x1F] [a.spec] (fun j => j.checkTarget (j.sreg a) = .ok () ∧ 200 < j.th.wvalid) 0x20
      (fun j => BitVec.ofNat 64 j.th.wvalid) ∧
    DoesTh .ret [] [0x07] (fun j => j.checkTarget (j.sreg (.w 7)) = .ok () ∧ 24 ≤ j.th.wvalid)
      (fun j => ({ j with th := { j.th with wbase := j.th.wbase - 24, wvalid := j.th.wvalid - 24 } }).jump (j.sreg (.w 7))) ∧
    TrapsTh .ret [] [0x07] (fun j => j.checkTarget (j.sreg (.w 7)) = .ok () ∧ j.th.wvalid < 24) 0x21
      (fun j => BitVec.ofNat 64 j.th.wvalid)

/-- R147: what a call leaves: wbase and wvalid 24 higher, the return PC in w7, every g register, every vector register and memory as
before, w0 to w6 of the new window the caller's w24 to w30, and a register of the new window that still waits for a future as it was
(R29). -/
def Sys2Proof.Ob.CallWindow : Prop :=
  ∀ (s : State) (ra : Word),
    (s.pushFrame ra).th.wbase = s.th.wbase + 24 ∧ (s.pushFrame ra).th.wvalid = s.th.wvalid + 24 ∧
    ((s.pushFrame ra).th.regW 7).val = ra ∧ ((s.pushFrame ra).th.regW 7).fut = none ∧
    (∀ n : Fin 7, (s.pushFrame ra).th.regW ⟨n.val, by omega⟩ = s.th.regW ⟨24 + n.val, by omega⟩) ∧
    (∀ n : Fin 24, (s.th.w[stackIx (s.th.wbase + 24) (8 + n.val)]).fut ≠ none →
      (s.pushFrame ra).th.regW ⟨8 + n.val, by omega⟩ = s.th.w[stackIx (s.th.wbase + 24) (8 + n.val)]) ∧
    (s.pushFrame ra).th.g = s.th.g ∧ (s.pushFrame ra).th.v = s.th.v ∧ (s.pushFrame ra).mem = s.mem

/-- R149: tcall, once its target has passed its checks, moves w24 to w30 to w0 to w6, a pending one with its future, so that its source is
not pending and reads zero, leaves w7 and the window unchanged, and goes to its target. -/
def Sys2Proof.Ob.TailCall : Prop :=
  ∀ (g : Tgt) (s : State), Fresh s → s.th.eddy = none →
    (∀ e, s.checkTarget (s.tgt g) = .error e → exec (.tcall g) s = .next (s.stopped e)) ∧
    (s.checkTarget (s.tgt g) = .ok () →
      ∃ t : State, exec (.tcall g) s = .next (t.jump (s.tgt g)).retire ∧ t.th.wbase = s.th.wbase ∧ t.th.wvalid = s.th.wvalid ∧
        (t.th.regW 7).val = (s.th.regW 7).val ∧ (t.th.regW 7).fut = (s.th.regW 7).fut ∧
        ∀ n : Fin 7, (t.th.regW ⟨n.val, by omega⟩).val = (s.th.regW ⟨24 + n.val, by omega⟩).val ∧
          (t.th.regW ⟨n.val, by omega⟩).fut = (s.th.regW ⟨24 + n.val, by omega⟩).fut ∧
          ((s.th.regW ⟨24 + n.val, by omega⟩).fut ≠ none → t.th.regW ⟨24 + n.val, by omega⟩ = {}))

/-- Calls, returns and tail calls, and the windows they leave (R147 to R149). -/
def Obligations.CallsAndWindows : Prop := Ob.CallAndReturn ∧ Ob.CallWindow ∧ Ob.TailCall

namespace Sys2Proof.Ob

/-- The line of a loop's end can be read and is legal, and its slot is one (R155). -/
def EndOk (s : State) (pc : Word) (l : Line) : Prop := s.targetLine pc = .ok l ∧ l.malformed = false ∧ pcWild pc = false

/-- Following of a loop's end, in its line. -/
def pastEnd (pc : Word) (l : Line) : Word := nextPc pc (l.paired (pcSlot pc))

/-- The unit that has just run holds the end of the active loop n. -/
def EndsLoop (s : State) (n : Fin 2) : Prop :=
  s.th.lc[n] ≠ 0 ∧ (s.th.lend[n] = s.th.pc ∨ s.iss.pair = true ∧ s.th.lend[n] = nextPc s.th.pc false)

end Sys2Proof.Ob

/-- R155, R157, R161: loop sets its count, its begin at Following and its end at the target, and passes over the body on count 0; lbrk ends an
active loop past its end, and is a nop on an inactive one. Where either must read the line of the loop's end, each failure raises its trap
and changes nothing. Neither is an eddy's. -/
def Sys2Proof.Ob.HardwareLoops : Prop :=
  ∀ (n : Fin 2) (a : SReg) (g : Tgt),
    DoesTh (.loop n a g) [] [a.spec] (fun j => (j.sreg a).setWidth 32 ≠ (0 : W32))
      (fun j => j.setLoop n ((j.sreg a).setWidth 32) j.following (j.tgt g)) ∧
    (∀ l, DoesTh (.loop n a g) [] [a.spec] (fun j => (j.sreg a).setWidth 32 = (0 : W32) ∧ EndOk j (j.tgt g) l)
      (fun j => (j.setLoop n 0 j.following (j.tgt g)).jump (pastEnd (j.tgt g) l))) ∧
    (∀ s, Fresh s → s.th.eddy = none → s.th.lc[n] = 0 → exec (.lbrk n) s = .next s.retire) ∧
    (∀ s l, Fresh s → s.th.eddy = none → s.th.lc[n] ≠ 0 → EndOk s s.th.lend[n] l →
      exec (.lbrk n) s = .next (({ s with th := { s.th with lc := s.th.lc.set n 0 } }).jump (pastEnd s.th.lend[n] l)).retire) ∧
    (∀ s e, Ready [] [a.spec] s → s.th.eddy = none → let j := s.joined [a.spec]
      (j.sreg a).setWidth 32 = (0 : W32) → j.afterEnd (j.tgt g) = .error e → exec (.loop n a g) s = .next (s.stopped e)) ∧
    (∀ s e, Fresh s → s.th.eddy = none → s.th.lc[n] ≠ 0 → s.afterEnd s.th.lend[n] = .error e →
      exec (.lbrk n) s = .next (s.stopped e)) ∧
    NotInEddy (.loop n a g) [(false, a.spec)] 0x2F ∧ NotInEddy (.lbrk n) [] 0x30 ∧
    ∀ (s : State) (pc : Word), pc.toNat < 2 ^ 56 →
      (s.lineAt pc = none → s.afterEnd pc = trapW 1 pc) ∧
      (∀ pa, s.lineAt pc = some pa → (lineOf s.mem pa).lwpOk = false → s.afterEnd pc = trapW 0x11 pc) ∧
      (∀ pa, s.lineAt pc = some pa → let l := lineOf s.mem pa
        l.lwpOk = true → (l.malformed = true → s.afterEnd pc = trapW 0x10 (l.word.setWidth 64)) ∧
          (l.malformed = false → pcWild pc = true → s.afterEnd pc = trapW 0x12 pc) ∧
          (l.malformed = false → pcWild pc = false → EndOk s pc l ∧ s.afterEnd pc = .ok (pastEnd pc l)))

/-- R156: a unit that retires without a taken transfer and holds the end of an active loop counts it, loop 1 first, and goes back to that
loop's begin while its count is not 0; else it goes to Following of the unit. A taken transfer leaves the counts. Nothing else of the loop
state changes. The step trap stands in TrapsAndReturns. -/
def Sys2Proof.Ob.LoopTest : Prop :=
  ∀ (s : State), s.th.exited = false → (s.th.tstep = false ∨ s.th.handler = true ∨ s.th.eddy ≠ none) →
    (∀ p, s.iss.target = some p → s.retire.th.pc = p ∧ s.retire.th.lc = s.th.lc) ∧
    (s.iss.target = none →
      (¬ EndsLoop s 1 → ¬ EndsLoop s 0 → s.retire.th.pc = s.following ∧ s.retire.th.lc = s.th.lc) ∧
      (EndsLoop s 1 → s.th.lc[1] ≠ 1 → s.retire.th.pc = s.th.lbeg[1] ∧ s.retire.th.lc = s.th.lc.set 1 (s.th.lc[1] - 1)) ∧
      (EndsLoop s 1 → s.th.lc[1] = 1 → ¬ EndsLoop s 0 → s.retire.th.pc = s.following ∧ s.retire.th.lc = s.th.lc.set 1 0) ∧
      (¬ EndsLoop s 1 → EndsLoop s 0 →
        s.retire.th.pc = (if s.th.lc[0] = 1 then s.following else s.th.lbeg[0]) ∧ s.retire.th.lc = s.th.lc.set 0 (s.th.lc[0] - 1)) ∧
      (EndsLoop s 1 → s.th.lc[1] = 1 → EndsLoop s 0 →
        s.retire.th.pc = (if s.th.lc[0] = 1 then s.following else s.th.lbeg[0]) ∧ s.retire.th.lc = #v[s.th.lc[0] - 1, 0])) ∧
    s.retire.th.lbeg = s.th.lbeg ∧ s.retire.th.lend = s.th.lend

/-- Hardware loops (R155 to R157). -/
def Obligations.Loops : Prop := Ob.HardwareLoops ∧ Ob.LoopTest

namespace Sys2Proof.Ob

/-- The state in which the entries of a wspill are stored, oldest at the lowest address, and their pages and slices marked. -/
def spillStored (j : State) (n : Nat) (ps : List Spot) : State :=
  let k : State := { j with th := j.th.joinOldest n }
  ((ps.zip (k.th.oldest n)).foldl (fun s x => s.storeWord x.1 x.2) k).noteWrite ((ps.filter fun p => !p.win).map (·.va))

/-- The n oldest entries of the stack are settled. -/
def OldestSettled (j : State) (n : Nat) : Prop := ∀ i < n, j.th.w[j.th.below 0 i].fut = none

end Sys2Proof.Ob

/-- R151 to R153, R161: wspill stores the n oldest resident entries from wsp upward; in the window at once, and it retires with wsp past
them and wvalid n less; elsewhere it waits, and changes wsp, wvalid and the stack once its stores are performed. wfill reads them back
below the oldest resident one, as joined and settled values. A pending entry is waited for. A count out of range is the window-count trap;
neither is an eddy's. The entries spilled read undefined (log 12). -/
def Obligations.SpillAndFill : Prop :=
  ∀ (a : SReg),
    (∀ s ps, Ready [] [a.spec] s → s.th.eddy = none → (∀ m, s.th.wait ≠ some (.spill m)) →
      let j := s.joined [a.spec]
      let n := (j.sreg a).toNat
      0 < n → n ≤ j.th.wvalid → OldestSettled j n → j.words j.th.wsp true n = .ok ps →
      exec (.wspill a) s = .next (if ∀ p ∈ ps, p.win = true then ((spillStored j n ps).spilled n).retire
        else (spillStored j n ps).park (.spill n))) ∧
    (∀ s n, Fresh s → s.th.wait = some (.spill n) → s.storing s.th.key = false → exec (.wspill a) s = .next (s.spilled n).retire) ∧
    (∀ s n, Fresh s → s.th.wait = some (.spill n) → s.storing s.th.key = true → exec (.wspill a) s = .next (s.stopped .block)) ∧
    (∀ (s : State) (n : Nat), (s.spilled n).th.wsp = s.th.wsp + BitVec.ofNat 64 (8 * n) ∧ (s.spilled n).th.wvalid = s.th.wvalid - n ∧
      (s.spilled n).th.wbase = s.th.wbase ∧ (s.spilled n).th.g = s.th.g ∧ (s.spilled n).mem = s.mem ∧ (s.spilled n).reqs = s.reqs ∧
      ∀ e : Fin 256, (∀ i < n, e ≠ s.th.below 0 i) → (s.spilled n).th.w[e] = s.th.w[e]) ∧
    (∀ s, Ready [] [a.spec] s → s.th.eddy = none → (∀ m, s.th.wait ≠ some (.spill m)) → let j := s.joined [a.spec]
      let n := (j.sreg a).toNat
      (n = 0 ∨ j.th.wvalid < n → exec (.wspill a) s = .next (s.stopped (.trap 0x22 (j.sreg a)))) ∧
      (0 < n → n ≤ j.th.wvalid → ¬ OldestSettled j n → exec (.wspill a) s = .next (s.stopped .block)) ∧
      (∀ e, 0 < n → n ≤ j.th.wvalid → OldestSettled j n → j.words j.th.wsp true n = .error e →
        exec (.wspill a) s = .next (s.stopped e))) ∧
    (∀ s ps, Ready [] [a.spec] s → s.th.eddy = none →
      let j := s.joined [a.spec]
      let n := (j.sreg a).toNat
      let lo := j.th.wsp - BitVec.ofNat 64 (8 * n)
      0 < n → n ≤ 224 - j.th.wvalid → j.words lo false n = .ok ps →
      ∃ t : State, exec (.wfill a) s = .next t.retire ∧ t.th.wsp = lo ∧ t.th.wvalid = j.th.wvalid + n ∧ t.th.wbase = j.th.wbase ∧
        (∀ i < n, t.th.w[j.th.below n i] = { val := leWord (j.readAt (ps.getD i ⟨false, 0, 0, 0, 0⟩) 8) }) ∧
        ∀ e : Fin 256, (∀ i < n, e ≠ j.th.below n i) → t.th.w[e] = j.th.w[e]) ∧
    TrapsTh (.wfill a) [] [a.spec] (fun j => (j.sreg a).toNat = 0 ∨ 224 - j.th.wvalid < (j.sreg a).toNat) 0x22 (fun j => j.sreg a) ∧
    (∀ s e, Ready [] [a.spec] s → s.th.eddy = none → let j := s.joined [a.spec]
      let n := (j.sreg a).toNat
      0 < n → n ≤ 224 - j.th.wvalid → j.words (j.th.wsp - BitVec.ofNat 64 (8 * n)) false n = .error e →
      exec (.wfill a) s = .next (s.stopped e)) ∧
    NotInEddy (.wspill a) [(false, a.spec)] 0x31 ∧ NotInEddy (.wfill a) [(false, a.spec)] 0x32

/-- R159, R160, R257: exit ends its thread, once what mcommit has released has its cells, and no eddy may exit; a gang's leader first ends its
gang; nop retires with nothing else; yield makes its thread pass over its next slot. -/
def Sys2Proof.Ob.EndAndPause : Prop :=
  ∀ (s : State), Fresh s →
    (s.th.eddy = none → (∀ m ∈ s.th.held, m.held = true) → (∀ ms tag n k, s.th.gang ≠ .leader ms tag n k) →
      exec .exit s = .next { s with th := { s.th with exited := true } }) ∧
    (∀ u, s.th.eddy = none → (∀ m ∈ s.th.held, m.held = true) → s.detach = .ok u →
      exec .exit s = .next { u with th := { u.th with exited := true } }) ∧
    (s.th.eddy = none → (∃ m ∈ s.th.held, m.held = false) → exec .exit s = .next (s.stopped .block)) ∧
    (s.th.eddy ≠ none → exec .exit s = .next (s.stopped (.trap 0x23 0x33))) ∧
    exec .nop s = .next s.retire ∧
    exec .yield s = .next ({ s with th := { s.th with declined := true } }).retire

/-- Branches (R146), exit, nop and yield (R159, R160). -/
def Obligations.ControlTransfers : Prop := Ob.Branches ∧ Ob.EndAndPause

/-! ### Vector instructions -/

/-- R172: lane-wise addition, subtraction, product, the fused forms on the old lanes of d, and extremes: integer lanes exact and fitted,
floating lanes exact and rounded once. -/
def Sys2Proof.Ob.VectorArithmetic : Prop :=
  ∀ (t : Ty) (rnd : Rnd) (sat : Bool) (d : VDst) (v : Fin 64) (a : VSrc) (b : BSrc) (m : Mask),
    Lanes2 (.vadd t rnd sat d a b m) 0 t rnd sat d a b m
      (fun x y _ => if t.isInt then fitInt t sat (intOf t x + intOf t y) else fBin t rnd sat (Val.add rnd) x y) ∧
    Lanes2 (.vsub t rnd sat d a b m) 0 t rnd sat d a b m
      (fun x y _ => if t.isInt then fitInt t sat (intOf t x - intOf t y) else fBin t rnd sat (fun p q => Val.add rnd p q.neg) x y) ∧
    Lanes2 (.vmul t rnd sat d a b m) 0 t rnd sat d a b m
      (fun x y _ => if t.isInt then fitInt t sat (intOf t x * intOf t y) else fBin t rnd sat Val.mul x y) ∧
    Lanes2 (.vfma t rnd sat v a b m) 0 t rnd sat (.v v) a b m
      (fun x y z => if t.isInt then fitInt t sat (intOf t x * intOf t y + intOf t z) else fFma t rnd sat false x y z) ∧
    Lanes2 (.vfms t rnd sat v a b m) 0 t rnd sat (.v v) a b m
      (fun x y z => if t.isInt then fitInt t sat (intOf t x * intOf t y - intOf t z) else fFma t rnd sat true x y z) ∧
    Lanes2 (.vmin t d a b m) 0 t .rne false d a b m
      (fun x y _ => if t.isInt then fitInt t false (min (intOf t x) (intOf t y)) else fMinMax t false x y) ∧
    Lanes2 (.vmax t d a b m) 0 t .rne false d a b m
      (fun x y _ => if t.isInt then fitInt t false (max (intOf t x) (intOf t y)) else fMinMax t true x y) ∧
    Lanes1 (.vabs t sat d a m) 0 t d a m (fun x => if t.isInt then fitInt t sat (intOf t x).natAbs else fSign t false x) ∧
    Lanes1 (.vneg t sat d a m) 0 t d a m (fun x => if t.isInt then fitInt t sat (-(intOf t x)) else fSign t true x)

/-- R172, R173, R196: the divided and approximated functions, rounded once, with their intervals out of issue. -/
def Sys2Proof.Ob.VectorFunctions : Prop :=
  ∀ (t : Ty) (rnd : Rnd) (sat : Bool) (d : VDst) (a : VSrc) (b : BSrc) (m : Mask),
    Lanes2 (.vdiv t rnd sat d a b m) 14 t rnd sat d a b m (fun x y _ => fBin t rnd sat Val.div x y) ∧
    Lanes1 (.vsqrt t rnd sat d a m) 14 t d a m (fUn t rnd sat Val.sqrt) ∧
    Lanes1 (.vrcp t rnd sat d a m) 9 t d a m (fUn t rnd sat Val.rcp) ∧
    Lanes1 (.vrsq t rnd sat d a m) 9 t d a m (fUn t rnd sat Val.rsq) ∧
    Lanes1 (.vexp2 t rnd sat d a m) 9 t d a m (fUn t rnd sat Val.exp2) ∧
    Lanes1 (.vlog2 t rnd sat d a m) 9 t d a m (fUn t rnd sat Val.log2)

/-- R172: lane-wise logic and shifts by each lane's own count, and the move. -/
def Sys2Proof.Ob.VectorBits : Prop :=
  ∀ (t : Ty) (sat : Bool) (d : VDst) (a : VSrc) (b : BSrc) (m : Mask),
    Lanes2 (.vand t d a b m) 0 t .rne false d a b m (fun x y _ => (x &&& y, 0)) ∧
    Lanes2 (.vor t d a b m) 0 t .rne false d a b m (fun x y _ => (x ||| y, 0)) ∧
    Lanes2 (.vxor t d a b m) 0 t .rne false d a b m (fun x y _ => (x ^^^ y, 0)) ∧
    Lanes2 (.vshl t sat d a b m) 0 t .rne false d a b m (fun x y _ => fitInt t sat (intOf t x * 2 ^ min (laneCount t y) t.width)) ∧
    Lanes2 (.vshr t d a b m) 0 t .rne false d a b m (fun x y _ => (if laneCount t y < t.width then x / 2 ^ laneCount t y else 0, 0)) ∧
    Lanes2 (.vsar t d a b m) 0 t .rne false d a b m (fun x y _ => (sarInt t x (laneCount t y), 0)) ∧
    Lanes1 (.vmov t d a m) 0 t d a m (fun x => (x, 0))

/-- Lane-wise arithmetic, functions and logic (R168 to R173, R196). -/
def Obligations.VectorLanes : Prop := Ob.VectorArithmetic ∧ Ob.VectorFunctions ∧ Ob.VectorBits

/-- R174, R175: a compare writes its mask register, each element's bits alike, 0 where inactive; vsel chooses lane by lane under its mask;
vshuf takes the lane its index names, modulo the lanes; vbcast fills; vlane reads one lane, and writes one lane of a register (to a port it
appends that lane among zeros, log 28). -/
def Obligations.VectorMoves : Prop :=
  ∀ (k : Cond) (t : Ty) (d : VDst) (n : Fin 8) (e : SDst) (a b : VSrc) (c : BSrc) (x y : SSrc) (m : Mask),
    Gives (.vcmp k t n a c m) [specOf 0xB0 n] (a.spec :: c.spec :: maskOps m) 0 (fun j => do
      let p ← j.vsrc [] t t.lanes (active j.src m t.width) a
      let q ← State.bsrc p.1 p.2.1 t .rne false t.lanes (active j.src m t.width) c
      let r := (p.2.2.zip q.2.2).zipIdx.map fun z => if active j.src m t.width z.2 then
        (condHolds k t z.1.1 z.1.2, if t.isInt then 0 else condFl t z.1.1 z.1.2) else (false, 0)
      .ok ((q.1.flag (r.foldl (fun f z => f ||| z.2) 0)).setM n (maskOf' t.width (r.map (·.1))))) ∧
    Gives (.vsel t d a c n) [d.spec] [a.spec, c.spec, specOf 0xB0 n] 0 (fun j => do
      let p ← j.vsrc [] t t.lanes (fun _ => true) a
      let q ← State.bsrcQuiet p.1 p.2.1 t t.lanes (fun _ => true) c
      q.1.vdst t ((p.2.2.zip q.2.2).zipIdx.map fun z => if active j.src (some n) t.width z.2 then z.1.1 else z.1.2) d) ∧
    Gives (.vshuf t d a b m) [d.spec] (a.spec :: b.spec :: maskOps m) 0 (fun j => do
      let p ← j.vsrc [] t t.lanes (active j.src m t.width) a
      let q ← State.vsrc p.1 p.2.1 t t.lanes (active j.src m t.width) b
      q.1.vdst t (merged j t m d (q.2.2.map fun i => (p.2.2.getD (i % t.lanes) 0, 0))).1 d) ∧
    Gives (.vbcast t d c m) [d.spec] (c.spec :: maskOps m) 0 (fun j => do
      let p ← j.bsrc [] t .rne false t.lanes (active j.src m t.width) c
      p.1.vdst t (merged j t m d (p.2.2.map fun i => (i, 0))).1 d) ∧
    Gives (.vlaneGet t e a x) [e.spec] [a.spec, x.spec] 0 (fun j => do
      let p ← j.vsrc [] t t.lanes (fun _ => true) a
      .ok (p.1.put e (codeWord t (p.2.2.getD ((j.n64 x).toNat % t.lanes) 0)))) ∧
    Gives (.vlanePut t d x y) [d.spec] [x.spec, y.spec] 0 (fun j =>
      j.vdst t ((j.prior t.width t.lanes d).set ((j.n64 y).toNat % t.lanes) (j.pat t .rne false x).1) d)

/-- R127, R176: reductions over the tree of R127, an old value combined last; a dot product adds exact products and rounds each node
once. -/
def Obligations.Reductions : Prop :=
  ∀ (acc : Bool) (t : Ty) (rnd : Rnd) (sat : Bool) (d : RDst) (a b : VSrc) (m : Mask),
    Folds (.vsum acc t rnd sat d a m) acc t d a m (if t.isInt then 0 else signBit t true)
      (fun x y => if t.isInt then fitInt t sat (intOf t x + intOf t y) else fBin t rnd sat (Val.add rnd) x y) ∧
    Folds (.vrmax acc t rnd sat d a m) acc t d a m (extremeIdent t true rnd)
      (fun x y => if t.isInt then fitInt t false (max (intOf t x) (intOf t y)) else fMinMax t true x y) ∧
    Folds (.vrmin acc t rnd sat d a m) acc t d a m (extremeIdent t false rnd)
      (fun x y => if t.isInt then fitInt t false (min (intOf t x) (intOf t y)) else fMinMax t false x y) ∧
    Gives (.vdot acc t rnd sat d a b m) [d.spec] (a.spec :: b.spec :: maskOps m) 3 (fun j => do
      let x ← j.vsrc [] t t.lanes (active j.src m t.width) a
      let y ← State.vsrc x.1 x.2.1 t t.lanes (active j.src m t.width) b
      let ls := (x.2.2.zip y.2.2).zipIdx
      let r : Nat × Fl := if t.isInt then
          let r := reduceAll (dotInt t sat) (0, 0)
            (ls.map fun z => (if active j.src m t.width z.2 then intOf t z.1.1 * intOf t z.1.2 else 0, (0 : Fl)))
            (if acc then some (intOf t (j.priorCode t d), 0) else none)
          ((fitInt t sat r.1).1, (fitInt t sat r.1).2 ||| r.2)
        else
          let r := reduceAll (dotFlt t rnd sat) (.zero true, 0)
            (ls.map fun z => if active j.src m t.width z.2 then dotLeaf t z.1.1 z.1.2 else (.zero true, 0))
            (if acc then some (valueOf t (j.priorCode t d), snanFl t (j.priorCode t d)) else none)
          ((roundF t rnd sat r.1).1, (roundF t rnd sat r.1).2 ||| r.2)
      (y.1.flag r.2).rdst t r.1 d)

/-- R177 to R179, R196: packing and unpacking of six-bit planes; lane conversion, to a register, to a port or to none; and the quantiser, which
writes 24 codes, its scale byte in c, and holds its thread for 6 clk. -/
def Obligations.PlanesAndQuantiser : Prop :=
  ∀ (lo : Fin 2) (hi : Fin 4) (part : Fin 6) (cp : Fin 16) (pos : Fin 8) (t u : Ty) (rnd : Rnd) (sat : Bool) (d : VDst) (v : Fin 64)
    (a b : VSrc) (x : SSrc) (c : FReg),
    Gives (.vpack lo hi d a b) [d.spec] [a.spec, b.spec] 0 (fun j => do
      let p ← j.vsrc [] .n8 96 (fun _ => true) a
      let q ← State.vsrc p.1 p.2.1 .n8 96 (fun _ => true) b
      q.1.vdst .n8 ((List.range 96).map fun i =>
        (lanesOf 2 (ofLanes 8 q.2.2)).getD (96 * hi.val + i) 0 * 16 + (lanesOf 4 (ofLanes 8 p.2.2)).getD (96 * lo.val + i) 0) d) ∧
    Gives (.vunpk part v a) [specOf 0x40 v] [a.spec] 0 (fun j => do
      let p ← j.vsrc [] .n8 96 (fun _ => true) a
      .ok (p.1.setV v (if part.val < 2 then ofLanes 4 (setLanes (lanesOf 4 j.src.v[v]) (96 * part.val) (p.2.2.map (· % 16)))
        else ofLanes 2 (setLanes (lanesOf 2 j.src.v[v]) (96 * (part.val - 2)) (p.2.2.map (· / 16 % 4)))))) ∧
    Gives (.vcvt cp t u rnd sat d a) [d.spec] [a.spec] 0 (fun j => do
      let k := min (cvtLanes t) (cvtLanes u)
      let p ← j.vsrc [] u (cvtLanes u) (fun _ => true) a
      let r := ((p.2.2.drop (if cvtLanes t < cvtLanes u then cp.val * k else 0)).take k).map fun z => convCode t rnd sat u (z % 2 ^ u.width)
      let w := p.1.flag (orFl r)
      match d with
      | .zero => .ok w
      | .q q => w.append q t (r.map (·.1))
      | .v n => .ok (w.setV n (ofLanes (laneBits t) (setLanes (lanesOf (laneBits t) j.src.v[n])
          (if cvtLanes t < cvtLanes u then 0 else cp.val * k) (r.map (·.1)))))) ∧
    Gives (.vquant pos t rnd v a x c) [specOf 0x40 v, c.spec] [a.spec, x.spec] 6 (fun j => do
      let p ← j.vsrc [] .f 24 (fun _ => true) a
      let sb := (j.n64 x).toNat % 2 ^ 32
      let q := quantBlock t (p.2.2.map (valueOf .f)) (valueOf .f sb) rnd
      let w := (p.1.flag (q.2.2 ||| p.2.2.foldl (fun f y => f ||| snanFl .f y) (snanFl .f sb))).setV v
        (ofLanes (laneBits t) (setLanes (lanesOf (laneBits t) j.src.v[v]) (24 * pos.val) q.2.1))
      .ok (w.put (fDst c) ((j.sreg (fSrc c) &&& ~~~(0xFF#64 <<< (8 * pos.val))) ||| (BitVec.ofNat 64 (q.1 % 256) <<< (8 * pos.val)))))

/-! ### Memory -/

/-- R165, R166, R180, R181: a load reads the element its address and index name, converts it by its page, writes it to d with its flags,
and marks what it read; a vector load and a gather do so for each active lane, and keep the prior value of the others. A check that fails
stops them as it says. -/
def Obligations.Loads : Prop :=
  ∀ (t : Ty) (rnd : Rnd) (sat : Bool) (sc : Scope) (o : Ord) (d : SDst) (v : VDst) (m : MAddr) (x : Option SReg) (b : VSrc) (k : Mask),
    Gives (.ld t rnd sat sc o d m x) [d.spec] (m.base.spec :: idxOps x) 0 (fun j => do
      let e ← j.elem t (j.sreg m.base + m.disp.signExtend 64) (j.index x) false
      j.elemReady false e
      .ok (((j.noteReads [(0, e)]).put d (codeWord t (j.loadElem t rnd sat e).1)).flag (j.loadElem t rnd sat e).2)) ∧
    Gives (.vld t rnd sat sc o v m x k) [v.spec] (m.base.spec :: idxOps x ++ maskOps k) 0 (fun j => do
      let es ← j.elems t (j.sreg m.base + m.disp.signExtend 64) false
        (((List.range t.lanes).filter fun i => active j.src k t.width i).map fun i => (i, j.index x + i))
      j.gather t rnd sat v es) ∧
    Gives (.vgath t rnd sat sc o v m b k) [v.spec] (m.base.spec :: b.spec :: maskOps k) 0 (fun j => do
      let y ← j.vsrc [] t t.lanes (fun i => active j.src k t.width i) b
      let es ← y.1.elems t (j.sreg m.base + m.disp.signExtend 64) false
        (((List.range t.lanes).filter fun i => active j.src k t.width i).map fun i => (i, signedLane t.width (y.2.2.getD i 0)))
      y.1.gather t rnd sat v es) ∧
    ∀ (s : State) (es : List (Nat × Elem)), s.gather t rnd sat v es =
      let vals := es.map fun x => (x.1, s.loadElem t rnd sat x.2)
      ((s.noteReads es).flag (orFl (vals.map (·.2)))).vdst t (vals.foldl (fun l x => l.set x.1 x.2.1) (s.prior t.width t.lanes v)) v

/-- R165, R167, R180, R182, R183, R196: a store writes the element its address and index name as its page says; a vector store does so for
every lane, a scatter for each active one; vqst quantises a block to its page and holds its thread for 6 clk. -/
def Obligations.Stores : Prop :=
  ∀ (t : Ty) (rnd : Rnd) (sat : Bool) (sc : Scope) (o : Ord) (m : MAddr) (x : Option SReg) (a : SReg) (b c : VSrc) (k : Mask),
    Gives (.st t rnd sat sc o m x a) [] (m.base.spec :: idxOps x ++ [a.spec]) 0 (fun j => do
      let e ← j.elem t (j.sreg m.base + m.disp.signExtend 64) (j.index x) true
      j.elemReady true e
      j.storeElems t rnd sat sc (o == .rel || o == .ar) none [(e, (j.sreg a).toNat % 2 ^ t.width)]) ∧
    Gives (.vst t rnd sat sc o m x c) [] (m.base.spec :: idxOps x ++ [c.spec]) 0 (fun j => do
      let y ← j.vsrc [] t t.lanes (fun _ => true) c
      let es ← y.1.elems t (j.sreg m.base + m.disp.signExtend 64) true
        (((List.range t.lanes).filter fun _ => true).map fun i => (i, j.index x + i))
      y.1.storeElems t rnd sat sc (o == .rel || o == .ar) none (es.map fun z => (z.2, y.2.2.getD z.1 0))) ∧
    Gives (.vscat t rnd sat sc o k m b c) [] (maskOps k ++ [m.base.spec, b.spec, c.spec]) 0 (fun j => do
      let y ← j.vsrc [] t t.lanes (fun i => active j.src k t.width i) b
      let z ← State.vsrc y.1 y.2.1 t t.lanes (fun i => active j.src k t.width i) c
      let es ← z.1.elems t (j.sreg m.base + m.disp.signExtend 64) true
        (((List.range t.lanes).filter fun i => active j.src k t.width i).map fun i => (i, signedLane t.width (y.2.2.getD i 0)))
      z.1.storeElems t rnd sat sc (o == .rel || o == .ar) none (es.map fun w => (w.2, z.2.2.getD w.1 0))) ∧
    Gives (.vqst rnd sc o m b a) [] [m.base.spec, b.spec, a.spec] 6 (fun j => do
      let y ← j.vsrc [] .f 24 (fun _ => true) b
      let r ← y.1.blockAt (j.sreg m.base + m.disp.signExtend 64) y.2.2 ((j.sreg a).toNat % 2 ^ 32) rnd
      y.1.scoreAll (r.1.map fun z => (z.1.va, 1))
      .ok (((y.1.store false (r.1.map fun z => (z.1.pa, z.2, 0xFF)) (o == .rel || o == .ar) sc none).noteWrite
        (r.1.map fun z => z.1.va)).flag r.2))

/-- R187, R189, R190: binding, freeing and moving a stream port, its status words, and the wait for its appends; each trap of Table 5-7 that
these instructions can raise, the address trap, and what they wait for. -/
def Sys2Proof.Ob.StreamPorts : Prop :=
  ∀ (wr : Bool) (t : Ty) (rnd : Rnd) (sat : Bool) (sc : Scope) (o : Ord) (q : Fin 8) (a b c : SSrc) (d : SDst),
    let shape (j : State) : Prop := 0 < (j.n64 b).toNat ∧ (j.n64 b).toNat < 2 ^ 32 ∧ ((j.n64 c).extractLsb' 0 32).toNat ≠ 0
    let bind_ := Instr.sbind wr t rnd sat sc q a b c
    DoesIf bind_ [specOf 0x80 q] [a.spec, b.spec, c.spec] (fun j => shape j ∧ (j.n64 a).toNat < 2 ^ 56 ∧ j.appending q = false)
      (fun j => j.setPort q (some ⟨wr, t, rnd, sat, sc, j.n64 a, (j.n64 b).toNat, ((j.n64 c).extractLsb' 0 32).toNat,
        ((j.n64 c).extractLsb' 32 32).toInt, 0, 0⟩)) ∧
    TrapsIf bind_ [specOf 0x80 q] [a.spec, b.spec, c.spec] (fun j => ¬ shape j) 0x30 (fun _ => BitVec.ofNat 64 (q.val + 0x500)) ∧
    TrapsIf bind_ [specOf 0x80 q] [a.spec, b.spec, c.spec] (fun j => shape j ∧ 2 ^ 56 ≤ (j.n64 a).toNat) 2 (fun j => j.n64 a) ∧
    StopsIf bind_ [specOf 0x80 q] [a.spec, b.spec, c.spec]
      (fun j e => shape j ∧ (j.n64 a).toNat < 2 ^ 56 ∧ j.appending q = true ∧ e = .block) ∧
    DoesIf (.sfree q) [] [specOf 0x80 q] (fun j => j.appending q = false) (fun j => j.setPort q none) ∧
    StopsIf (.sfree q) [] [specOf 0x80 q] (fun j e => j.appending q = true ∧ e = .block) ∧
    (∀ p : Port, let within (j : State) : Prop :=
        (j.n64 c).toNat < p.n0 ∧ ((j.n64 b).toNat < p.n1 ∨ (j.n64 b).toNat = p.n1 ∧ (j.n64 c).toNat = 0)
      DoesIf (.sseek q b c) [] [specOf 0x80 q, b.spec, c.spec] (fun j => j.th.q[q] = some p ∧ within j)
        (fun j => j.setPort q (some { p with row := (j.n64 b).toNat, elem := (j.n64 c).toNat })) ∧
      TrapsIf (.sseek q b c) [] [specOf 0x80 q, b.spec, c.spec] (fun j => j.th.q[q] = some p ∧ ¬ within j) 0x30
        (fun _ => BitVec.ofNat 64 (q.val + 0x600))) ∧
    TrapsIf (.sseek q b c) [] [specOf 0x80 q, b.spec, c.spec] (fun j => j.th.q[q] = none) 0x30 (fun _ => BitVec.ofNat 64 (q.val + 0x100)) ∧
    Does (.sstatPos d q) [d.spec] [specOf 0x80 q] (fun j => j.put d (match j.th.q[q] with
      | some p => BitVec.ofNat 64 (p.row * 2 ^ 32 + p.elem)
      | none => BitVec.allOnes 64)) ∧
    Does (.sstatCfg d q) [d.spec] [specOf 0x80 q] (fun j => j.put d (match j.th.q[q] with
      | some p => BitVec.ofNat 64 (2 ^ 63 + (if p.wr then 2 ^ 62 else 0) + p.t.code.toNat * 2 ^ 32 + p.n0)
      | none => 0)) ∧
    Does (.sstatBase d q) [d.spec] [specOf 0x80 q] (fun j => j.put d (match j.th.q[q] with | some p => p.base | none => 0)) ∧
    (let waits (j : State) : Prop := j.appending q = true ∨ (o = .rel ∨ o = .ar) ∧ j.reqs.any j.owns = true
     DoesIf (.sflush sc o q) [] [specOf 0x80 q] (fun j => j.th.q[q] ≠ none ∧ ¬ waits j) (fun j => j) ∧
     StopsIf (.sflush sc o q) [] [specOf 0x80 q] (fun j e => j.th.q[q] ≠ none ∧ waits j ∧ e = .block)) ∧
    TrapsIf (.sflush sc o q) [] [specOf 0x80 q] (fun j => j.th.q[q] = none) 0x30 (fun _ => BitVec.ofNat 64 (q.val + 0x100))

/-- R192, R193: the tag table, which only the engine holder may use: a lookup, a setting that evicts the entry and the tag it names, and the
invalidations; an entry or a line out of range is the tag trap with it, an address of 2⁵⁶ or more the address trap. -/
def Sys2Proof.Ob.TagTable : Prop :=
  ∀ (d : SDst) (a b c : SSrc),
    let entry (j : State) : Prop := (j.n64 a).toNat < 512
    let addr (j : State) (x : SSrc) : Prop := (j.n64 x).toNat < 2 ^ 56
    DoesIf (.tlook d a) [d.spec] [a.spec] (fun j => j.holds = true ∧ addr j a) (fun j => j.put d
      (match j.core.tags.find? fun e => e.tag = (j.n64 a).toNat / 512 with
        | some e => BitVec.ofNat 64 (e.entry * 65536 + e.line)
        | none => BitVec.allOnes 64)) ∧
    TrapsIf (.tlook d a) [d.spec] [a.spec] (fun j => j.holds = true ∧ ¬ addr j a) 2 (fun j => j.n64 a) ∧
    DoesIf (.tset a b c) [] [a.spec, b.spec, c.spec] (fun j => j.holds = true ∧ entry j ∧ addr j b ∧ (j.n64 c).toNat < j.bd.winSize / 512)
      (fun j => j.setTags ((j.core.tags.filter fun x => x.entry != (j.n64 a).toNat && x.tag != (j.n64 b).toNat / 512) ++
        [⟨(j.n64 a).toNat, (j.n64 b).toNat / 512, (j.n64 c).toNat⟩])) ∧
    TrapsIf (.tset a b c) [] [a.spec, b.spec, c.spec] (fun j => j.holds = true ∧ ¬ entry j) 0x33 (fun j => j.n64 a) ∧
    TrapsIf (.tset a b c) [] [a.spec, b.spec, c.spec] (fun j => j.holds = true ∧ entry j ∧ ¬ addr j b) 2 (fun j => j.n64 b) ∧
    TrapsIf (.tset a b c) [] [a.spec, b.spec, c.spec]
      (fun j => j.holds = true ∧ entry j ∧ addr j b ∧ j.bd.winSize / 512 ≤ (j.n64 c).toNat) 0x33 (fun j => j.n64 c) ∧
    DoesIf (.tinvEnt a) [] [a.spec] (fun j => j.holds = true ∧ entry j)
      (fun j => j.setTags (j.core.tags.filter fun x => x.entry != (j.n64 a).toNat)) ∧
    TrapsIf (.tinvEnt a) [] [a.spec] (fun j => j.holds = true ∧ ¬ entry j) 0x33 (fun j => j.n64 a) ∧
    DoesIf (.tinvTag a) [] [a.spec] (fun j => j.holds = true ∧ addr j a)
      (fun j => j.setTags (j.core.tags.filter fun x => x.tag != (j.n64 a).toNat / 512)) ∧
    TrapsIf (.tinvTag a) [] [a.spec] (fun j => j.holds = true ∧ ¬ addr j a) 2 (fun j => j.n64 a) ∧
    DoesIf .tinvAll [] [] (fun j => j.holds = true) (fun j => j.setTags []) ∧
    TrapsIf (.tlook d a) [d.spec] [a.spec] (fun j => j.holds = false) 0x33 (fun _ => 0) ∧
    TrapsIf (.tset a b c) [] [a.spec, b.spec, c.spec] (fun j => j.holds = false) 0x33 (fun _ => 0) ∧
    TrapsIf (.tinvEnt a) [] [a.spec] (fun j => j.holds = false) 0x33 (fun _ => 0) ∧
    TrapsIf (.tinvTag a) [] [a.spec] (fun j => j.holds = false) 0x33 (fun _ => 0) ∧
    TrapsIf .tinvAll [] [] (fun j => j.holds = false) 0x33 (fun _ => 0)

/-- Stream ports (R187 to R190) and the tag table (R192, R193). -/
def Obligations.PortsAndTags : Prop := Ob.StreamPorts ∧ Ob.TagTable

/-! ### The matrix engine -/

namespace Sys2Proof.Ob

/-- What R199 asks of the thread before a matrix instruction: its operands exist, it is no eddy, its context holds the engines; its sources
are settled. -/
def MatReady (ops : List (Bool × BitVec 8)) (ds ss : List (BitVec 8)) (s : State) : Prop :=
  Ready ds ss s ∧ s.present ops = .ok () ∧ s.th.eddy = none ∧ s.holds = true

/-- The state in which a matrix instruction has observed its operands: its scalar sources joined, the lent banks of its vector registers
awake (R61). -/
def matJoined (ops : List (Bool × BitVec 8)) (l : List (BitVec 8)) (s : State) : State := (s.joined l).wakeRegs (ops.map (·.2))

/-- The queue and the scoreboard have room for a command with n ranges (R200, R234). -/
def MatRoom (s : State) (n : Nat) : Prop :=
  (s.core.eng.queue.filter fun c => !c.begun && !c.ended).length < 2 ∧ s.th.rngs.length + n ≤ 16

/-- The state in which a matrix command has entered the queue: its ranges in the scoreboard, the thread's stores performed, its future in
d, and the engine's issue side changed by f. -/
def matForked (s : State) (op : MOp) (fl : Fl) (rng : List (Nat × Nat)) (d : FDst) (f : Engine → Engine) : State :=
  let r : State := { s with th := { s.th with rngs := s.th.rngs ++ rng.map fun x => extent s.nextTag x.1 x.2 } }
  let x := r.flush.fork d
  x.2.setEng { f x.2.core.eng with
    queue := (f x.2.core.eng).queue ++ [{ tag := x.1, thr := s.th.slot, op, exts := rng, flags := fl }] }

/-- A matrix instruction enters its command and retires; it waits where the queue or the scoreboard has no room. -/
def Enters (i : Instr) (d : FDst) (srcs ss : List (BitVec 8)) (c : State → Prop) (op : State → MOp) (fl : State → Fl)
    (rng : State → List (Nat × Nat)) (f : State → Engine → Engine) : Prop :=
  ∀ s, MatReady (opsD d srcs) [] ss s → let j := matJoined (opsD d srcs) ss s
    c j → (MatRoom j (rng j).length → exec i s = .next (matForked j (op j) (fl j) (rng j) d (f j)).retire) ∧
      (¬ MatRoom j (rng j).length → exec i s = .next (s.stopped .block))

/-- A matrix instruction that stops before any effect. -/
def MatStops (i : Instr) (ops : List (Bool × BitVec 8)) (ds ss : List (BitVec 8)) (c : State → Stop → Prop) : Prop :=
  ∀ s e, MatReady ops ds ss s → c (matJoined ops (ds ++ ss) s) e → exec i s = .next (s.stopped e)

/-- The matrix trap of Table 6-7. -/
def matStop (op reason : Nat) : Stop := .trap 0x40 (BitVec.ofNat 64 (256 * op + reason))

/-- The trap of a tile that is not valid. -/
def noTile (t : Fin 4) : Stop := .trap 0x41 (BitVec.ofNat 64 (0xA0 + t.val))

/-- A matrix instruction of an eddy is forbidden, and one of a context that does not hold the engines is reason 1 (R199). -/
def Gated (i : Instr) (op : Nat) (ops : List (Bool × BitVec 8)) : Prop :=
  NotInEddy i ops (BitVec.ofNat 64 op) ∧
  ∀ s, Fresh s → s.present ops = .ok () → s.th.eddy = none → s.holds = false → exec i s = .next (s.stopped (matStop op 1))

/-- A tile is valid. -/
def Valid (t : Fin 4) (s : State) : Prop := s.core.eng.acc[t].valid = true

/-- A transfer's target passes the checks of R70. -/
def Lands (s : State) (pc : Word) : Prop := s.checkTarget pc = .ok ()

/-- The vector registers that a register feed names, and the block it makes with the flags of its decoding (R215). -/
def feedOps : MmaSrc → List (BitVec 8)
  | .feed => []
  | .reg v => [specOf 0x40 v]
  | .regs v c => [specOf 0x40 v, specOf 0x40 c]
def feedBlock (j : State) (t : Ty) : MmaSrc → Option (Blk × Fl)
  | .feed => none
  | .reg v => some (regBlock t j.src.v[v] j.src.v[v + 1] none)
  | .regs v c => some (regBlock t j.src.v[v] j.src.v[v + 1] (some j.src.v[c]))

/-- A register feed names an even register, and one K-block of one row group (R216). -/
def feedOk (f : MmaF) : MmaSrc → Prop
  | .feed => True
  | .reg v | .regs v _ => v.val % 2 = 0 ∧ f.n1 = 0 ∧ f.ng1 = 0

/-- mma or mmas: the command, and the conditions of R216 in their order. -/
def Multiplies (i : Instr) (op : Nat) (fresh : Bool) (src : MmaSrc) (f : MmaF) (d : FDst) (t : Fin 4) : Prop :=
  let ops := opsD d (tSpec t :: feedOps src)
  let g (j : State) : Nat := rowsPerStep f.t ((j.core.eng.slabIssued[if f.both then 0 else f.slot]).getD f.t)
  let fits (j : State) : Prop := (f.rg.val + f.ng1.val) * g j < (j.core.eng.acc[t].rows + g j - 1) / g j * g j
  let wide (j : State) : Prop := (f.half || f.both) = true → j.core.eng.acc[t].wide = true
  Enters i d (tSpec t :: feedOps src) [] (fun j => Valid t j ∧ fits j ∧ feedOk f src ∧ wide j)
    (fun j => .mma fresh t j.core.eng.acc[t].rows j.core.eng.acc[t].wide f ((feedBlock j f.t src).map (·.1)))
    (fun j => ((feedBlock j f.t src).map (·.2)).getD 0) (fun _ => []) (fun _ e => e) ∧
  MatStops i ops [] [] (fun j e => ¬ Valid t j ∧ e = noTile t) ∧
  MatStops i ops [] [] (fun j e => Valid t j ∧ ¬ fits j ∧ e = matStop op 3) ∧
  MatStops i ops [] [] (fun j e => Valid t j ∧ fits j ∧ ¬ feedOk f src ∧ e = matStop op 4) ∧
  MatStops i ops [] [] (fun j e => Valid t j ∧ fits j ∧ feedOk f src ∧ ¬ wide j ∧ e = matStop op 5)

end Sys2Proof.Ob

open Sys2Proof.Ob

/-- R199, R200, R207, R210, R213: mrow, mgeom, mslab, skeep and mscale enter their commands, or wait for room; mrow reserves the extent of
the geometry last issued, mslab that of its own columns. None of them is an eddy's, and each asks that the context hold the engines. -/
def Obligations.MatrixOperands : Prop :=
  ∀ (rows : Fin 3) (n1 : Fin 8) (g1 cols1 : Fin 32) (unf : Bool) (attr : BitVec 11) (sl : Fin 2) (d : FDst) (a b c : SReg),
    Enters (.mrow rows n1 g1 d a b) d [a.spec, b.spec] [a.spec, b.spec] (fun _ => True)
      (fun j => .row (16 / 2 ^ rows.val) (j.sreg a).toNat (j.sreg b).toNat (n1.val + 1) (g1.val + 1)) (fun _ => 0)
      (fun j => match j.core.eng.geomIssued with | some g => [(winBase + g.extent.1, g.extent.2)] | none => []) (fun _ e => e) ∧
    Enters (.mgeom unf attr d a b c) d [a.spec, b.spec, c.spec] [a.spec, b.spec, c.spec] (fun _ => True)
      (fun j => .geom ⟨unf, attr, j.sreg a, j.sreg b, j.sreg c⟩) (fun _ => 0) (fun _ => [])
      (fun j e => if (⟨unf, attr, j.sreg a, j.sreg b, j.sreg c⟩ : Geom).ok then
        { e with geomIssued := some ⟨unf, attr, j.sreg a, j.sreg b, j.sreg c⟩ } else e) ∧
    Enters (.mslab attr sl cols1 d a b) d [a.spec, b.spec] [a.spec, b.spec] (fun _ => True)
      (fun j => .slab sl (cols1.val + 1) attr ((j.sreg a).toNat % 2 ^ 20) ((j.sreg b).toNat % 2 ^ 20)) (fun _ => 0)
      (fun j => [(winBase + (j.sreg a).toNat % 2 ^ 20, cols1.val * ((j.sreg b).toNat % 2 ^ 20) + attrBytes attr 192)])
      (fun _ e => { e with slabIssued := e.slabIssued.set sl (some (attrTy attr)) }) ∧
    Enters (.skeep d a b) d [a.spec, b.spec] [a.spec, b.spec] (fun _ => True)
      (fun j => .keep ((j.sreg a).setWidth 32) ((j.sreg b).setWidth 32)) (fun _ => 0) (fun _ => []) (fun _ e => e) ∧
    Enters (.mscale d a b) d [a.spec, b.spec] [a.spec, b.spec] (fun _ => True)
      (fun j => .scale ((j.sreg a).setWidth 32) ((j.sreg b).setWidth 32)) (fun _ => 0) (fun _ => []) (fun _ e => e) ∧
    Gated (.mrow rows n1 g1 d a b) 0x80 (opsD d [a.spec, b.spec]) ∧
    Gated (.mgeom unf attr d a b c) 0x81 (opsD d [a.spec, b.spec, c.spec]) ∧
    Gated (.mslab attr sl cols1 d a b) 0x82 (opsD d [a.spec, b.spec]) ∧
    Gated (.skeep d a b) 0x89 (opsD d [a.spec, b.spec]) ∧ Gated (.mscale d a b) 0x8A (opsD d [a.spec, b.spec])

/-- R199, R215, R216: mma and mmas, on the feed or on a register pair, with scale bytes or without, enter their command with the tile's shape
and the block of the registers, or wait for room; an invalid tile is trap 0x41, groups beyond the tile reason 3, a register feed of an
odd register or of more than one block reason 4, a half of a narrow tile reason 5, in this order. -/
def Obligations.MatrixStepCommands : Prop :=
  ∀ (src : MmaSrc) (f : MmaF) (d : FDst) (t : Fin 4),
    Multiplies (.mma src f d t) 0x83 false src f d t ∧ Multiplies (.mmas src f d t) 0x84 true src f d t ∧
    Gated (.mma src f d t) 0x83 (opsD d (tSpec t :: feedOps src)) ∧ Gated (.mmas src f d t) 0x84 (opsD d (tSpec t :: feedOps src))

/-- R217 to R221: mzero shapes its tile, invalidates every tile it overlaps, and enters the zeroing; mwrite, mquant and mmerge enter
their commands on valid tiles, mlink its role where it is no end of a lane it has not; each waits for room, and each condition that it
does not meet is its trap. -/
def Obligations.MatrixTiles : Prop :=
  ∀ (rows1 row : Fin 128) (wide : Bool) (grp : Fin 3) (ty : Ty) (rnd : Rnd) (sat : Bool) (sc : Scope) (sb : BitVec 8) (role : Role)
    (d : FDst) (t u : Fin 4) (v : Fin 64) (b c : SReg),
    let last := t.val + ((rows1.val + 1) * tileCols wide + 2047) / 2048
    let row_ (j : State) : Nat := (BitVec.ofNat 64 row.val + j.sreg c).toNat
    let inside (j : State) : Prop := row_ j < j.core.eng.acc[t].rows ∧ 24 * grp.val < j.core.eng.acc[t].cols
    let alike (j : State) : Prop := j.core.eng.acc[t].rows = j.core.eng.acc[u].rows ∧ j.core.eng.acc[t].wide = j.core.eng.acc[u].wide
    Enters (.mzero rows1 wide d t) d [tSpec t] [] (fun _ => last ≤ 4)
      (fun _ => .zero t (rows1.val + 1) wide) (fun _ => 0) (fun _ => []) (fun _ => Engine.shape t (rows1.val + 1) wide) ∧
    MatStops (.mzero rows1 wide d t) (opsD d [tSpec t]) [] [] (fun _ e => 4 < last ∧ e = matStop 0x85 2) ∧
    Enters (.mwrite row grp d t v c) d [tSpec t, specOf 0x40 v, c.spec] [c.spec] (fun j => Valid t j ∧ inside j)
      (fun j => .write t j.core.eng.acc[t].wide (row_ j) grp.val j.src.v[v]) (fun _ => 0) (fun _ => []) (fun _ e => e) ∧
    MatStops (.mwrite row grp d t v c) (opsD d [tSpec t, specOf 0x40 v, c.spec]) [] [c.spec]
      (fun j e => (¬ Valid t j ∧ e = noTile t) ∨ (Valid t j ∧ ¬ inside j ∧ e = matStop 0x87 3)) ∧
    Enters (.mquant ty rnd sat sc sb d t b c) d [tSpec t, b.spec, c.spec] [b.spec, c.spec]
      (fun j => Valid t j ∧ (j.sreg b).toNat < 2 ^ 56)
      (fun j => .quant t j.core.eng.acc[t].rows j.core.eng.acc[t].wide ty rnd sat sc sb.toInt (j.sreg b).toNat (j.sreg c).toNat)
      (fun _ => 0) (fun j => [j.quantRange j.core.eng.acc[t] ty (j.sreg b).toNat (j.sreg c).toNat]) (fun _ e => e) ∧
    MatStops (.mquant ty rnd sat sc sb d t b c) (opsD d [tSpec t, b.spec, c.spec]) [] [b.spec, c.spec]
      (fun j e => (¬ Valid t j ∧ e = noTile t) ∨ (Valid t j ∧ 2 ^ 56 ≤ (j.sreg b).toNat ∧ e = .trap 2 (j.sreg b))) ∧
    Enters (.mmerge d t u) d [tSpec t, tSpec u] [] (fun j => Valid t j ∧ Valid u j ∧ alike j)
      (fun _ => .merge t u) (fun _ => 0) (fun _ => []) (fun _ e => e) ∧
    MatStops (.mmerge d t u) (opsD d [tSpec t, tSpec u]) [] []
      (fun j e => (¬ Valid t j ∧ e = noTile t) ∨ (Valid t j ∧ ¬ Valid u j ∧ e = noTile u) ∨
        (Valid t j ∧ Valid u j ∧ ¬ alike j ∧ e = matStop 0x8B 5)) ∧
    Enters (.mlink role d) d [] [] (fun j => j.laneEnd role = false) (fun _ => .link role) (fun _ => 0) (fun _ => []) (fun _ e => e) ∧
    MatStops (.mlink role d) (opsD d []) [] [] (fun j e => j.laneEnd role = true ∧ e = matStop 0x8D 6) ∧
    Gated (.mzero rows1 wide d t) 0x85 (opsD d [tSpec t]) ∧
    Gated (.mwrite row grp d t v c) 0x87 (opsD d [tSpec t, specOf 0x40 v, c.spec]) ∧
    Gated (.mquant ty rnd sat sc sb d t b c) 0x88 (opsD d [tSpec t, b.spec, c.spec]) ∧
    Gated (.mmerge d t u) 0x8B (opsD d [tSpec t, tSpec u]) ∧ Gated (.mlink role d) 0x8D (opsD d [])

namespace Sys2Proof.Ob

/-- mread or mtrans: lanes of a valid tile, for a row or column r of lim and the group from the element base on, of other. -/
def Reads (i : Instr) (op : Nat) (d : Fin 64) (t : Fin 4) (b : SReg) (first base : Nat) (trans : Bool) : Prop :=
  let ops := [(true, specOf 0x40 d), (false, tSpec t), (false, b.spec)]
  let r (j : State) : Nat := (BitVec.ofNat 64 first + j.sreg b).toNat
  let inside (j : State) : Prop := let x := j.core.eng.acc[t]
    if trans then r j < x.cols ∧ base < x.rows else r j < x.rows ∧ base < x.cols
  (∀ s, MatReady ops [] [b.spec] s → let j := matJoined ops [b.spec] s
    let x := j.core.eng.acc[t]
    Valid t j → inside j → j.core.eng.queue = [] →
    exec i s = .next ((j.setV d (ofLanes 32 ((List.range 24).map fun k =>
      if x.poison then 0x7FA00000
      else if trans then (if x.rows ≤ base + k then 0 else (x.data.getD ((base + k) * x.cols + r j) 0).toNat)
      else if x.cols ≤ base + k then 0 else (x.data.getD (r j * x.cols + (base + k)) 0).toNat))).hold 2).retire) ∧
  MatStops i ops [] [b.spec] (fun j e => (¬ Valid t j ∧ e = noTile t) ∨ (Valid t j ∧ ¬ inside j ∧ e = matStop op 3) ∨
    (Valid t j ∧ inside j ∧ j.core.eng.queue ≠ [] ∧ e = .block)) ∧
  Gated i op ops

end Sys2Proof.Ob

/-- R218, R222, R223: with the queue empty, mread writes 24 lanes of a row and mtrans 24 of a column, zero past the tile's end, the quiet NaN
0x7FA00000 for a poisoned tile, and holds its thread for 2 clk; each waits for the queue, and names what is wrong with the tile, or the
row or column. mstat writes the words of the engine and of a tile, as the completed commands have left them; mwait waits until the
thread has no matrix command in the queue, and then joins them all. -/
def Obligations.MatrixReads : Prop :=
  ∀ (row : Fin 128) (col : Fin 64) (grp : Fin 3) (grp6 : Fin 6) (d : Fin 64) (e : SDst) (t : Fin 4) (b : SReg),
    Reads (.mread row grp d t b) 0x86 d t b row.val (24 * grp.val) false ∧
    Reads (.mtrans col grp6 d t b) 0x8C d t b col.val (24 * grp6.val) true ∧
    (∀ s, MatReady [(true, e.spec)] [e.spec] [] s → let j := matJoined [(true, e.spec)] [e.spec] s
      exec (.mstatEng e) s = .next (j.put e j.core.eng.word).retire) ∧
    (∀ s, MatReady [(true, e.spec), (false, tSpec t)] [e.spec] [] s → let j := matJoined [(true, e.spec), (false, tSpec t)] [e.spec] s
      let x := j.core.eng.acc[t]
      exec (.mstatTile e t) s = .next (j.put e (BitVec.ofNat 64 (
        (if x.valid then 2 ^ 31 else 0) + (if j.core.eng.view.tpois[t] then 2 ^ 30 else 0) +
        if x.valid || x.rows != 0 then 2 ^ 8 * (quarters x.rows x.wide - 1) + (if x.wide then 2 ^ 7 else 0) + (x.rows - 1) else 0))).retire) ∧
    (∀ s, MatReady [] [] [] s → (∀ c ∈ s.core.eng.queue, c.thr ≠ s.th.slot) →
      exec .mwait s = .next ({ s with th := s.th.joinMat }).retire) ∧
    (∀ s, MatReady [] [] [] s → (∃ c ∈ s.core.eng.queue, c.thr = s.th.slot) → exec .mwait s = .next (s.stopped .wait)) ∧
    Gated (.mstatEng e) 0x8E [(true, e.spec)] ∧ Gated (.mstatTile e t) 0x8E [(true, e.spec), (false, tSpec t)] ∧ Gated .mwait 0x8F []

/-! ### Asynchronous operations -/

namespace Sys2Proof.Ob

/-- What R229 and R231 ask before an asynchronous command: its operands exist, it is no eddy, its sources are settled; its destination is
not waited for (R43). -/
def CmdReady (d : FDst) (ss : List (BitVec 8)) (s : State) : Prop :=
  Ready [] ss s ∧ s.present ((true, d.spec) :: ss.map fun a => (false, a)) = .ok () ∧ s.th.eddy = none

/-- An asynchronous command that stops before any effect. -/
def CmdStops (i : Instr) (d : FDst) (ss : List (BitVec 8)) (c : State → Stop → Prop) : Prop :=
  ∀ s e, CmdReady d ss s → c (s.joined ss) e → exec i s = .next (s.stopped e)

/-- The copy queue and the pool have room for a command (R233, R392, R408); the scoreboard has room for n ranges too (R234). -/
def CopyCell (s : State) : Prop := s.bd.copyWaiting < 2 ∧ s.poolGrant s.bd 0 = true
def CopyRoom (s : State) (n : Nat) : Prop := CopyCell s ∧ s.th.rngs.length + n ≤ 16

/-- The state in which a copy command has entered the queue, with its ranges and its future. -/
def copyForked (s : State) (op : CopyOp) (comb : Bool) (sc : Scope) (d : FDst) : State :=
  let r : State := { s with th := { s.th with rngs := s.th.rngs ++ op.extents.map fun x => extent s.nextTag x.1 x.2 } }
  let f := r.flush.fork d
  { f.2 with bd := { f.2.bd with copies := f.2.bd.copies ++ [{ tag := f.1, thr := s.th.slot, op, sc, comb }] } }

/-- An address below 2⁵⁶; the trap of the first address of a list that is not below it (R51). -/
def Addr (w : Word) : Prop := w.toNat < 2 ^ 56
def BadAddr (l : List Word) (e : Stop) : Prop := ∃ p w q, l = p ++ w :: q ∧ (∀ x ∈ p, Addr x) ∧ ¬ Addr w ∧ e = .trap 2 w

/-- A copy instruction whose addresses are below 2⁵⁶ and whose other conditions c hold enters its command, or waits for room; one of no bytes
completes at once with status ok (R229). It is no eddy's. -/
def Copies (i : Instr) (op : Nat) (d : FDst) (ss : List (BitVec 8)) (comb : Bool) (sc : Scope) (addrs : State → List Word)
    (c : State → Prop) (cop : State → CopyOp) : Prop :=
  (∀ s, CmdReady d ss s → let j := s.joined ss
    (∀ x ∈ addrs j, Addr x) → c j →
      ((cop j).size = 0 → exec i s = .next (j.doneNow d 0).retire) ∧
      (0 < (cop j).size → CopyRoom j (cop j).extents.length → exec i s = .next (copyForked j (cop j) comb sc d).retire) ∧
      (0 < (cop j).size → ¬ CopyRoom j (cop j).extents.length → exec i s = .next (s.stopped .block))) ∧
  CmdStops i d ss (fun j e => BadAddr (addrs j) e) ∧
  NotInEddy i ((true, d.spec) :: ss.map fun a => (false, a)) (BitVec.ofNat 64 op)

/-- The command trap: op and field. -/
def cmdStop (op field : Nat) : Stop := .trap 0x55 (BitVec.ofNat 64 (256 * op + field))

end Sys2Proof.Ob

open Sys2Proof.Ob

/-- R229, R231 to R234, R236: the copy commands enter the queue with their ranges and their future, or wait for room; one of no bytes
completes at once; an address at or above 2⁵⁶, a combined destination outside the window, and a count out of range are their traps. -/
def Sys2Proof.Ob.CopyCommands : Prop :=
  ∀ (comb out : Bool) (sc : Scope) (rb1 : BitVec 20) (rows1 n1 : BitVec 16) (e : Fin 10) (w : Fin 4) (d : FDst) (a b c : SReg),
    let inWin (j : State) : Prop := comb = true → isWin (j.sreg a).toNat = true
    Copies (.cpyMem comb sc d a b c) 0x90 d [a.spec, b.spec, c.spec] comb sc (fun j => [j.sreg a, j.sreg b])
      (fun j => inWin j ∧ (j.sreg c).toNat ≤ 2 ^ 40) (fun j => .mem (j.sreg a).toNat (j.sreg b).toNat (j.sreg c).toNat) ∧
    CmdStops (.cpyMem comb sc d a b c) d [a.spec, b.spec, c.spec]
      (fun j x => Addr (j.sreg a) ∧ Addr (j.sreg b) ∧ ((¬ inWin j ∧ x = cmdStop 0x90 1) ∨
        (inWin j ∧ 2 ^ 40 < (j.sreg c).toNat ∧ x = cmdStop 0x90 3))) ∧
    Copies (.cpy2d out comb sc rb1 rows1 d a b c) 0x91 d [a.spec, b.spec, c.spec] comb sc (fun j => [j.sreg a, j.sreg b]) inWin
      (fun j => if out then .out (j.sreg a).toNat (j.sreg b).toNat (j.sreg c).toInt (rb1.toNat + 1) (rows1.toNat + 1)
        else .into (j.sreg a).toNat (j.sreg b).toNat (j.sreg c).toInt (rb1.toNat + 1) (rows1.toNat + 1)) ∧
    CmdStops (.cpy2d out comb sc rb1 rows1 d a b c) d [a.spec, b.spec, c.spec]
      (fun j x => Addr (j.sreg a) ∧ Addr (j.sreg b) ∧ ¬ inWin j ∧ x = cmdStop 0x91 1) ∧
    Copies (.cpyg sc e n1 d a b c) 0x92 d [a.spec, b.spec, c.spec] false sc (fun j => [j.sreg a, j.sreg b, j.sreg c]) (fun _ => True)
      (fun j => .gath (j.sreg a).toNat (j.sreg b).toNat (j.sreg c).toNat e.val (n1.toNat + 1)) ∧
    Copies (.cpys sc e n1 d a b c) 0x93 d [a.spec, b.spec, c.spec] false sc (fun j => [j.sreg a, j.sreg b, j.sreg c]) (fun _ => True)
      (fun j => .scat (j.sreg a).toNat (j.sreg b).toNat (j.sreg c).toNat e.val (n1.toNat + 1)) ∧
    Copies (.cpyf sc w d a b c) 0x94 d [a.spec, b.spec, c.spec] false sc (fun j => [j.sreg a]) (fun j => (j.sreg c).toNat ≤ 2 ^ 37)
      (fun j => .fill (j.sreg a).toNat (j.sreg b) w.val (j.sreg c).toNat) ∧
    CmdStops (.cpyf sc w d a b c) d [a.spec, b.spec, c.spec]
      (fun j x => Addr (j.sreg a) ∧ 2 ^ 37 < (j.sreg c).toNat ∧ x = cmdStop 0x94 3)

namespace Sys2Proof.Ob

/-- The ring behind a handle of the thread in focus. -/
def ringAt (j : State) (k : Fin 16) : Option RingRef := j.ringOf j.th.core j.th.ctx j.th.slot k.val

/-- The ring trap: handle and reason. -/
def ringStop (k : Fin 16) (reason : Nat) : Stop := .trap 0x50 (BitVec.ofNat 64 (k.val + 256 * reason))

/-- A ring that has a peer view is used on the producer's side through the view, and on the consumer's by its owner (R244). -/
def RightParty (r : RingRef) (producer : Bool) : Prop := r.peer = none ∨ r.view = producer

/-- The use of a ring by n slots on one side is allowed; or its trap: no ring, the wrong party, a count out of range. -/
def Uses (j : State) (k : Fin 16) (producer : Bool) (n : Nat) (r : RingRef) : Prop :=
  ringAt j k = some r ∧ RightParty r producer ∧ 1 ≤ n ∧ n ≤ r.n
def Misuses (j : State) (k : Fin 16) (producer : Bool) (n : Nat) (e : Stop) : Prop :=
  (ringAt j k = none ∧ e = ringStop k 1) ∨
  ∃ r, ringAt j k = some r ∧ ((¬ RightParty r producer ∧ e = ringStop k 5) ∨
    (RightParty r producer ∧ (n = 0 ∨ r.n < n) ∧ e = ringStop k 3))

/-- What a ring instruction begins with (R240). -/
def RingReady (wr : Bool) (k : Fin 16) (ds ss : List (BitVec 8)) (s : State) : Prop :=
  Ready ds ss s ∧ s.present (ds.map (fun d => (true, d)) ++ [(wr, kSpec k)] ++ ss.map fun a => (false, a)) = .ok () ∧ s.th.eddy = none

/-- A ring instruction completes where a condition holds, and stops where another does. -/
def RingDoes (i : Instr) (wr : Bool) (k : Fin 16) (ds ss : List (BitVec 8)) (c : State → Prop) (f : State → State) : Prop :=
  ∀ s, RingReady wr k ds ss s → c (s.joined (ds ++ ss)) → exec i s = .next (f (s.joined (ds ++ ss))).retire
def RingStops (i : Instr) (wr : Bool) (k : Fin 16) (ds ss : List (BitVec 8)) (c : State → Stop → Prop) : Prop :=
  ∀ s e, RingReady wr k ds ss s → c (s.joined (ds ++ ss)) e → exec i s = .next (s.stopped e)

/-- Writes the handle's ring. -/
def setRingAt (j : State) (k : Fin 16) (r : Ring) : State := { j with th := j.th.setRing k.val r }

end Sys2Proof.Ob

/-- R236, R244, R247: cpy.ring enters its command on a ring of its thread, or through a peer's view, for 1 to a slot's bytes, or waits for
room; the traps of the ring and of the command. -/
def Sys2Proof.Ob.RingCopy : Prop :=
  ∀ (sc : Scope) (d : FDst) (k : Fin 16) (b c : SReg) (s : State),
    let ops := [(true, d.spec), (false, kSpec k), (false, b.spec), (false, c.spec)]
    let j := s.joined [b.spec, c.spec]
    let n := (j.sreg c).toNat
    NotInEddy (.cpyRing sc d k b c) ops 0x90 ∧
    (CmdReady d [b.spec, c.spec] s → s.present ops = .ok () →
      (∀ r, ringAt j k = some r → RightParty r true → Addr (j.sreg b) → 1 ≤ n → n ≤ 512 * r.lines →
        (CopyRoom j 0 → exec (.cpyRing sc d k b c) s = .next (copyForked j (.ring k.val (j.sreg b).toNat n) false sc d).retire) ∧
        (¬ CopyRoom j 0 → exec (.cpyRing sc d k b c) s = .next (s.stopped .block))) ∧
      (∀ e, ((ringAt j k = none ∧ e = ringStop k 1) ∨ ∃ r, ringAt j k = some r ∧
          ((¬ RightParty r true ∧ e = ringStop k 5) ∨ (RightParty r true ∧ ¬ Addr (j.sreg b) ∧ e = .trap 2 (j.sreg b)) ∨
            (RightParty r true ∧ Addr (j.sreg b) ∧ (n = 0 ∨ 512 * r.lines < n) ∧ e = cmdStop 0x90 3))) →
        exec (.cpyRing sc d k b c) s = .next (s.stopped e)))

/-- The copy commands at issue (R229 to R236, R244, R247). -/
def Obligations.CopyIssue : Prop := Ob.CopyCommands ∧ Ob.RingCopy

/-- R237, R238: fwait waits for a pending future and then writes the completion word; ftest tells whether a future is complete, and joins a
complete one; fpass moves a register with its future and clears the source, where its destination holds none; fany waits for a register
of its mask, and writes the number of the lowest complete one. None of them is an eddy's. -/
def Sys2Proof.Ob.FutureReads : Prop :=
  ∀ (d : SDst) (f : FDst) (p : Fin 8) (a : FReg) (m : SSrc),
    DoesTh (.fwait d a) [d.spec] [a.spec] (fun _ => True) (fun j => j.put d ((j.th.reg? a.spec).map (·.val) |>.getD 0)) ∧
    (∀ s, Fresh s → s.present [(true, d.spec), (false, a.spec)] = .ok () → s.th.eddy = none → s.settled [a.spec] = false →
      exec (.fwait d a) s = .next (s.stopped .wait)) ∧
    (∀ s, Fresh s → s.present [(true, specOf 0xB8 p), (false, a.spec)] = .ok () → s.th.eddy = none →
      exec (.ftest p a) s = .next (if s.settled [a.spec] then (s.joinAll [a.spec]).setP p true else s.setP p false).retire) ∧
    (∀ s r, Fresh s → s.present [(true, f.spec), (false, a.spec)] = .ok () → s.th.eddy = none → s.settled [f.spec] = true →
      s.th.reg? a.spec = some r →
      exec (.fpass f a) s = .next ({ s with th := (s.th.updReg f.spec fun _ => r).updReg a.spec fun _ => {} }).retire) ∧
    (∀ s, Fresh s → s.present [(true, f.spec), (false, a.spec)] = .ok () → s.th.eddy = none → s.settled [f.spec] = false →
      exec (.fpass f a) s = .next (s.stopped (.trap 0x51 (BitVec.ofNat 64 (f.spec.toNat + 0x200))))) ∧
    (∀ s, Ready [d.spec] [m.spec] s → s.th.eddy = none →
      let j := s.joined [d.spec, m.spec]
      let mask := (j.n64 m).toNat
      (∀ n, 0 < mask → mask < 2 ^ 40 → n < 40 → mask.testBit n = true → j.settled [BitVec.ofNat 8 n] = true →
        (∀ k < n, mask.testBit k = true → j.settled [BitVec.ofNat 8 k] = false) →
        exec (.fany d m) s = .next ((j.joinAll [BitVec.ofNat 8 n]).put d (BitVec.ofNat 64 n)).retire) ∧
      (0 < mask → mask < 2 ^ 40 → (∀ k < 40, mask.testBit k = true → j.settled [BitVec.ofNat 8 k] = false) →
        exec (.fany d m) s = .next (s.stopped .wait)) ∧
      (mask = 0 ∨ 2 ^ 40 ≤ mask → exec (.fany d m) s = .next (s.stopped (.trap 0x51 (BitVec.ofNat 64 (m.spec.toNat + 0x100)))))) ∧
    NotInEddy (.fwait d a) [(true, d.spec), (false, a.spec)] 0x95 ∧
    NotInEddy (.ftest p a) [(true, specOf 0xB8 p), (false, a.spec)] 0x96 ∧
    NotInEddy (.fpass f a) [(true, f.spec), (false, a.spec)] 0x98 ∧ NotInEddy (.fany d m) [(true, d.spec), (false, m.spec)] 0x99

/-- R239: fcancel requests the cancellation of the operation its register waits for, and is a nop on a register with no future; a copy that
has not begun, or whose group has not closed, ends where it stands, one that has begun is marked to stop; a matrix command that has not
begun ends with status 3, as does a network command that has not; a handler read is marked; the rest is left alone. -/
def Sys2Proof.Ob.Cancels : Prop :=
  ∀ (a : FReg) (s : State),
    (∀ tag, Fresh s → s.present [(false, a.spec)] = .ok () → s.th.eddy = none → (s.th.reg? a.spec).bind (·.fut) = some tag →
      exec (.fcancel a) s = .next (s.cancelOp tag).retire) ∧
    (Fresh s → s.present [(false, a.spec)] = .ok () → s.th.eddy = none → (s.th.reg? a.spec).bind (·.fut) = none →
      exec (.fcancel a) s = .next s.retire) ∧
    NotInEddy (.fcancel a) [(false, a.spec)] 0x97 ∧
    ∀ tag, let t := s.cancelOp tag
      t.bd.copies = s.bd.copies.map (fun c => if c.tag = tag ∧ c.ended = false then
        { c with cancelled := true, ended := s.bd.copies.any fun x => decide (x.tag = tag) && s.copyWaits x } else c) ∧
      t.core.eng.queue = s.core.eng.queue.map (fun c => if c.tag = tag ∧ c.begun = false ∧ c.ended = false then
        { c with stop := some 3, ended := true } else c) ∧
      t.nets = s.nets.map (fun n => if n.tag = tag ∧ n.begun = false then { n with cancelled := true, status := some 3 } else n) ∧
      t.bd.reads.map (fun r => (r.tag, r.cancelled)) = s.bd.reads.map (fun r => (r.tag, r.cancelled || r.tag = tag)) ∧
      t.mem = s.mem ∧ t.wops = s.wops ∧ t.reqs = s.reqs ∧ t.core.bar = s.core.bar

/-- Waiting for, testing, passing, choosing and cancelling futures (R237 to R239). -/
def Obligations.Futures : Prop := Ob.FutureReads ∧ Ob.Cancels

/-- R240 to R246: kinit.own makes a ring of lines × n in the window, kinit.peer a view of one that has none, both after what the handle held
has ended; kwait.fill and kwait.free write the window offset of the slot to drain or fill once n are filled or free, and wait until then;
kadv moves a pointer modulo 2n; kfree ends the ring, or the view alone. Each trap of Table 7-12 that they raise. -/
def Obligations.Rings : Prop :=
  ∀ (k : Fin 16) (a b : SSrc) (d : SDst),
    let cnt (j : State) : Nat := (j.n64 b).toNat
    let offset (o : Nat) : Word := BitVec.ofNat 64 o
    (∀ off lines n : Nat,
      let asked (j : State) : Prop := (j.n64 a).toNat = off ∧ cnt j = lines + n * 2 ^ 16 ∧ lines < 128 ∧ n < 512
      let good (j : State) : Prop := off % 512 = 0 ∧ 1 ≤ lines ∧ lines ≤ 64 ∧ 2 ≤ n ∧ n ≤ 256 ∧ off + lines * n * 512 ≤ j.bd.winSize
      RingDoes (.kinitOwn k a b) true k [] [a.spec, b.spec] (fun j => asked j ∧ good j ∧ j.freeReady k = .ok ())
        (fun j => setRingAt (j.freeRing k) k (.own off lines n 0 0 none)) ∧
      RingStops (.kinitOwn k a b) true k [] [a.spec, b.spec] (fun j e => asked j ∧ ¬ good j ∧ e = ringStop k 2) ∧
      RingStops (.kinitOwn k a b) true k [] [a.spec, b.spec] (fun j e => asked j ∧ good j ∧ j.freeReady k ≠ .ok () ∧ e = .block)) ∧
    RingStops (.kinitOwn k a b) true k [] [a.spec, b.spec]
      (fun j e => (¬ ∃ lines n : Nat, lines < 128 ∧ n < 512 ∧ cnt j = lines + n * 2 ^ 16) ∧ e = ringStop k 2) ∧
    (let there (j : State) (r : RingRef) : Prop := (j.n64 a).toNat ≠ j.th.slot ∧ (j.n64 a).toNat < 8 ∧ cnt j < 16 ∧
        (∃ t, j.thread? ⟨j.th.core, j.th.ctx, (j.n64 a).toNat⟩ = some t ∧ t.task = j.th.task) ∧
        j.ringOf j.th.core j.th.ctx (j.n64 a).toNat (cnt j) = some r ∧ r.view = false ∧ r.peer = none
     (∀ r, RingDoes (.kinitPeer k a b) true k [] [a.spec, b.spec] (fun j => there j r ∧ j.freeReady k = .ok ())
        (fun j => setRingAt ((j.freeRing k).updTh ⟨j.th.core, j.th.ctx, (j.n64 a).toNat⟩
          (Thread.setRing (cnt j) (.own r.off r.lines r.n r.fill r.drain (some (j.th.slot, k.val))))) k (.view (j.n64 a).toNat (cnt j))) ∧
       RingStops (.kinitPeer k a b) true k [] [a.spec, b.spec] (fun j e => there j r ∧ j.freeReady k ≠ .ok () ∧ e = .block)) ∧
     RingStops (.kinitPeer k a b) true k [] [a.spec, b.spec] (fun j e => (∀ r, ¬ there j r) ∧ e = ringStop k 1)) ∧
    (∀ r, RingDoes (.kwaitFill d k b) false k [d.spec] [b.spec] (fun j => Uses j k false (cnt j) r ∧ cnt j ≤ r.filled)
        (fun j => j.put d (offset (r.off + r.drain % r.n * (r.lines * 512)))) ∧
      RingStops (.kwaitFill d k b) false k [d.spec] [b.spec]
        (fun j e => Uses j k false (cnt j) r ∧ r.filled < cnt j ∧ e = .wait) ∧
      RingDoes (.kwaitFree d k b) false k [d.spec] [b.spec] (fun j => Uses j k true (cnt j) r ∧ cnt j ≤ r.n - r.filled)
        (fun j => j.put d (offset (r.off + r.fill % r.n * (r.lines * 512)))) ∧
      RingStops (.kwaitFree d k b) false k [d.spec] [b.spec]
        (fun j e => Uses j k true (cnt j) r ∧ r.n - r.filled < cnt j ∧ e = .wait) ∧
      RingDoes (.kadvFill k b) false k [] [b.spec]
        (fun j => Uses j k true (cnt j) r ∧ j.ringBusy j.th.core j.th.ctx r = false ∧ cnt j ≤ r.n - r.filled)
        (fun j => j.flush.moveMine r ((r.fill + cnt j) % (2 * r.n)) r.drain) ∧
      RingStops (.kadvFill k b) false k [] [b.spec] (fun j e => Uses j k true (cnt j) r ∧
        ((j.ringBusy j.th.core j.th.ctx r = true ∧ e = ringStop k 4) ∨
          (j.ringBusy j.th.core j.th.ctx r = false ∧ r.n - r.filled < cnt j ∧ e = ringStop k 6))) ∧
      RingDoes (.kadvDrain k b) false k [] [b.spec] (fun j => Uses j k false (cnt j) r ∧ cnt j ≤ r.filled)
        (fun j => j.moveMine r r.fill ((r.drain + cnt j) % (2 * r.n))) ∧
      RingStops (.kadvDrain k b) false k [] [b.spec] (fun j e => Uses j k false (cnt j) r ∧ r.filled < cnt j ∧ e = ringStop k 6)) ∧
    RingStops (.kwaitFill d k b) false k [d.spec] [b.spec] (fun j e => Misuses j k false (cnt j) e) ∧
    RingStops (.kwaitFree d k b) false k [d.spec] [b.spec] (fun j e => Misuses j k true (cnt j) e) ∧
    RingStops (.kadvFill k b) false k [] [b.spec] (fun j e => Misuses j k true (cnt j) e) ∧
    RingStops (.kadvDrain k b) false k [] [b.spec] (fun j e => Misuses j k false (cnt j) e) ∧
    RingDoes (.kfree k) false k [] [] (fun j => j.freeReady k = .ok ()) (fun j => j.freeRing k) ∧
    RingStops (.kfree k) false k [] [] (fun j e => j.freeReady k ≠ .ok () ∧ e = .block) ∧
    (∀ j : State, (j.freeReady k = .ok () ↔ ∀ r, ringAt j k = some r → j.ringBusy j.th.core j.th.ctx r = false) ∧
      (j.th.exited = false → ringAt (j.freeRing k) k = none)) ∧
    (∀ (j : State) (r : RingRef), ringAt j k = some r → r.view = true →
      j.freeRing k = setRingAt (j.updTh ⟨j.th.core, j.th.ctx, r.thr⟩ (Thread.setRing r.k (.own r.off r.lines r.n r.fill r.drain none)))
        k .none) ∧
    NotInEddy (.kinitOwn k a b) [(true, kSpec k), (false, a.spec), (false, b.spec)] 0x9A ∧
    NotInEddy (.kinitPeer k a b) [(true, kSpec k), (false, a.spec), (false, b.spec)] 0x9A ∧
    NotInEddy (.kwaitFill d k b) [(true, d.spec), (false, kSpec k), (false, b.spec)] 0x9B ∧
    NotInEddy (.kwaitFree d k b) [(true, d.spec), (false, kSpec k), (false, b.spec)] 0x9B ∧
    NotInEddy (.kfree k) [(false, kSpec k)] 0x9C ∧ NotInEddy (.kadvFill k b) [(false, kSpec k), (false, b.spec)] 0x9D ∧
    NotInEddy (.kadvDrain k b) [(false, kSpec k), (false, b.spec)] 0x9D

/-- R248 to R252: a handler read of a legal shape, to a handler that passes the checks of R70, enters its read with a snapshot of the
g registers and its future, or waits for room in the copy queue; a shape out of range, an address at or above 2⁵⁶ and a handler that
fails its checks are traps; hret ends its eddy and counts for its read, and in a thread is the trap 0x56. -/
def Obligations.HandlerReads : Prop :=
  ∀ (v : HForm) (sc : Scope) (d : FDst) (a b c : SReg),
    (∀ s rb rows pitch, CmdReady d [a.spec, b.spec, c.spec] s → let j := s.joined [a.spec, b.spec, c.spec]
      hreadShape v (j.sreg c) = some (rb, rows, pitch) → Addr (j.sreg a) → Lands j (j.sreg b) →
      let f := j.flush.fork d
      let r : HRead := { tag := j.nextTag, thr := j.th.slot, src := (j.sreg a).toNat, rb, rows, pitch, two := v != .one,
                         handler := j.sreg b, sc, g := j.th.g }
      (CopyCell j → exec (.hread v sc d a b c) s = .next ({ f.2 with bd := { f.2.bd with reads := f.2.bd.reads ++ [r] } }).retire) ∧
      (¬ CopyCell j → exec (.hread v sc d a b c) s = .next (s.stopped .block))) ∧
    CmdStops (.hread v sc d a b c) d [a.spec, b.spec, c.spec] (fun j e =>
      (hreadShape v (j.sreg c) = none ∧ e = cmdStop 0x9E 3) ∨
      (hreadShape v (j.sreg c) ≠ none ∧ ¬ Addr (j.sreg a) ∧ e = .trap 2 (j.sreg a)) ∨
      (hreadShape v (j.sreg c) ≠ none ∧ Addr (j.sreg a) ∧ j.checkTarget (j.sreg b) = .error e)) ∧
    (∀ x : Word, hreadShape .one x = if x = 0 ∨ 2 ^ 24 * 192 < x.toNat then none else some (x.toNat, 1, 0)) ∧
    (∀ (x : Word) (q : BitVec 36), v = .two q → let rb := x.toNat % 2 ^ 32 + 1
      let rows := x.toNat / 2 ^ 32 % 2 ^ 16 + 1
      hreadShape v x = if 2 ^ 48 ≤ x.toNat ∨ 2 ^ 24 < rows * ((rb + 191) / 192) then none else some (rb, rows, q.toNat)) ∧
    NotInEddy (.hread v sc d a b c) [(true, d.spec), (false, a.spec), (false, b.spec), (false, c.spec)] 0x9E ∧
    (∀ s e, Fresh s → s.th.eddy = some e → exec .hret s = .next { s with
      bd := s.bd.updRead e.tag (fun r => { r with live := r.live - 1, rets := r.rets + 1, slices := r.slices ||| s.th.tsm })
      th := { s.th with exited := true } }) ∧
    (∀ s, Fresh s → s.th.eddy = none → exec .hret s = .next (s.stopped (.trap 0x56 0x9F)))

/-! ### Messages, atomics, fences, barriers, events and gangs -/

namespace Sys2Proof.Ob

/-- The trap of a destination word (R254): bits above 28, a task that is none of the context, a row, column or thread outside it. -/
def msgStop (reason : Nat) : Stop := .trap 0x53 (BitVec.ofNat 64 (256 * reason))
def BadDest (j : State) (w : Word) (e : Stop) : Prop :=
  let row := w.toNat / 2 ^ 16 % 64
  let col := w.toNat / 2 ^ 22 % 16
  let thr := w.toNat / 2 ^ 26 % 8
  (2 ^ 29 ≤ w.toNat ∧ e = msgStop 1) ∨
  (w.toNat < 2 ^ 29 ∧ j.cx.task? (w.toNat % 2 ^ 16) = none ∧ e = msgStop 2) ∨
  (w.toNat < 2 ^ 29 ∧ ∃ k, j.cx.task? (w.toNat % 2 ^ 16) = some k ∧ (k.rows ≤ row ∨ k.cols ≤ col ∨ k.thr ≤ thr) ∧ e = msgStop 3)

/-- A send of a message: into its queue, or, where it is held, the hold buffer, where the pool gives a cell; else it waits. -/
def Sends (i : Instr) (d : FDst) (a : SReg) (extra ss : List (BitVec 8)) (held : Bool) (s : State) (m : State → Msg) : Prop :=
  Ready [] ss s → s.present ((true, d.spec) :: (ss ++ extra).map fun x => (false, x)) = .ok () →
    let j := (s.joined ss).wakeRegs extra
    let f := j.flush.fork d
    let u : State := { f.2 with th := { f.2.th with seq := f.2.th.seq + 1 } }
    let grant : Bool := j.poolGrant j.bd (if held then 5 else 2)
    (∀ e, BadDest j (j.sreg a) e → exec i s = .next (s.stopped e)) ∧
    ((∀ e, ¬ BadDest j (j.sreg a) e) → grant = false → exec i s = .next (s.stopped .block)) ∧
    ((∀ e, ¬ BadDest j (j.sreg a) e) → grant = true → exec i s = .next (if held
      then { u with th := { u.th with held := u.th.held ++ [m j] } }
      else State.pump s.th.core { u with bd := { u.bd with sends := u.bd.sends ++ [m j] } }).retire)

end Sys2Proof.Ob

open Sys2Proof.Ob

/-- R254 to R258: a send to a destination word that names a thread of the context enters the sender's queue, or its hold buffer, under the
next sequence number, with its future, and waits for a cell; the message trap names what is wrong with the word; mcommit releases what is
held, which enters the queue in issue order as it has cells, mabort drops it with status 3; mrecv waits for a message and takes the
oldest, or counts them. An eddy may send, but not hold, release, drop or receive. -/
def Obligations.Messages : Prop :=
  ∀ (sc : Scope) (o : Ord) (g : Fin 8) (d : FDst) (e : SDst) (a b : SReg) (v : Fin 64) (s : State),
    let rel := o == .rel || o == .ar
    let msg (greg : Option Nat) (held : Bool) (data : State → VWord) (j : State) : Msg :=
      { dst := j.sreg a, src := j.th.key, srcTask := j.th.task, seq := j.th.seq, greg, data := data j, rel, sc
        tag := some j.nextTag, held }
    Sends (.msendQ sc o d a v) d a [specOf 0x40 v] [a.spec] false s (msg none false fun j => j.th.v[v]) ∧
    Sends (.msendDep sc o g d a b) d a [] [a.spec, b.spec] false s (msg (some g.val) false fun j => (j.sreg b).setWidth 768) ∧
    (s.th.eddy = none →
      Sends (.msendSpec sc o d a v) d a [specOf 0x40 v] [a.spec] true s (msg none true fun j => j.th.v[v])) ∧
    NotInEddy (.msendSpec sc o d a v) [(true, d.spec), (false, a.spec), (false, specOf 0x40 v)] 0xA0 ∧
    NotInEddy .mcommit [] 0xA1 ∧ NotInEddy .mabort [] 0xA2 ∧ NotInEddy (.mrecvPop sc o v) [(true, specOf 0x40 v)] 0xA3 ∧
    NotInEddy (.mrecvCnt e) [(true, e.spec)] 0xA3 ∧
    (Fresh s → s.th.eddy = none →
      exec .mcommit s = .next (State.pump s.th.core { s with
        th := { s.th with held := s.th.held.map fun m => { m with held := false } } }).retire ∧
      exec .mabort s = .next (State.retire (((s.th.held.filter fun m => m.held).filterMap fun m => m.tag).foldl
        (fun (t : State) x => t.complete x 3 0) { s with th := { s.th with held := s.th.held.filter fun m => !m.held } }))) ∧
    (Fresh s → s.present [(true, specOf 0x40 v)] = .ok () → s.th.eddy = none →
      (∀ m r, s.th.msgs = m :: r → exec (.mrecvPop sc o v) s =
        .next ((State.wakeRegs { s with th := { s.th with msgs := r } } [specOf 0x40 v]).setV v m.data).retire) ∧
      (s.th.msgs = [] → exec (.mrecvPop sc o v) s = .next (s.stopped .wait))) ∧
    DoesTh (.mrecvCnt e) [e.spec] [] (fun _ => True) (fun j => j.put e (BitVec.ofNat 64 j.th.msgs.length))

namespace Sys2Proof.Ob

/-- What an atomic asks of its address (R259, R260): below 2⁵⁶, aligned, readable and writable, on a raw page, clear of the scoreboard and of
poison; on a host page one that PCIe carries. -/
def AmoPlace (fn : Nat) (t : Ty) (j : State) (ea : Word) (p : Spot) : Prop :=
  Addr ea ∧ ea.toNat % (t.width / 8) = 0 ∧ (∃ r, j.spot ea.toNat false = .ok r) ∧ j.spot ea.toNat true = .ok p ∧ attrRaw p.attr = true ∧
  j.scoreboard p.va (t.width / 8) = .ok () ∧ j.poisonAt p (t.width / 8) = false ∧ (isHost p.pa = true → hostAmo fn = true)

/-- What it stops with where one of these fails, in their order. -/
def AmoStop (fn : Nat) (t : Ty) (j : State) (ea : Word) (e : Stop) : Prop :=
  (¬ Addr ea ∧ e = .trap 2 ea) ∨
  (Addr ea ∧ ((ea.toNat % (t.width / 8) ≠ 0 ∧ e = .trap 0x31 ea) ∨
    (ea.toNat % (t.width / 8) = 0 ∧ (j.spot ea.toNat false = .error e ∨
      (∃ r, j.spot ea.toNat false = .ok r) ∧ (j.spot ea.toNat true = .error e ∨
        ∃ p, j.spot ea.toNat true = .ok p ∧ ((attrRaw p.attr = false ∧ e = .trap 0x32 ea) ∨
          (attrRaw p.attr = true ∧ (j.scoreboard p.va (t.width / 8) = .error e ∨
            (j.scoreboard p.va (t.width / 8) = .ok () ∧ e = .trap 1 ea ∧
              (j.poisonAt p (t.width / 8) = true ∨ isHost p.pa = true ∧ hostAmo fn = false))))))))))

/-- An atomic: in the window it is performed at once; elsewhere its request goes to the home slice, and with a result to write its thread
waits, and completes once the old value has come. -/
def Atomic (i : Instr) (fn : Nat) (t : Ty) (rnd : Rnd) (sc : Scope) (o : Ord) (d : SDst) (m : MAddr) (b c : SReg)
    (ss : List (BitVec 8)) : Prop :=
  (∀ s, Ready [d.spec] ss s → s.th.wait = none → let j := s.joined (d.spec :: ss)
    let ea := j.sreg m.base + m.disp.signExtend 64
    (∀ p, AmoPlace fn t j ea p →
      (p.win = true →
        let k := if o == .rel || o == .ar then j.flush else j
        let old := leNat (k.core.spad.bytes p.pa (t.width / 8))
        exec i s = .next (({ k with core := match amoNew fn t rnd old (j.sreg b).toNat (j.sreg c).toNat with
          | some v => k.core.spadPut (cellsOf p.pa (leBytes v (t.width / 8)))
          | none => k.core.wakeAt p.pa } : State).put d (extend t old)).retire) ∧
      (p.win = false →
        let r : Req := { who := .thr j.th.key, ctx := j.th.ctx, key := j.cx.key, pa := p.pa, rel := o == .rel || o == .ar, sc, port := none,
                         body := .amo fn t rnd (j.sreg b) (j.sreg c) (d != .zero), ord := j.sawStore, acq := o == .acq || o == .ar
                         clk := j.clkTo p.pa }
        let u : State := { j with cx := j.cx.touch p.va false, reqs := j.reqs ++ [r] }
        exec i s = .next (if d = .zero then u.retire else u.park (.value none)))) ∧
    ∀ e, AmoStop fn t j ea e → exec i s = .next (s.stopped e)) ∧
  (∀ s v, Fresh s → s.th.wait = some (.value (some v)) → exec i s = .next (s.put d (extend t v.toNat)).retire) ∧
  ∀ s, Fresh s → s.th.wait = some (.value none) → exec i s = .next (s.stopped .block)

end Sys2Proof.Ob

/-- R259, R260: the nine atomics, with the new value that each makes of the old one and its operands, what each asks of its address, and what
it stops with where the address does not meet it. -/
def Obligations.Atomics : Prop :=
  ∀ (t : Ty) (rnd : Rnd) (sc : Scope) (o : Ord) (d : SDst) (m : MAddr) (b c : SReg),
    Atomic (.amoAdd t sc o d m b) 0 t .rne sc o d m b .zero [m.base.spec, b.spec] ∧
    Atomic (.amoAnd t sc o d m b) 1 t .rne sc o d m b .zero [m.base.spec, b.spec] ∧
    Atomic (.amoOr t sc o d m b) 2 t .rne sc o d m b .zero [m.base.spec, b.spec] ∧
    Atomic (.amoXor t sc o d m b) 3 t .rne sc o d m b .zero [m.base.spec, b.spec] ∧
    Atomic (.amoMin t sc o d m b) 4 t .rne sc o d m b .zero [m.base.spec, b.spec] ∧
    Atomic (.amoMax t sc o d m b) 5 t .rne sc o d m b .zero [m.base.spec, b.spec] ∧
    Atomic (.amoSwap t sc o d m b) 6 t .rne sc o d m b .zero [m.base.spec, b.spec] ∧
    Atomic (.amoFadd rnd sc o d m b) 7 .f rnd sc o d m b .zero [m.base.spec, b.spec] ∧
    Atomic (.cas t sc o d m b c) 8 t .rne sc o d m b c [m.base.spec, b.spec, c.spec] ∧
    ∀ (old x y : Nat),
      amoNew 0 t .rne old x y = some (wrapInt t (intOf t old + intOf t (x % 2 ^ t.width))) ∧
      amoNew 1 t .rne old x y = some (old &&& x % 2 ^ t.width) ∧ amoNew 2 t .rne old x y = some (old ||| x % 2 ^ t.width) ∧
      amoNew 3 t .rne old x y = some (old ^^^ x % 2 ^ t.width) ∧
      amoNew 4 t .rne old x y = some (if intOf t old ≤ intOf t (x % 2 ^ t.width) then old else x % 2 ^ t.width) ∧
      amoNew 5 t .rne old x y = some (if intOf t old ≤ intOf t (x % 2 ^ t.width) then x % 2 ^ t.width else old) ∧
      amoNew 7 .f rnd old x y = some (fBin .f rnd false (Val.add rnd) old (x % 2 ^ 32)).1 ∧ amoNew 6 t .rne old x y = some (x % 2 ^ t.width) ∧
      amoNew 8 t .rne old x y = (if old = x % 2 ^ t.width then some (y % 2 ^ t.width) else none)

namespace Sys2Proof.Ob

/-- The stores of the thread to places without a home slice that a fence of a scope waits for: until they are performed, at sys scope until
they are acknowledged. -/
def OutWaits (s : State) (sc : Scope) : Prop :=
  ∃ r ∈ s.reqs, s.owns r = true ∧ noHome r.pa = true ∧ (sc = .sys ∨ r.isStore = true)

/-- The home slices that a fence asks: those of tsm, those of the thread's atomics on their way, and for .ar those of rsm. -/
def fenceMask (s : State) (o : Ord) : BitVec 64 := s.th.tsm ||| s.atomSlices ||| (if o = Ord.ar then s.th.rsm else 0)

end Sys2Proof.Ob

/-- R261: a fence without a release retires at once; a release at core scope performs the thread's stores; at a wider scope it waits for the
stores that no home slice takes, and with no slice touched it retires, else it sends a probe to each home slice of the mask and waits;
when every echo has come it retires, with tsm clear, and for .ar rsm too. What an eddy's fence clears stays known to its read (R230). -/
def Obligations.Fences : Prop :=
  ∀ (sc : Scope) (o : Ord) (s : State), Fresh s →
    (s.th.wait = none → (o == .rel || o == .ar) = false → exec (.fence sc o) s = .next s.retire) ∧
    (s.th.wait = none → (o == .rel || o == .ar) = true →
      (sc = .core → exec (.fence sc o) s = .next s.flush.retire) ∧
      (sc ≠ .core → OutWaits s sc → exec (.fence sc o) s = .next (s.stopped .block)) ∧
      (sc ≠ .core → ¬ OutWaits s sc → exec (.fence sc o) s =
        .next (if fenceMask s o = 0 then s.retire else s.probes (fenceMask s o) sc))) ∧
    (s.th.wait = some (.echoes 0) → exec (.fence sc o) s = .next (s.probed o).retire ∧
      (s.probed o).th = { s.th with tsm := 0, rsm := if o = Ord.ar then 0 else s.th.rsm } ∧
      (s.th.eddy = none → (s.probed o).bd = s.bd) ∧
      ∀ e, s.th.eddy = some e → (s.probed o).bd = s.bd.updRead e.tag fun r => { r with slices := r.slices ||| s.th.tsm }) ∧
    (∀ n, s.th.wait = some (.echoes (n + 1)) → exec (.fence sc o) s = .next (s.stopped .block)) ∧
    ∀ m : BitVec 64, (s.probes m sc).th = { s.th with wait := some (.echoes ((List.range 64).filter fun i => m.getLsbD i).length) } ∧
      (s.probes m sc).reqs = s.reqs ++ ((List.range 64).filter fun i => m.getLsbD i).map fun i =>
        { who := .thr s.th.key, ctx := s.th.ctx, key := s.cx.key, pa := i, rel := false, sc, port := none, body := .probe : Req }

namespace Sys2Proof.Ob

def barStop (n : Fin 4) (reason : Nat) : Stop := .trap 0x52 (BitVec.ofNat 64 (n.val + 256 * reason))

/-- A scope holds a rectangle (R263): one core, one row, or any. -/
def InScope (sc : Scope) (r : BitVec 23) : Prop :=
  (sc = .core → rectRows r = 1 ∧ rectCols r = 1) ∧ (sc = .row → rectRows r = 1)

/-- An arrival's checks, with the trap of the first that fails (R263). -/
def Arrives (s : State) (n : Fin 4) (sc : Scope) : Prop :=
  s.holds = true ∧ s.th.eddy = none ∧ InScope sc s.core.bar[n].rect ∧ s.core.bar[n].armed = true
def NoArrival (s : State) (op : Nat) (n : Fin 4) (sc : Scope) (e : Stop) : Prop :=
  (s.holds = false ∧ e = .trap 3 (BitVec.ofNat 64 (0x100 + n.val))) ∨
  (s.holds = true ∧ ((s.th.eddy ≠ none ∧ e = .trap 0x23 (BitVec.ofNat 64 op)) ∨
    (s.th.eddy = none ∧ ((¬ InScope sc s.core.bar[n].rect ∧ e = barStop n 4) ∨
      (InScope sc s.core.bar[n].rect ∧ s.core.bar[n].armed = false ∧ e = barStop n 5)))))

/-- An arrival: its checks, then its fence; the arrival itself follows where the fence is over at once, or once its echoes have come. -/
def Arrival (i : Instr) (op : Nat) (n : Fin 4) (sc : Scope) (ops : List (Bool × BitVec 8)) (f : State → State) : Prop :=
  (∀ s, Fresh s → s.th.wait = none → (s.holds = true → s.present ops = .ok ()) →
    (∀ e, NoArrival s op n sc e → exec i s = .next (s.stopped e)) ∧
    (Arrives s n sc →
      (sc = .core → exec i s = .next (f s.flush)) ∧
      (sc ≠ .core → OutWaits s sc → exec i s = .next (s.stopped .block)) ∧
      (sc ≠ .core → ¬ OutWaits s sc → fenceMask s .rel = 0 → exec i s = .next (f s)) ∧
      (sc ≠ .core → ¬ OutWaits s sc → fenceMask s .rel ≠ 0 → exec i s = .next (s.probes (fenceMask s .rel) sc)))) ∧
  (∀ s, Fresh s → s.th.wait = some (.echoes 0) → exec i s = .next (f (s.probed .rel))) ∧
  ∀ s k, Fresh s → s.th.wait = some (.echoes (k + 1)) → exec i s = .next (s.stopped .block)

end Sys2Proof.Ob

/-- R262, R263: barm arms a barrier with a rectangle within the task's, where no arrival at it is counted; barr fences, counts its thread with a
future and goes on; barw fences, counts its thread and waits for the release; a release with status 0x15 is the barrier trap. Each check
of Table 7-12 that fails is its trap. -/
def Obligations.Barriers : Prop :=
  ∀ (n : Fin 4) (sc : Scope) (d : FDst) (a : SSrc),
    (∀ s, s.holds = false → Fresh s → exec (.barm n a) s = .next (s.stopped (.trap 3 (BitVec.ofNat 64 (0x100 + n.val))))) ∧
    (∀ s, Fresh s → s.holds = true → s.present [(false, a.spec)] = .ok () → s.th.eddy ≠ none →
      exec (.barm n a) s = .next (s.stopped (.trap 0x23 0xA7))) ∧
    (∀ s, Ready [] [a.spec] s → s.holds = true → s.th.eddy = none → let j := s.joined [a.spec]
      let w := (j.n64 a).toNat
      let form := w < 2 ^ 23 ∧ w / 2 ^ 10 % 8 = 0
      let still := j.core.bar[n].arrived = [] ∧ j.core.bar[n].sent = false
      let inside := ∃ t, j.cx.task? j.th.task = some t ∧ t.hasRect (BitVec.ofNat 23 w) = true
      (form → still → inside → exec (.barm n a) s = .next ({ j with core := j.core.setBar n { j.core.bar[n] with
        armed := true, rect := BitVec.ofNat 23 w } }).retire) ∧
      (¬ form → exec (.barm n a) s = .next (s.stopped (barStop n 6))) ∧
      (form → ¬ still → exec (.barm n a) s = .next (s.stopped (barStop n 1))) ∧
      (form → still → ¬ inside → exec (.barm n a) s = .next (s.stopped (barStop n 2)))) ∧
    Arrival (.barr n sc d) 0xA8 n sc [(true, d.spec)]
      (fun u => (State.countArrival n [u.nextTag] (State.fork { u with th := { u.th with wait := none } } d).2).retire) ∧
    Arrival (.barw n sc) 0xA9 n sc [] (fun u => (u.countArrival n []).park (.barrier n.val none)) ∧
    (∀ s m st, Fresh s → s.th.wait = some (.barrier m (some st)) → st ≠ 0x15 → exec (.barw n sc) s = .next s.retire) ∧
    (∀ s m, Fresh s → s.th.wait = some (.barrier m (some 0x15)) → exec (.barw n sc) s = .next (s.stopped (barStop n 3))) ∧
    (∀ s m, Fresh s → s.th.wait = some (.barrier m none) → exec (.barw n sc) s = .next (s.stopped .block)) ∧
    ∀ (s : State) (futs : List Nat), let b := s.core.bar[n]
      s.countArrival n futs = { s with core := s.core.setBar n { b with arrived := insertNat s.th.slot b.arrived, futs := b.futs ++ futs } }

/-- R266, R267: wfe and idle with the latch set clear it and retire, else they wait; sev sets the latches of the context's threads on the
core, sev.thr that of one thread. Neither wait is an eddy's. -/
def Obligations.Events : Prop :=
  ∀ (a : SSrc),
    (∀ s, Fresh s → s.th.eddy = none → s.th.latch = true →
      exec .wfe s = .next ({ s with th := { s.th with latch := false } }).retire ∧
      exec .idle s = .next ({ s with th := { s.th with latch := false } }).retire) ∧
    (∀ s, Fresh s → s.th.eddy = none → s.th.latch = false →
      exec .wfe s = .next (s.park (.event false)) ∧ exec .idle s = .next (s.park (.event true))) ∧
    NotInEddy .wfe [] 0xAA ∧ NotInEddy .idle [] 0xD7 ∧
    (∀ s, Fresh s → exec .sevCore s = .next (s.mapThreads fun t =>
      if t.core = s.th.core ∧ t.ctx = s.th.ctx then { t with latch := true } else t).retire) ∧
    Does (.sevThr a) [] [a.spec] (fun j => j.mapThreads fun t =>
      if t.core = j.th.core ∧ t.ctx = j.th.ctx ∧ t.slot < 8 ∧ t.slot = (j.n64 a).toNat then { t with latch := true } else t)

namespace Sys2Proof.Ob

/-- A mask of columns is one a gang may have (R268): within the row, without the thread's own column, and within the task. -/
def GangMask (j : State) (mask : Nat) : Prop :=
  mask < 2 ^ 16 ∧ mask.testBit (coreCol j.th.core) = false ∧
  ∀ c < 16, mask.testBit c = true → ∃ k, j.cx.task? j.th.task = some k ∧ k.holds (j.th.core / 16 * 16 + c) = true

/-- The thread leads a gang, and one of its members has no room for one more word. -/
def MemberFull (j : State) : Prop :=
  ∃ ms tag n q, j.th.gang = .leader ms tag n q ∧ ∃ m ∈ ms,
    (∃ t l ws, j.thread? m = some t ∧ t.gang = .member l ws) ∧ 4 ≤ j.gangHeld m

/-- The state in which the thread leads no gang any more: where it led one, its future has completed with the number gathered, and its members
have been told to leave. -/
def ungang (j : State) : State :=
  match j.th.gang with
  | .leader ms tag n _ =>
    let t := (State.complete tag (doneWord n 0) 0 { j with th := { j.th with gang := .none } })
    let live := ms.filter fun m => (j.thread? m).any fun t => match t.gang with | .member _ _ => true | _ => false
    { t with pkts := t.pkts ++ live.map fun m => Pkt.gang m detachWord none }
  | _ => j

end Sys2Proof.Ob

/-- R268, R269: a gang first ends the gang its thread leads, and then gathers the threads its mask names once each waits in gjoin, in a cell of
the message queue; a mask that names its own column or a core outside the task is the gang trap; gdetach by the leader ends the gang, by
a member leaves it, by another changes nothing; gjoin ends what its thread leads and waits, and retires once its member has left. -/
def Obligations.Gangs : Prop :=
  ∀ (d : FDst) (a b : SReg),
    let ops := [(true, d.spec), (false, a.spec), (false, b.spec)]
    (∀ s, Ready [] [a.spec, b.spec] s → s.present ops = .ok () → s.th.eddy = none → let j := s.joined [a.spec, b.spec]
      let mask := (j.sreg a).toNat
      let u := ungang j
      let ms := u.gangKeys mask (j.sreg b).toNat
      let ready := ∀ m ∈ ms, ∃ t, u.thread? m = some t ∧ t.inGjoin = true
      (¬ GangMask j mask → exec (.gang d a b) s = .next (s.stopped (.trap 0x54 (BitVec.ofNat 64 mask)))) ∧
      (GangMask j mask → MemberFull j → exec (.gang d a b) s = .next (s.stopped .block)) ∧
      (GangMask j mask → ¬ MemberFull j → u.poolGrant u.bd 2 = false → exec (.gang d a b) s = .next (s.stopped .block)) ∧
      (GangMask j mask → ¬ MemberFull j → u.poolGrant u.bd 2 = true → ready →
        let f := State.fork { u with th := { u.th with wait := none } } d
        exec (.gang d a b) s = .next (ms.foldl (fun (t : State) m => t.updTh m fun x => { x with gang := .member u.th.key [] })
          { f.2 with th := { f.2.th with gang := .leader ms f.1 ms.length 0 } }).retire) ∧
      (GangMask j mask → ¬ MemberFull j → u.poolGrant u.bd 2 = true → ¬ ready →
        (∀ ns tag n q, j.th.gang = .leader ns tag n q → exec (.gang d a b) s = .next (u.park .gang)) ∧
        ((∀ ns tag n q, j.th.gang ≠ .leader ns tag n q) → exec (.gang d a b) s = .next (s.stopped .wait)))) ∧
    NotInEddy (.gang d a b) ops 0xAC ∧ NotInEddy .gdetach [] 0xAD ∧ NotInEddy .gjoin [] 0xAE ∧
    (∀ s, Fresh s → s.th.eddy = none →
      (∀ ms tag n q, s.th.gang = .leader ms tag n q →
        exec .gdetach s = .next (State.complete tag (doneWord n 0) 0 { s with th := { s.th with gang := .none } }).retire) ∧
      (∀ l ws, s.th.gang = .member l ws → exec .gdetach s = .next ({ s with th := { s.th with gang := .none } }).retire) ∧
      (s.th.gang = .none → exec .gdetach s = .next s.retire) ∧
      (s.th.wait = none → MemberFull s → exec .gjoin s = .next (s.stopped .block)) ∧
      (s.th.wait = none → ¬ MemberFull s → exec .gjoin s = .next ((ungang s).park (.gjoin false)))) ∧
    ∀ s, Fresh s →
      (s.th.wait = some (.gjoin true) → exec .gjoin s = .next ({ s with th := { s.th with wait := none } }).retire) ∧
      (s.th.wait = some (.gjoin false) → exec .gjoin s = .next (s.stopped .block))

/-! ### Other cores' scratchpads and the network -/

namespace Sys2Proof.Ob

/-- The core, of a column of its own row, that a remote access names. -/
def remoteCore (j : State) (col : Word) : Nat := j.th.core / 16 * 16 + col.toNat

/-- The address of a remote access is an aligned element of the window, and its core one of the task; or the trap of what it is not (R270). -/
def RemoteAddr (j : State) (t : Ty) (ea col : Word) : Prop :=
  Addr ea ∧ isWin ea.toNat = true ∧ ea.toNat % (t.width / 8) = 0 ∧ col.toNat < 16 ∧
  ∃ k, j.cx.task? j.th.task = some k ∧ k.holds (remoteCore j col) = true
def NoRemote (j : State) (t : Ty) (ea col : Word) (e : Stop) : Prop :=
  (¬ Addr ea ∧ e = .trap 2 ea) ∨
  (Addr ea ∧ isWin ea.toNat = false ∧ e = .trap 1 ea) ∨
  (Addr ea ∧ isWin ea.toNat = true ∧ ea.toNat % (t.width / 8) ≠ 0 ∧ e = .trap 0x31 ea) ∨
  (Addr ea ∧ isWin ea.toNat = true ∧ ea.toNat % (t.width / 8) = 0 ∧ ¬ RemoteAddr j t ea col ∧ e = .trap 1 ea) ∨
  (RemoteAddr j t ea col ∧ e = .trap 1 ea ∧
    ∃ b, j.bind? (remoteCore j col) j.th.ctx = some b ∧ b.winSize ≠ 0 ∧ b.winSize ≤ ea.toNat - winBase)

/-- The core has no window to answer from; it has one, and the scratchpad address behind the access is x. -/
def NoWindow (j : State) (col : Word) : Prop := ∀ b, j.bind? (remoteCore j col) j.th.ctx = some b → b.winSize = 0
def RemoteAt (j : State) (ea col : Word) (x : Nat) : Prop :=
  ∃ b, j.bind? (remoteCore j col) j.th.ctx = some b ∧ ea.toNat - winBase < b.winSize ∧ x = b.spadAddr (ea.toNat - winBase)

/-- A gated lee bank stands behind a scratchpad address of a core. -/
def GatedBank (j : State) (core x : Nat) : Prop := ∃ b, leeBank x = some b ∧ (j.core? core).banks[b] = .gated

end Sys2Proof.Ob

/-- R270: rld reads an aligned element of the window of a core in its row and its task, rst writes one, in the order of a release; a core
that has no window or whose bank is gated answers zero and discards, with flags.gt; an address or a column that is none, and an element
that is poisoned, are traps. -/
def Obligations.RemoteScratchpad : Prop :=
  ∀ (t : Ty) (sc : Scope) (o : Ord) (d : SDst) (m : MAddr) (b c : SReg),
    (∀ s, Ready [d.spec] [m.base.spec, b.spec] s → let j := s.joined [d.spec, m.base.spec, b.spec]
      let ea := j.sreg m.base + m.disp.signExtend 64
      let k := remoteCore j (j.sreg b)
      (∀ e, NoRemote j t ea (j.sreg b) e → exec (.rld t sc o d m b) s = .next (s.stopped e)) ∧
      (RemoteAddr j t ea (j.sreg b) → NoWindow j (j.sreg b) → exec (.rld t sc o d m b) s = .next ((j.put d 0).flag Fl.gt).retire) ∧
      ∀ x, RemoteAddr j t ea (j.sreg b) → RemoteAt j ea (j.sreg b) x →
        (GatedBank j k x → exec (.rld t sc o d m b) s = .next ((j.put d 0).flag Fl.gt).retire) ∧
        (¬ GatedBank j k x → poisoned (j.core? k).spadPoison x (t.width / 8) = true →
          exec (.rld t sc o d m b) s = .next (s.stopped (.trap 1 ea))) ∧
        (¬ GatedBank j k x → poisoned (j.core? k).spadPoison x (t.width / 8) = false →
          exec (.rld t sc o d m b) s = .next (State.updCore k (fun y => y.wakeAt x)
            (j.put d (extend t (leNat ((j.core? k).spad.bytes x (t.width / 8)))))).retire)) ∧
    (∀ s, Ready [] [m.base.spec, b.spec, c.spec] s → let j := s.joined [m.base.spec, b.spec, c.spec]
      let ea := j.sreg m.base + m.disp.signExtend 64
      let k := remoteCore j (j.sreg b)
      let f := if o == .rel || o == .ar then j.flush else j
      (∀ e, NoRemote j t ea (j.sreg b) e → exec (.rst t sc o m b c) s = .next (s.stopped e)) ∧
      (RemoteAddr j t ea (j.sreg b) → NoWindow j (j.sreg b) → exec (.rst t sc o m b c) s = .next (f.flag Fl.gt).retire) ∧
      ∀ x, RemoteAddr j t ea (j.sreg b) → RemoteAt j ea (j.sreg b) x →
        (GatedBank f k x → exec (.rst t sc o m b c) s = .next (f.flag Fl.gt).retire) ∧
        (¬ GatedBank f k x → exec (.rst t sc o m b c) s = .next (State.updCore k (fun y =>
          y.spadPut (cellsOf x (leBytes (j.sreg c).toNat (t.width / 8)))) f).retire))

namespace Sys2Proof.Ob

/-- The state in which a network command is registered, with its ranges, its future, and the count of R293, and moves on. -/
def netForked (s : State) (c : NetCmd) (rng : List (Nat × Nat)) (d : FDst) : State :=
  let r : State := { s with th := { s.th with rngs := s.th.rngs ++ rng.map fun x => extent s.nextTag x.1 x.2 } }
  let f := r.flush.fork d
  let c := { c with tag := f.1, thr := s.th.slot, core := s.th.core, ctx := s.th.ctx }
  State.netMove f.1 { f.2 with nets := f.2.nets ++ [c], cx := { f.2.cx with use := f.2.cx.use.set 4 (f.2.cx.use[4] + 1) } }

/-- The pool and the scoreboard have room for a network command with n ranges. -/
def NetRoom (s : State) (n : Nat) : Prop := s.poolGrant s.bd 2 = true ∧ s.th.rngs.length + n ≤ 16

/-- A network instruction whose local address and whose field a are good registers its command, or waits for room; else it is the address
trap or the command trap. It is no eddy's. -/
def Nets (i : Instr) (op : Nat) (d : FDst) (ss : List (BitVec 8)) (loc : State → Word) (good : State → Prop) (n : State → NetCmd)
    (rng : State → List (Nat × Nat)) : Prop :=
  (∀ s, CmdReady d ss s → let j := s.joined ss
    (Addr (loc j) → good j → NetRoom j (rng j).length → exec i s = .next (netForked j (n j) (rng j) d).retire) ∧
    (Addr (loc j) → good j → ¬ NetRoom j (rng j).length → exec i s = .next (s.stopped .block)) ∧
    (¬ Addr (loc j) → exec i s = .next (s.stopped (.trap 2 (loc j)))) ∧
    (Addr (loc j) → ¬ good j → exec i s = .next (s.stopped (cmdStop op 1)))) ∧
  NotInEddy i ((true, d.spec) :: ss.map fun a => (false, a)) (BitVec.ofNat 64 op)

/-- A network command that ends as it issues: its word, and no path's figures (R273). -/
def netEnded (s : State) (d : FDst) (w : Word) : State := { s.doneNow d w with th := { (s.doneNow d w).th with net := [] } }

/-- nstat of one of a path's figures. -/
def PathFigure (i : Instr) (d : SDst) (p : SSrc) (f : PathStat → Nat) : Prop :=
  DoesTh i [d.spec] [p.spec] (fun _ => True)
    (fun j => j.put d (BitVec.ofNat 64 (((j.th.net.find? fun x => x.path = (j.n64 p).toNat).map f).getD 0))) ∧
  NotInEddy i [(true, d.spec), (false, p.spec)] 0xB5

end Sys2Proof.Ob

open Sys2Proof.Ob

/-- R271 to R273: nsend, nput and nget register their commands with the fields of their words, and wait for room; ncoll reads its descriptor
first, after its thread's own stores, waits for its page, and completes at once with status access or error where it cannot read it; nstat
writes the counts of a path of the thread's last command, or zero. The status of a descriptor out of range is free (log 19). -/
def Obligations.NetworkCommands : Prop :=
  ∀ (o : Ord) (sp : BitVec 8) (cls : Fin 8) (d : FDst) (e : SDst) (a b c : SReg) (p : SSrc),
    let len (j : State) : Nat := (j.sreg a).toNat / 2 ^ 32
    Nets (.nsend sp cls d a b) 0xB1 d [a.spec, b.spec] (fun j => j.sreg b) (fun _ => True)
      (fun j => { net0 with kind := 0, peers := [(j.sreg a).toNat % 2 ^ 16], q := (j.sreg a).toNat / 2 ^ 32 % 256, len := 64,
                            loc := (j.sreg b).toNat, spray := sp.toNat, cls := cls.val }) (fun _ => []) ∧
    Nets (.nput o sp cls d a b c) 0xB2 d [a.spec, b.spec, c.spec] (fun j => j.sreg c)
      (fun j => len j ≠ 0 ∧ (o = .rel → 8 ≤ len j ∧ ((j.sreg b).toNat + len j) % 8 = 0))
      (fun j => { net0 with kind := 1, peers := [(j.sreg a).toNat % 2 ^ 16], len := len j, remote := (j.sreg b).toNat,
                            loc := (j.sreg c).toNat, rel := decide (o = .rel), spray := sp.toNat, cls := cls.val }) (fun _ => []) ∧
    Nets (.nget o sp cls d a b c) 0xB3 d [a.spec, b.spec, c.spec] (fun j => j.sreg c)
      (fun j => len j ≠ 0 ∧ (o = .acq → 8 ≤ len j ∧ (j.sreg b).toNat % 8 = 0))
      (fun j => { net0 with kind := 2, peers := [(j.sreg a).toNat % 2 ^ 16], len := len j, remote := (j.sreg b).toNat,
                            loc := (j.sreg c).toNat, rel := decide (o = .acq), spray := sp.toNat, cls := cls.val })
      (fun j => [((j.sreg c).toNat, len j)]) ∧
    (∀ s, CmdReady d [a.spec, b.spec] s → let j := s.joined [a.spec, b.spec]
      let u := j.flush
      (¬ Addr (j.sreg a) → exec (.ncoll sp cls d a b) s = .next (s.stopped (.trap 2 (j.sreg a)))) ∧
      (Addr (j.sreg a) →
        (∀ va w, u.opBytes (j.sreg a).toNat 64 = .error (va, .wait w) →
          exec (.ncoll sp cls d a b) s = .next (s.stopped (.miss va false))) ∧
        (∀ va k, u.opBytes (j.sreg a).toNat 64 = .error (va, .fail k) →
          exec (.ncoll sp cls d a b) s = .next (netEnded u d 4).retire) ∧
        ∀ ps desc, u.opBytes (j.sreg a).toNat 64 = .ok (ps, desc) → let r := u.opReadNote ps
          (ps.any r.opPoison = true → exec (.ncoll sp cls d a b) s = .next (netEnded r d 1).retire) ∧
          (ps.any r.opPoison = false → ncollCmd r desc (j.sreg b).toNat sp.toNat cls.val = none →
            exec (.ncoll sp cls d a b) s = .next (netEnded r.fresh.2 d (r.fresh.1 &&& 0xFF)).retire) ∧
          ∀ n, ps.any r.opPoison = false → ncollCmd r desc (j.sreg b).toNat sp.toNat cls.val = some n →
            (NetRoom r 2 → exec (.ncoll sp cls d a b) s = .next (netForked r n [(n.loc, n.len), (n.remote, n.len)] d).retire) ∧
            (¬ NetRoom r 2 → exec (.ncoll sp cls d a b) s = .next (s.stopped .block)))) ∧
    NotInEddy (.ncoll sp cls d a b) [(true, d.spec), (false, a.spec), (false, b.spec)] 0xB4 ∧
    PathFigure (.nstatPkts e p) e p (·.pkts) ∧ PathFigure (.nstatMarks e p) e p (·.marks) ∧
    PathFigure (.nstatRetx e p) e p (·.retx) ∧ PathFigure (.nstatRtt e p) e p (·.rtt)

/-! ### System instructions -/

namespace Sys2Proof.Ob

/-- An instruction of one mode is the mode trap with its op in the other (R277, Table 8-1). -/
def OnlyIn (handler : Bool) (i : Instr) (op : Nat) (ops : List (Bool × BitVec 8)) : Prop :=
  ∀ s, Fresh s → s.present ops = .ok () → s.th.eddy = none → s.th.handler = !handler →
    exec i s = .next (s.stopped (.trap 0x60 (BitVec.ofNat 64 op)))

/-- The numbers of Table 1-4 that task mode may write, and those that handler mode may write besides. -/
def taskWrites : List Nat := [0x004, 0x005, 0x012, 0x018, 0x019, 0x01A, 0x01B, 0x020]
def handlerWrites : List Nat := [0x000, 0x001, 0x002, 0x003, 0x010, 0x011]

end Sys2Proof.Ob

/-- R46, R47, R277: sysr writes the register that Table 1-4 numbers to d, and a number it does not list is the system-register trap. -/
def Sys2Proof.Ob.SystemReads : Prop :=
  ∀ (d : SDst) (a : SSrc),
    (∀ v, DoesTh (.sysr d a) [d.spec] [a.spec] (fun j => j.sysReg (j.n64 a).toNat = some v) (fun j => j.put d v)) ∧
    TrapsTh (.sysr d a) [d.spec] [a.spec] (fun j => j.sysReg (j.n64 a).toNat = none) 0x17 (fun j => j.n64 a) ∧
    NotInEddy (.sysr d a) [(true, d.spec), (false, a.spec)] 0xC0 ∧
    ∀ (s : State), s.sysReg 0 = some s.th.tcause ∧ s.sysReg 1 = some s.th.tval ∧ s.sysReg 2 = some s.th.tepc ∧ s.sysReg 3 = some s.tstat ∧
      s.sysReg 4 = some s.th.tvec ∧ s.sysReg 5 = some s.th.tscratch ∧ s.sysReg 0x10 = some (s.th.wbase.setWidth 64) ∧
      s.sysReg 0x11 = some (BitVec.ofNat 64 s.th.wvalid) ∧ s.sysReg 0x12 = some s.th.wsp ∧ s.sysReg 0x18 = some s.th.lbeg[0] ∧
      s.sysReg 0x19 = some s.th.lend[0] ∧ s.sysReg 0x1A = some s.th.lbeg[1] ∧ s.sysReg 0x1B = some s.th.lend[1] ∧
      s.sysReg 0x20 = some (s.th.flags.setWidth 64) ∧ s.sysReg 0x30 = some s.bd.ccount ∧ s.sysReg 0x31 = some s.th.icount ∧
      s.sysReg 0x40 = some s.th.tid ∧ s.sysReg 0x41 = some (BitVec.ofNat 64 (s.th.ctx % 128)) ∧
      s.sysReg 0x42 = some (match s.bd.heat with | .still => 0 | .breeze => 1 | .gale => 2) ∧ s.sysReg 0x50 = some s.th.tsm ∧
      (∀ n, n ∉ taskWrites → n ∉ handlerWrites → n ∉ [0x30, 0x31, 0x40, 0x41, 0x42, 0x50] → s.sysReg n = none) ∧
      s.tstat.getLsbD 0 = s.th.tpair ∧ s.tstat.getLsbD 1 = s.th.tmem ∧ s.tstat.getLsbD 2 = s.th.handler ∧ s.tstat.getLsbD 3 = s.th.tstep ∧
      s.tstat.getLsbD 4 = s.bd.irq.isSome ∧ s.tstat.getLsbD 5 = !s.th.irqs.isEmpty ∧ s.tstat.toNat < 64

/-- R46, R47: sysw writes the registers that Table 1-4 lets the mode write, tvec only with a legal target; any other number and a value out of
range are the system-register trap with the number, and change nothing. Bits that a register does not have stay zero. -/
def Sys2Proof.Ob.SystemWrites : Prop :=
  ∀ (a b : SSrc),
    let num (j : State) : Nat := (j.n64 a).toNat
    let may (j : State) : Prop := num j ∈ taskWrites ∨ j.th.handler = true ∧ num j ∈ handlerWrites
    (∀ t, DoesTh (.sysw a b) [] [a.spec, b.spec]
      (fun j => may j ∧ (num j = 4 → Lands j (j.n64 b)) ∧ j.th.setSys (num j) (j.n64 b) = some t) (fun j => { j with th := t })) ∧
    TrapsTh (.sysw a b) [] [a.spec, b.spec] (fun j => ¬ may j) 0x17 (fun j => j.n64 a) ∧
    TrapsTh (.sysw a b) [] [a.spec, b.spec] (fun j => num j = 4 ∧ ¬ Lands j (j.n64 b)) 0x17 (fun _ => 4) ∧
    TrapsTh (.sysw a b) [] [a.spec, b.spec] (fun j => may j ∧ num j ≠ 4 ∧ j.th.setSys (num j) (j.n64 b) = none) 0x17 (fun j => j.n64 a) ∧
    NotInEddy (.sysw a b) [(false, a.spec), (false, b.spec)] 0xC1 ∧
    ∀ (t : Thread) (v : Word), t.setSys 0 v = some { t with tcause := v &&& 0x800000000000FFFF } ∧ t.setSys 1 v = some { t with tval := v } ∧
      t.setSys 2 v = some { t with tepc := v } ∧
      t.setSys 3 v = some { t with tpair := v.getLsbD 0, tmem := v.getLsbD 1, tstep := v.getLsbD 3 } ∧
      t.setSys 4 v = some { t with tvec := v } ∧ t.setSys 5 v = some { t with tscratch := v } ∧
      t.setSys 0x10 v = (if v.toNat < 256 then some { t with wbase := v.setWidth 8 } else none) ∧
      t.setSys 0x11 v = (if v.toNat ≤ 224 then some { t with wvalid := v.toNat } else none) ∧
      t.setSys 0x12 v = (if v.toNat % 8 = 0 then some { t with wsp := v } else none) ∧
      t.setSys 0x18 v = some { t with lbeg := t.lbeg.set 0 v } ∧ t.setSys 0x19 v = some { t with lend := t.lend.set 0 v } ∧
      t.setSys 0x1A v = some { t with lbeg := t.lbeg.set 1 v } ∧ t.setSys 0x1B v = some { t with lend := t.lend.set 1 v } ∧
      t.setSys 0x20 v = some { t with flags := v.setWidth 8 }

/-- sysr and sysw (R46, R47, R277). -/
def Obligations.SystemRegisters : Prop := Ob.SystemReads ∧ Ob.SystemWrites

/-- R279, R283 to R285: in handler mode tret and dstep return to tepc, in task mode, dstep with the step armed, unless tepc is no address; trap
in task mode retires and takes the software trap with the PC that would have issued next; dbrk is its own trap with its PC; the wrong mode
is the mode trap, and an eddy is forbidden each of them. -/
def Obligations.TrapsAndReturns : Prop :=
  ∀ (a : SSrc),
    (∀ s, Fresh s → s.th.eddy = none → s.th.handler = true →
      let back (step : Bool) : State := { s with
        th := { s.th with handler := false, pc := s.th.tepc, icount := s.th.icount + 1, tstep := step } }
      (Addr s.th.tepc → exec .tret s = .next (back s.th.tstep) ∧ exec .dstep s = .next (back true)) ∧
      (¬ Addr s.th.tepc → exec .tret s = .next (s.stopped (.trap 2 s.th.tepc)) ∧ exec .dstep s = .next (s.stopped (.trap 2 s.th.tepc)))) ∧
    (∀ s, Ready [] [a.spec] s → s.th.eddy = none → s.th.handler = false → let j := s.joined [a.spec]
      let r := loopTest j.th.lc j.th.lbeg j.th.lend [j.th.pc] (nextPc j.th.pc j.iss.pair)
      exec (.trap a) s = .next (State.takeTrap 0x63 (j.i64 a) r.2 false false
        { j with th := { j.th with lc := r.1, icount := j.th.icount + 1 } })) ∧
    (∀ s, Fresh s → s.th.eddy = none → exec .dbrk s = .next (s.stopped (.trap 0x64 s.th.pc))) ∧
    OnlyIn true .tret 0xC2 [] ∧ OnlyIn true .dstep 0xD4 [] ∧ OnlyIn false (.trap a) 0xC3 [(false, a.spec)] ∧
    NotInEddy .tret [] 0xC2 ∧ NotInEddy .dstep [] 0xD4 ∧ NotInEddy (.trap a) [(false, a.spec)] 0xC3 ∧ NotInEddy .dbrk [] 0xD3

/-- R286 to R291, R305, R307: pre-emption hints with the checks of their descriptor line, heat requests, the notice word, marks and the size of
a save record. None of them is an eddy's. -/
def Obligations.HintsAndHeat : Prop :=
  ∀ (off : W32) (p : Fin 8) (d : SDst) (a : SSrc),
    let at_ (s : State) : Word := ((s.th.pc >>> 6) + off.signExtend 64) <<< 6
    (∀ s, Fresh s → s.th.eddy = none → (∀ l, s.th.wait ≠ some (.hint l)) →
      (∀ e, s.hintLine (at_ s) = .error e → exec (.phintPt off) s = .next (s.stopped e)) ∧
      ∀ l, s.hintLine (at_ s) = .ok l →
        exec (.phintPt off) s = .next (if s.swapAsked && !s.th.handler then s.park (.hint l) else s.retire)) ∧
    (∀ s l, Fresh s → s.th.eddy = none → s.th.wait = some (.hint l) → exec (.phintPt off) s = .next s.retire) ∧
    (∀ (s : State) (w : Word), (s.lineAt w = none → s.hintLine w = trapW 1 w) ∧
      ∀ pa, s.lineAt w = some pa → let l := lineOf s.mem pa
        let b := s.mem.bytes pa 60
        let good := l.pair = 15 ∧ l.word.toNat / 2 ^ 10 % 32 = 0 ∧ hintBad b = false
        (l.lwpOk = false → s.hintLine w = trapW 0x11 w) ∧ (l.lwpOk = true → ¬ good → s.hintLine w = trapW 0x62 w) ∧
        (l.lwpOk = true → good → s.hintLine w = .ok b)) ∧
    DoesTh (.phintTest p) [specOf 0xB8 p] [] (fun _ => True) (fun j => j.setP p j.swapAsked) ∧
    (∀ s, Fresh s → s.th.eddy = none →
      exec .heatAck s = .next (if s.bd.notice ≠ 0 ∧ s.bd.notice.getLsbD 63 = false then
        { s with bd := { s.bd with notice := s.bd.notice ||| 0x8000000000000000, irq := s.bd.irq.map fun w => w ||| 0x8000000000000000 } }
        else s).retire ∧
      exec .heatUncap s = .next ({ s with bd := { s.bd with cap := 8 } }).retire) ∧
    DoesTh (.heatCap a) [] [a.spec] (fun j => 1 ≤ (j.n64 a).toNat ∧ (j.n64 a).toNat ≤ 8)
      (fun j => { j with bd := { j.bd with cap := (j.n64 a).toNat } }) ∧
    TrapsTh (.heatCap a) [] [a.spec] (fun j => (j.n64 a).toNat = 0 ∨ 8 < (j.n64 a).toNat) 0x17 (fun _ => 0) ∧
    DoesTh (.hnote d) [d.spec] [] (fun _ => True) (fun j => j.put d (j.noticeNow j.bd.notice)) ∧
    (∀ (s : State) (w : Word), s.noticeNow w =
      (w &&& 0xFFFF00000000FFFF#64) ||| BitVec.ofNat 64 ((s.bd.due - s.iod) % 2 ^ 32 * 2 ^ 16)) ∧
    DoesTh (.cmark d a) [d.spec] [a.spec] (fun _ => True)
      (fun j => (j.put d j.bd.ccount).record 6 (j.i64 a).toNat (leBytes j.bd.ccount.toNat 8)) ∧
    DoesTh (.svsize d a) [d.spec] [a.spec] (fun _ => True) (fun j => j.put d (BitVec.ofNat 64 (classOff j.th.wvalid (j.n64 a).toNat 8))) ∧
    (∀ v m : Nat, classOff v m 8 = 64 + (((List.range 8).filter fun k => m.testBit k).map fun k =>
      (([264, 16 + 8 * v, 64, 3072, 3072, 97, 48, 56] : List Nat).getD k 0 + 63) / 64 * 64).sum) ∧
    NotInEddy (.phintPt off) [] 0xC4 ∧ NotInEddy (.phintTest p) [(true, specOf 0xB8 p)] 0xC4 ∧ NotInEddy .heatAck [] 0xC5 ∧
    NotInEddy .heatUncap [] 0xC5 ∧ NotInEddy (.heatCap a) [(false, a.spec)] 0xC5 ∧ NotInEddy (.hnote d) [(true, d.spec)] 0xD6 ∧
    NotInEddy (.cmark d a) [(true, d.spec), (false, a.spec)] 0xD5 ∧ NotInEddy (.svsize d a) [(true, d.spec), (false, a.spec)] 0xD2

namespace Sys2Proof.Ob

/-- What a system instruction with a future begins with. -/
def SysCmd (mode : Option Bool) (d : FDst) (ss : List (BitVec 8)) (s : State) : Prop := CmdReady d ss s ∧ ∀ m, mode = some m → s.th.handler = m

/-- An operation of the IOD enters its queue, with its future, the thread's stores before it performed. -/
def Asks (i : Instr) (mode : Option Bool) (d : FDst) (ss : List (BitVec 8)) (c : State → Prop) (f : State → State) (op : State → WOp) : Prop :=
  ∀ s, SysCmd mode d ss s → let j := s.joined ss
    c j → exec i s = .next ({ ((f j).flush.fork d).2 with
      wops := ((f j).flush.fork d).2.wops ++ [(⟨(f j).nextTag, j.th.key, op j⟩ : WReq)] }).retire

/-- Such an instruction stops before any effect. -/
def SysStops (i : Instr) (mode : Option Bool) (d : FDst) (ss : List (BitVec 8)) (c : State → Stop → Prop) : Prop :=
  ∀ s e, SysCmd mode d ss s → c (s.joined ss) e → exec i s = .next (s.stopped e)

/-- It is no eddy's, and, where it is handler mode's, the mode trap in task mode. -/
def SysGates (i : Instr) (op : Nat) (mode : Option Bool) (d : FDst) (ss : List (BitVec 8)) : Prop :=
  NotInEddy i ((true, d.spec) :: ss.map fun a => (false, a)) (BitVec.ofNat 64 op) ∧
  (mode = some true → OnlyIn true i op ((true, d.spec) :: ss.map fun a => (false, a)))

/-- What a svsave of a record leaves at the places it could reach: the window, or the page, as its first byte lies in it. -/
def saved (u : State) (ps : List Spot) (record : List Byte) : State :=
  let cells := (ps.zip record).map fun x => (x.1.pa, x.2, (0xFF : Byte))
  let v := if cells = [] then u else u.store (ps.head?.any fun p => p.win) cells false .core none
  v.noteWrite ((ps.filter fun p => !p.win).map fun p => p.va)

/-- The entries that a record's window class says: none where the class is not in the record. -/
def WindowCount (j : State) (a : Word) (m v : Nat) : Prop :=
  (m.testBit 1 = false ∧ v = 0) ∨
  (m.testBit 1 = true ∧ ∃ x, j.loadBytes (a + BitVec.ofNat 64 (classOff 0 m 1)) 16 = .ok (some x) ∧ fieldAt x.1 8 8 = v)

/-- A bank of the upper vector registers that a record's mask names is touched. -/
def upper (m : Nat) (s : State) : State := if m.testBit 4 then s.wakeRegs [0x60] else s

end Sys2Proof.Ob

open Sys2Proof.Ob

/-- R305: in handler mode svsave writes the record of the classes of its mask, to the end, with status ok, or up to the first byte that cannot be
written, with status access; it waits for the registers that are pending. svload checks a record's header and reads the classes back, with
status ok, or changes nothing, with status access where it cannot be read and 0x20 where it is none of the mask's. A mask beyond the eight
classes completes with 0x20. -/
def Obligations.SaveRecords : Prop :=
  ∀ (d : FDst) (a b : SSrc),
    let save := Instr.svsave d a b
    let load := Instr.svload d a b
    SysGates save 0xD0 (some true) d [a.spec, b.spec] ∧ SysGates load 0xD1 (some true) d [a.spec, b.spec] ∧
    ∀ s, SysCmd (some true) d [a.spec, b.spec] s → let j := s.joined [a.spec, b.spec]
      let va := j.n64 a
      let m := (j.n64 b).toNat
      (¬ Addr va → exec save s = .next (s.stopped (.trap 2 va)) ∧ exec load s = .next (s.stopped (.trap 2 va))) ∧
      (Addr va → 256 ≤ m → exec save s = .next (j.doneNow d 0x20).retire ∧ exec load s = .next (j.doneNow d 0x20).retire) ∧
      (Addr va → m < 256 → m.testBit 4 = true → j.hasUpper = false →
        exec save s = .next (s.stopped (.trap 3 0x60)) ∧ exec load s = .next (s.stopped (.trap 3 0x60))) ∧
      (Addr va → m < 256 → (m.testBit 4 = true → j.hasUpper = true) →
        (j.th.savePending m = true → exec save s = .next (s.stopped .block)) ∧
        (j.th.savePending m = false → let u := upper m j
          let rec_ := u.saveRecord m
          (∀ e, u.scoreboard va.toNat rec_.length = .error e → exec save s = .next (s.stopped e)) ∧
          (u.scoreboard va.toNat rec_.length = .ok () →
            (∀ ps e, u.byteSpots va true rec_.length = (ps, some e) → e.isTrap = false → exec save s = .next (s.stopped e)) ∧
            (∀ ps e, u.byteSpots va true rec_.length = (ps, some e) → e.isTrap = true →
              exec save s = .next (State.doneNow d 4 (saved u ps rec_)).retire) ∧
            ∀ ps, u.byteSpots va true rec_.length = (ps, none) → exec save s = .next (State.doneNow d 0 (saved u ps rec_)).retire)) ∧
        (∀ e, j.loadBytes va 64 = .error e → exec load s = .next (s.stopped e)) ∧
        (j.loadBytes va 64 = .ok none → exec load s = .next (j.doneNow d 4).retire) ∧
        ∀ h, j.loadBytes va 64 = .ok (some h) →
          (∀ e, m.testBit 1 = true → j.loadBytes (va + BitVec.ofNat 64 (classOff 0 m 1)) 16 = .error e → exec load s = .next (s.stopped e)) ∧
          (m.testBit 1 = true → j.loadBytes (va + BitVec.ofNat 64 (classOff 0 m 1)) 16 = .ok none →
            exec load s = .next (j.doneNow d 4).retire) ∧
          ∀ v, WindowCount j va m v → let size := classOff v m 8
            let head := fieldAt h.1 0 8 = m ∧ v ≤ 224 ∧ fieldAt h.1 8 8 = size
            (¬ head → exec load s = .next (j.doneNow d 0x20).retire) ∧
            (∀ e, head → j.loadBytes va size = .error e → exec load s = .next (s.stopped e)) ∧
            (head → j.loadBytes va size = .ok none → exec load s = .next (j.doneNow d 4).retire) ∧
            ∀ r, head → j.loadBytes va size = .ok (some r) →
              let u := upper m (r.2.foldl (fun (s : State) p => s.noteRead p 1) j)
              exec load s = .next (State.doneNow d 0 { u with
                th := (loadOrder m).foldl (fun t k => t.loadClass r.1 (classOff v m k) k) u.th }).retire)

namespace Sys2Proof.Ob

/-- The warrant trap: slot and reason (R301). -/
def warStop (n : Fin 8) (reason : Nat) : Stop := .trap 0x61 (BitVec.ofNat 64 (n.val + 256 * reason))

/-- An address for a record: below 2⁵⁶, on a 64-byte boundary, in the window or on a raw page; or the trap of what it is not. -/
def RawAddr (j : State) (w : Word) : Prop := Addr w ∧ w.toNat % 64 = 0 ∧
  (isWin w.toNat = false → ∀ e, j.cx.pte? w.toNat = some e → attrRaw e.attr = true)
def NotRaw (j : State) (w : Word) (n : Fin 8) (e : Stop) : Prop :=
  (¬ Addr w ∧ e = .trap 2 w) ∨ (Addr w ∧ ¬ RawAddr j w ∧ e = warStop n 5)

/-- The word of a slot instruction is good in a context that does not surrender; or the trap. -/
def SlotWord (j : State) (w mask : Word) : Prop := j.cx.surr = false ∧ w &&& ~~~mask = 0
def NoSlotWord (j : State) (w mask : Word) (e : Stop) : Prop :=
  (j.cx.surr = true ∧ e = warStop (slotS w) 6) ∨ (j.cx.surr = false ∧ w &&& ~~~mask ≠ 0 ∧ e = warStop (slotS w) 4)

end Sys2Proof.Ob

/-- R292 to R296, R301: the warrant instructions enter their operation with their future, marking the slot they change busy, where nothing stands
against the slots and addresses they name; each condition of R301 that fails is its trap, in the order of the rule. -/
def Sys2Proof.Ob.WarrantCommands : Prop :=
  ∀ (d : FDst) (a b : SSrc),
    let w (j : State) : Word := j.n64 b
    let busy (j : State) (n : Fin 8) : Prop := j.cx.ws[n].busy = true
    let st (j : State) (n : Fin 8) : WState := j.cx.ws[n].st
    Asks (.wpres d a b) none d [a.spec, b.spec] (fun j => RawAddr j (j.n64 a) ∧ (w j ≠ 0 → RawAddr j (w j))) (fun j => j)
      (fun j => .pres (j.n64 a) (w j)) ∧
    SysStops (.wpres d a b) none d [a.spec, b.spec] (fun j e => NotRaw j (j.n64 a) 0 e ∨
      (RawAddr j (j.n64 a) ∧ w j ≠ 0 ∧ NotRaw j (w j) 0 e)) ∧
    (let s (j : State) : Fin 8 := slotS (w j)
     let t (j : State) : Fin 8 := slotT (w j)
     let idle (j : State) : Prop := SlotWord j (w j) 0x707 ∧ ¬ busy j (t j) ∧ ¬ busy j (s j)
     let room (j : State) : Prop := t j ≠ 0 ∧ st j (t j) = .empty
     let source (j : State) : Prop := st j (s j) = .funding ∨ st j (s j) = .held
     Asks (.wsplit d a b) none d [a.spec, b.spec] (fun j => idle j ∧ room j ∧ source j ∧ RawAddr j (j.n64 a))
       (fun j => j.setBusy (t j)) (fun j => .split (s j) (t j) (j.n64 a)) ∧
     SysStops (.wsplit d a b) none d [a.spec, b.spec] (fun j e => NoSlotWord j (w j) 0x707 e ∨
       (SlotWord j (w j) 0x707 ∧ busy j (t j) ∧ e = warStop (t j) 3) ∨
       (SlotWord j (w j) 0x707 ∧ ¬ busy j (t j) ∧ busy j (s j) ∧ e = warStop (s j) 3) ∨
       (idle j ∧ ¬ room j ∧ e = warStop (t j) 2) ∨ (idle j ∧ room j ∧ ¬ source j ∧ e = warStop (s j) 1) ∨
       (idle j ∧ room j ∧ source j ∧ NotRaw j (j.n64 a) (s j) e))) ∧
    (let t (j : State) : Fin 8 := slotS (w j)
     let idle (j : State) : Prop := SlotWord j (w j) 7 ∧ ¬ busy j (t j)
     Asks (.wdeleg d a b) none d [a.spec, b.spec] (fun j => idle j ∧ st j (t j) = .held ∧ RawAddr j (j.n64 a))
       (fun j => j.setBusy (t j)) (fun j => .deleg (t j) (j.n64 a)) ∧
     SysStops (.wdeleg d a b) none d [a.spec, b.spec] (fun j e => NoSlotWord j (w j) 7 e ∨
       (SlotWord j (w j) 7 ∧ busy j (t j) ∧ e = warStop (t j) 3) ∨ (idle j ∧ st j (t j) ≠ .held ∧ e = warStop (t j) 1) ∨
       (idle j ∧ st j (t j) = .held ∧ NotRaw j (j.n64 a) (t j) e))) ∧
    (let t (j : State) : Fin 8 := slotS (j.n64 a)
     let idle (j : State) : Prop := SlotWord j (j.n64 a) 7 ∧ ¬ busy j (t j)
     Asks (.wsurr d a) none d [a.spec] (fun j => idle j ∧ (t j ≠ 0 → st j (t j) = .held)) (fun j => j.setBusy (t j)) (fun j => .surr (t j)) ∧
     SysStops (.wsurr d a) none d [a.spec] (fun j e => NoSlotWord j (j.n64 a) 7 e ∨
       (SlotWord j (j.n64 a) 7 ∧ busy j (t j) ∧ e = warStop (t j) 3) ∨ (idle j ∧ t j ≠ 0 ∧ st j (t j) ≠ .held ∧ e = warStop (t j) 1))) ∧
    SysGates (.wpres d a b) 0xC6 none d [a.spec, b.spec] ∧ SysGates (.wsplit d a b) 0xC7 none d [a.spec, b.spec] ∧
    SysGates (.wdeleg d a b) 0xC8 none d [a.spec, b.spec] ∧ SysGates (.wsurr d a) 0xC9 none d [a.spec]

namespace Sys2Proof.Ob

/-- A query of a slot: its answer, or the warrant trap where its word names something that is none (R299). -/
def Queries (i : Instr) (d : SDst) (a : SSrc) (kinds : Bool) (f : State → Fin 8 → Fin 8 → Word) : Prop :=
  let good (j : State) : Prop := j.n64 a &&& ~~~0x707#64 = 0 ∧ (kinds = true → (slotT (j.n64 a)).val < 5)
  DoesTh i [d.spec] [a.spec] good (fun j => j.put d (f j (slotS (j.n64 a)) (slotT (j.n64 a)))) ∧
  TrapsTh i [d.spec] [a.spec] (fun j => ¬ good j) 0x61 (fun j => BitVec.ofNat 64 ((slotS (j.n64 a)).val + 0x400)) ∧
  NotInEddy i [(true, d.spec), (false, a.spec)] 0xCA

/-- A part of the bounds of operator time, all ones where none is proved; it is an input, which a capture records and a replay answers. -/
def Times (i : Instr) (d : SDst) (f : Nat × Nat × Nat → Nat) : Prop :=
  let word (j : State) : Word := match j.bound j.cx.kslot with | some x => BitVec.ofNat 64 (f x) | none => BitVec.allOnes 64
  DoesTh i [d.spec] [] (fun _ => True) (fun j => (j.wordOf (word j)).2.put d (j.wordOf (word j)).1) ∧ NotInEddy i [(true, d.spec)] 0xCB

end Sys2Proof.Ob

open Sys2Proof.Ob

/-- R299, R300: the queries of a slot and the bounds of operator time, all ones where no bound is proved. -/
def Sys2Proof.Ob.WarrantQueries : Prop :=
  ∀ (d : SDst) (a : SSrc),
    Queries (.wqryState d a) d a false (fun j n _ => BitVec.ofNat 64
      ((if j.cx.ws[n].busy then 4 else match j.cx.ws[n].st with | .empty => 0 | .funding => 1 | .held => 2 | .delegated _ => 3) +
        256 * (j.cx.cls % 8) + if j.cx.surr then 2 ^ 16 else 0)) ∧
    Queries (.wqryAmt d a) d a true (fun j n k => BitVec.ofNat 64 (if n = 0 then j.cx.quota[k] else j.cx.ws[n].amt[k])) ∧
    Queries (.wqryUsed d a) d a true (fun j n k => if n = 0 then BitVec.ofNat 64 (j.cx.u k) else 0) ∧
    Queries (.wqrySerial d a) d a false (fun j _ _ => BitVec.ofNat 64 j.cx.serial) ∧
    Queries (.wqryCtx d a) d a false (fun j n _ =>
      match j.cx.ws[n].st with | .delegated c => BitVec.ofNat 64 c | _ => BitVec.allOnes 64) ∧
    Queries (.wqryArg d a) d a false (fun j _ _ => j.cx.arg) ∧
    Times (.wtimeLo d) d (fun x => x.1) ∧ Times (.wtimeHi d) d (fun x => x.2.1) ∧ Times (.wtimeAge d) d (fun x => x.2.2) ∧
    ∀ (s : State) (w : Word), s.cx.capture = false → s.cx.replay = none → s.wordOf w = (w, s)

/-- The warrant instructions (R292 to R301). -/
def Obligations.WarrantInstructions : Prop := Ob.WarrantCommands ∧ Ob.WarrantQueries

/-- R302 to R304: xprobe writes the translation word of an address, 3 where nothing maps it, and 0x80000003, with a machine-check, where its
entries are malformed; in handler mode the translation commands enter their operation with their future, an address at or above 2⁵⁶ being
the address trap; task mode is the mode trap. -/
def Obligations.TranslationCommands : Prop :=
  ∀ (d : FDst) (e : SDst) (a b c : SSrc),
    (let va (j : State) : Nat := (j.n64 a).toNat
     let out (j : State) : Prop := 2 ^ 56 ≤ va j ∨ isWin (va j) = true
     let bad (j : State) : Prop := j.walkPoison (va j) = true ∨ ∃ p, j.cx.pte? (va j) = some p ∧ p.malformed = true
     DoesTh (.xprobe e a) [e.spec] [a.spec] out (fun j => j.put e 3) ∧
     DoesTh (.xprobe e a) [e.spec] [a.spec] (fun j => ¬ out j ∧ bad j) (fun j => (j.mcheck 2 j.cx.id (va j)).put e 0x80000003) ∧
     DoesTh (.xprobe e a) [e.spec] [a.spec] (fun j => ¬ out j ∧ ¬ bad j) (fun j => j.put e
       (match j.cx.pte? (va j) with | some p => p.probe | none => 3)) ∧
     NotInEddy (.xprobe e a) [(true, e.spec), (false, a.spec)] 0xCD) ∧
    (let far (j : State) (x : Stop) : Prop := ¬ Addr (j.n64 a) ∧ x = .trap 2 (j.n64 a)
     Asks (.xinv d a b) (some true) d [a.spec, b.spec] (fun j => Addr (j.n64 a)) (fun j => j) (fun j => .xinv (j.n64 a) (j.n64 b)) ∧
     SysStops (.xinv d a b) (some true) d [a.spec, b.spec] far ∧ SysGates (.xinv d a b) 0xCC (some true) d [a.spec, b.spec] ∧
     Asks (.xmapNew d a b c) (some true) d [a.spec, b.spec, c.spec] (fun j => Addr (j.n64 a)) (fun j => j)
       (fun j => .xnew (j.n64 a) (j.n64 b) (j.n64 c)) ∧
     SysStops (.xmapNew d a b c) (some true) d [a.spec, b.spec, c.spec] far ∧
     SysGates (.xmapNew d a b c) 0xCE (some true) d [a.spec, b.spec, c.spec] ∧
     Asks (.xmapAttr d a b c) (some true) d [a.spec, b.spec, c.spec] (fun j => Addr (j.n64 a)) (fun j => j)
       (fun j => .xattr (j.n64 a) (j.n64 b) (j.n64 c)) ∧
     SysStops (.xmapAttr d a b c) (some true) d [a.spec, b.spec, c.spec] far ∧
     SysGates (.xmapAttr d a b c) 0xCE (some true) d [a.spec, b.spec, c.spec] ∧
     Asks (.xunmap d a b) (some true) d [a.spec, b.spec] (fun j => Addr (j.n64 a)) (fun j => j) (fun j => .xunmap (j.n64 a) (j.n64 b)) ∧
     SysStops (.xunmap d a b) (some true) d [a.spec, b.spec] far ∧ SysGates (.xunmap d a b) 0xCF (some true) d [a.spec, b.spec])

/-! ### Events of the memory system and of the fabric -/

namespace Sys2Proof.Ob

/-- A store has to wait (R343 to R345, R348): an earlier store of its party is to its line, or it is a release and one is on its way, or its
thread has read one; or a write that its clock names is not applied. -/
def StoreWaits (k : Nat) (r : Req) (s : State) : Prop :=
  (∃ q ∈ s.reqs.take k, q.who.party = r.who.party ∧ q.isStore = true ∧
    (r.rel = true ∨ q.pa / 64 = r.pa / 64 ∨ (r.ord = true ∧ q.seen = true))) ∨
  ∃ q, r.clk = some q ∧ noHome r.pa = false ∧ ∃ i : Fin 6, 2 ^ 39 ≤ ((s.die (home r.pa / 16)).clock[i] - q[i]).toNat

/-- The frame at a request's address belongs to another key ID than it carries (R412). -/
def WrongKey (r : Req) (s : State) : Prop := ∃ f ∈ s.frames, f.base ≤ r.pa ∧ r.pa < f.base + f.size ∧ f.key ≠ r.key

/-- Something stands behind the address: a tier, the host link or a device register (R18). -/
def Behind (pa : Nat) : Prop := pa < 384 * 10 ^ 9 ∨ (tier2 ≤ pa ∧ pa < tier2 + 2 ^ 42) ∨ deviceRegs ≤ pa

/-- The answer takes the place of the request. -/
def answered (k : Nat) (r : Req) (body : ReqBody) (s : State) : State := { s with reqs := s.reqs.set k { r with body } }
def taken (k : Nat) (s : State) : State := { s with reqs := s.reqs.eraseIdx k }

/-- The leaf through which a context reaches a physical address, and the virtual address there. -/
def vaOf (s : State) (pa : Nat) : Nat :=
  ((s.cx.ptes.find? fun e => e.state != 1 && e.phys e.va ≤ pa && pa < e.phys e.va + e.size).map fun e => e.va + (pa - e.phys e.va)).getD 0

end Sys2Proof.Ob

/-- R342 to R345, R348, R412, R18: a home slice performs a store once the party's earlier stores to its line, for a release all of them, and
the writes its clock names are performed, and acknowledges it with its position in the coherence order; a request under another key ID
is answered with status access and logged, one to an address nothing stands behind with status error (R18). It answers a read, once the
party's earlier writes to the bytes are performed, with the bytes and their poison; an atomic with the old value or its position; a
probe with an echo once the party's stores that it homes are performed. R260, R261: an echo lowers the count a fence waits for; the data
of an atomic reach its thread and make it remember the slice, poison in them is its access trap; the data of a peer's read, and the
last acknowledgement of its writes, reach the peer. Where no such request stands, nothing happens. -/
def Obligations.HomeSliceEvents : Prop :=
  (∀ (k : Nat) (r : Req) (s : State), s.reqs[k]? = some r →
    (∀ c, r.body = .write c →
      (StoreWaits k r s → exec (.writeReq k) s = .next s) ∧
      (¬ StoreWaits k r s → ¬ Behind r.pa → exec (.writeReq k) s = .next (answered k r (.ack 0 1) s)) ∧
      (¬ StoreWaits k r s → Behind r.pa → WrongKey r s →
        exec (.writeReq k) s = .next (answered k r (.ack 0 4) (s.mcheck 3 r.ctx r.pa))) ∧
      (¬ StoreWaits k r s → Behind r.pa → ¬ WrongKey r s →
        let t := s.performReq r
        exec (.writeReq k) s = .next (answered k r (.ack (if noHome r.pa then 0 else
          ((t.die (home r.pa / 16)).clock[t.siteOf r.who]).toNat) 0) t))) ∧
    (∀ fn ty rnd b c ret, r.body = .amo fn ty rnd b c ret →
      let x := s.performAmo (s.siteOf r.who) r.pa fn ty rnd b c
      let wrote := (amoNew fn ty rnd x.1 b.toNat c.toNat).isSome
      let u := (if wrote then x.2.updCx r.ctx (Context.touchPhys r.pa) else x.2).spoiled r
      (WrongKey r s →
        exec (.atomicReq k) s = .next (answered k r (if ret then .data [] 4 else .ack 0 4) (s.mcheck 3 r.ctx r.pa))) ∧
      (¬ WrongKey r s → StoreWaits k r s → exec (.atomicReq k) s = .next s) ∧
      (¬ WrongKey r s → ¬ StoreWaits k r s → ¬ Behind r.pa →
        exec (.atomicReq k) s = .next (answered k r (if ret then .data [] 1 else .ack 0 1) s)) ∧
      (¬ WrongKey r s → ¬ StoreWaits k r s → Behind r.pa →
        exec (.atomicReq k) s = .next (answered k { r with wrote }
          (if ret then .data (leBytes x.1 (ty.width / 8)) 0 else .ack (u.position r) 0) u))) ∧
    (∀ n, r.body = .read n →
      let waits := ∃ q ∈ s.reqs.take k, q.who.party = r.who.party ∧ ∃ c ∈ q.cells, r.pa ≤ c.1 ∧ c.1 < r.pa + n
      (waits → exec (.readReq k) s = .next s) ∧
      (¬ waits → WrongKey r s → exec (.readReq k) s = .next (answered k r (.data [] 4) (s.mcheck 3 r.ctx r.pa))) ∧
      (¬ waits → ¬ WrongKey r s → ∀ st, ((poisoned s.poison r.pa n = true ∨ ¬ Behind r.pa) ∧ st = 1) ∨
          (poisoned s.poison r.pa n = false ∧ Behind r.pa ∧ st = 0) →
        exec (.readReq k) s = .next (answered k r (.data ((List.range n).map fun i => s.memByte (r.pa + i)) st)
          (s.touchLines false r.pa n)))) ∧
    (r.body = .probe →
      let waits := ∃ q ∈ s.reqs.take k, q.who.party = r.who.party ∧ q.isStore = true ∧ noHome q.pa = false ∧ home q.pa = r.pa
      (waits → exec (.probeReq k) s = .next s) ∧ (¬ waits → exec (.probeReq k) s = .next (answered k r .echo s))) ∧
    (r.body = .echo →
      (∀ w t n, r.who = .thr w → s.thread? w = some t → t.wait = some (.echoes (n + 1)) →
        exec (.echoReq k) s = .next ((taken k s).updTh w Thread.echoed) ∧ t.echoed = { t with wait := some (.echoes n) }) ∧
      (∀ w, r.who = .save w →
        exec (.echoReq k) s = .next ((taken k s).updTh w fun t => { t with probe := t.probe.map fun n => n - 1 }))) ∧
    (∀ b p, r.body = .data b p →
      (∀ w, r.who = .thr w → p = 0 → exec (.dataReq k) s = .next ((taken k s).updTh w (Thread.gotValue r (leWord b)))) ∧
      (∀ w t x, r.who = .thr w → p ≠ 0 → s.thread? w = some t → t.wait = some (.value x) →
        let f := (taken k s).focus w
        exec (.dataReq k) s = .next (f.takeTrap 1 (BitVec.ofNat 64 (vaOf f r.pa)) f.th.pc false false)) ∧
      (∀ a off, r.who = .peer a off →
        exec (.dataReq k) s = .next ((taken k s).out (if p = 0 then .reply a off b else .netStatus a p)))) ∧
    (∀ n e, r.body = .ack n e →
      (∀ w, r.who = .thr w → exec (.ackReq k) s = .next ((taken k s).updTh w (Thread.didWrite r))) ∧
      (∀ a off, r.who = .peer a off → e ≠ 0 → exec (.ackReq k) s = .next ((taken k s).out (.netStatus a e))) ∧
      (∀ a off, r.who = .peer a off → e = 0 → (∃ q ∈ (taken k s).reqs, q.who = r.who) →
        exec (.ackReq k) s = .next (taken k s)) ∧
      (∀ a off, r.who = .peer a off → e = 0 → (∀ q ∈ (taken k s).reqs, q.who ≠ r.who) →
        exec (.ackReq k) s = .next ((taken k s).out (.netStatus a 0))))) ∧
  (∀ (r : Req) (v : Word) (t : Thread), t.wait = some (.value none) →
    (t.gotValue r v).wait = some (.value (some v)) ∧
    (noHome r.pa = false → (t.gotValue r v).rsm = t.rsm ||| (1#64 <<< home r.pa)) ∧
    (noHome r.pa = false → (t.gotValue r v).tsm = if r.wrote then t.tsm ||| (1#64 <<< home r.pa) else t.tsm)) ∧
  (∀ (k : Nat) (s : State), s.reqs[k]? = none →
    exec (.readReq k) s = .next s ∧ exec (.writeReq k) s = .next s ∧ exec (.atomicReq k) s = .next s ∧ exec (.probeReq k) s = .next s ∧
    exec (.echoReq k) s = .next s ∧ exec (.dataReq k) s = .next s ∧ exec (.ackReq k) s = .next s)

namespace Sys2Proof.Ob

/-- How a receiver stands to a message: what its task's state and its own room say (R255, R256, R413). A mailbox record of the task that is
not held goes before any direct message. -/
def Refused (s : State) (m : Msg) (direct : Bool) (reason : Nat) : Prop :=
  ((∀ x, s.cx? m.src.ctx = some x → x.task? (dstTask m.dst) = none) ∧ reason = 3) ∨
  ∃ x t, s.cx? m.src.ctx = some x ∧ x.task? (dstTask m.dst) = some t ∧
    let older := direct = true ∧ ∃ r ∈ x.mail, r.held = false ∧ dstTask r.dst = dstTask m.dst
    let k := t.thread m.src.ctx m.dst
    (((t.st = .waiting ∨ t.st = .saved) ∧ reason = 1) ∨ (t.st = .saving ∧ reason = 2) ∨ ((∃ z, t.st = .done z) ∧ reason = 3) ∨
     (t.st = .placed ∧ (older ∨ s.bind? k.core k.ctx = none) ∧ reason = 1) ∨
     (t.st = .placed ∧ ¬ older ∧ s.bind? k.core k.ctx ≠ none ∧ s.thread? k = none ∧ reason = 3))

/-- The receiver is there; it has room where its g register holds no future, or where its core may have one more message cell. -/
def Receiver (s : State) (m : Msg) (direct : Bool) (k : TKey) (room : Prop) : Prop :=
  ∃ x t th b, s.cx? m.src.ctx = some x ∧ x.task? (dstTask m.dst) = some t ∧ t.st = .placed ∧ k = t.thread m.src.ctx m.dst ∧
    (direct = true → ∀ r ∈ x.mail, r.held = false → dstTask r.dst ≠ dstTask m.dst) ∧ s.thread? k = some th ∧ s.bind? k.core k.ctx = some b ∧
    (room ↔ match m.greg with | some g => (∀ r, th.g.toList[g]? = some r → r.fut = none) | none => s.poolGrant b 3 = true)

/-- What delivery does: the message joins the thread's queue, or its word the g register, and the event latch is set; poisoned data end the
receiver's task (log 48). -/
def delivered (k : TKey) (m : Msg) (s : State) : State :=
  if m.pois then (s.mcheck 11 k.ctx k.core).failTask k.ctx (((s.thread? k).map (·.task)).getD 0) 0x44 else s.updTh k (Thread.receive m)

/-- The context's mailbox without one record, whose 128 bytes it no longer counts. -/
def mailLess (ctx : Nat) (rest : List Msg) (s : State) : State :=
  s.updCx ctx fun x => { x with mail := rest, use := x.use.set 3 (x.use[3] - 128) }

end Sys2Proof.Ob

/-- R432, R433, R440: a link word passes one core more, or fills its receiver's empty register, and waits while that is full or the task is
out; a window update is held by the row. R264, R265: an arrival is counted at its core, a release takes effect and goes on, and both
wait while the task is out. R269, R438: a gang's words join its member's queue in the order sent, and lapse where there is none. R254 to
R258, R413, R414, R436: a message with room for it takes effect at its receiver, its word lands and the next of its pair leaves; one
without room waits; one whose receiver is out or gone is refused with its reason; a refused one becomes a mailbox record, waits for
room in the mailbox, or is dropped with status 2; the mailbox delivers the oldest record that can be, and drops one whose receiver is
gone. -/
def Obligations.FabricEvents : Prop :=
  (∀ (k : Nat) (s : State),
    (∀ d c east w n, s.pkts[k]? = some (.link d c east w (n + 1)) →
      exec (.linkWord k) s = .next { s with pkts := s.pkts.set k (.link d c east w n) }) ∧
    (∀ d c (east : Bool) w, s.pkts[k]? = some (.link d c east w 0) →
      let ready := (s.core? d).holder = some c ∧ (s.bind? d c).isSome = true ∧
        (if east then (s.core? d).lnkw = none else (s.core? d).lnke = none)
      (ready → exec (.linkWord k) s = .next (State.updCore d
        (fun x => if east then { x with lnkw := some w } else { x with lnke := some w }) { s with pkts := s.pkts.eraseIdx k })) ∧
      (¬ ready → exec (.linkWord k) s = .next s)) ∧
    (∀ p w, s.pkts[k]? = some (.window p w) → exec (.windowUpdate k) s = .next { s with
      pcores := { s.pcore p with window := w } :: s.pcores.filter fun y => y.id != (s.pcore p).id, pkts := s.pkts.eraseIdx k }) ∧
    (∀ ctx dst src wp, ∀ n : Fin 4, s.pkts[k]? = some (.arrival ctx dst n.val src wp) →
      (∀ t, s.taskAt dst ctx = some t → (s.bind? dst ctx).isSome = true →
        let u := State.focusCore dst { s with pkts := s.pkts.eraseIdx k }
        exec (.barrierArrival k) s = .next (State.barSweep ctx t.num { u with
          core := u.core.setBar n { u.core.bar[n] with got := u.core.bar[n].got ++ [(src, wp)] } })) ∧
      (s.taskAt dst ctx = none ∨ s.bind? dst ctx = none → exec (.barrierArrival k) s = .next s)) ∧
    (∀ ctx dst ph st co r, ∀ n : Fin 4, s.pkts[k]? = some (.release ctx dst n.val ph st co r) →
      (∀ b, s.bind? dst ctx = some b → st = 0 →
        exec (.barrierRelease k) s = .next (State.releaseFrom ctx b.task n r 64 dst { s with pkts := s.pkts.eraseIdx k })) ∧
      (∀ b, s.bind? dst ctx = some b → st ≠ 0 →
        exec (.barrierRelease k) s = .next (State.releaseCore dst ctx n st { s with pkts := s.pkts.eraseIdx k })) ∧
      (s.bind? dst ctx = none → exec (.barrierRelease k) s = .next s)) ∧
    (∀ dst w w2, s.pkts[k]? = some (.gang dst w w2) →
      let first := ∀ p ∈ s.pkts.take k, ∀ x y, p ≠ .gang dst x y
      (∀ t l ws, first → s.thread? dst = some t → t.gang = .member l ws →
        exec (.gangForward k) s = .next (State.updTh dst (fun t => { t with gang := .member l (ws ++ [(w, w2)]) })
          { s with pkts := s.pkts.eraseIdx k })) ∧
      (∀ t, first → s.thread? dst = some t → (∀ l ws, t.gang ≠ .member l ws) →
        exec (.gangForward k) s = .next { s with pkts := s.pkts.eraseIdx k }) ∧
      (first → s.thread? dst = none → (s.bind? dst.core dst.ctx).isSome = true →
        exec (.gangForward k) s = .next { s with pkts := s.pkts.eraseIdx k }) ∧
      (¬ first ∨ (s.thread? dst = none ∧ s.bind? dst.core dst.ctx = none) → exec (.gangForward k) s = .next s)) ∧
    (∀ m, s.pkts[k]? = some (.msg m) →
      (∀ t, Receiver s m true t True →
        exec (.message k) s = .next (State.sent m 0 (delivered t m { s with pkts := s.pkts.eraseIdx k }))) ∧
      (∀ t, Receiver s m true t False → exec (.message k) s = .next s) ∧
      (∀ n, Refused s m true n → exec (.message k) s = .next { s with pkts := s.pkts.set k (.refuse m n) })) ∧
    (∀ m n, s.pkts[k]? = some (.refuse m n) →
      let gone := ∀ x t, s.cx? m.src.ctx = some x → x.task? (dstTask m.dst) = some t → ∃ z, t.st = .done z
      (n = 3 ∨ gone → exec (.refuse k) s = .next (State.sent m 2 { s with pkts := s.pkts.eraseIdx k })) ∧
      (∀ x, n ≠ 3 → ¬ gone → s.cx? m.src.ctx = some x → x.use[3] + 128 ≤ x.quota[3] →
        exec (.refuse k) s = .next (State.sent m (doneWord 1 0) (State.updCx m.src.ctx
          (fun x => { x with mail := x.mail ++ [m], use := x.use.set 3 (x.use[3] + 128) }) { s with pkts := s.pkts.eraseIdx k }))) ∧
      (∀ x, n ≠ 3 → ¬ gone → s.cx? m.src.ctx = some x → ¬ x.use[3] + 128 ≤ x.quota[3] → exec (.refuse k) s = .next s))) ∧
  (∀ (ctx : Nat) (s : State) (x : Context), s.cx? ctx = some x →
    let waits (a : List Msg) (y : Msg) : Prop := y.held = true ∨ (∃ z ∈ a, z.held = false ∧ dstTask z.dst = dstTask y.dst) ∨
      ((∀ t, ¬ Receiver s y false t True) ∧ ¬ Refused s y false 3)
    (∀ y ∈ x.mail, y.src.ctx = ctx) →
    (∀ old m new, x.mail = old ++ m :: new → (∀ a y b, old = a ++ y :: b → waits a y) → ¬ waits old m →
      (∀ t, Receiver s m false t True → exec (.mailboxDelivery ctx) s = .next (delivered t m (mailLess ctx (old ++ new) s))) ∧
      (Refused s m false 3 → exec (.mailboxDelivery ctx) s = .next (mailLess ctx (old ++ new) s))) ∧
    ((∀ a y b, x.mail = a ++ y :: b → waits a y) → exec (.mailboxDelivery ctx) s = .next s))

/-! ### Events of a core's engines -/

namespace Sys2Proof.Ob

/-- The first copy of a context's queue that has not ended, and no handler read that stands before it has its requests to send (R408). -/
def NextCopy (j : State) (c : CopyCmd) : Prop :=
  (∃ old new, j.bd.copies = old ++ c :: new ∧ (∀ x ∈ old, x.ended = true) ∧ c.ended = false) ∧ j.bd.readAtHead = none

/-- A copy as it stands after one of its moves. -/
def putCopy (tag : Nat) (x : CopyCmd × State) : State := { x.2 with bd := x.2.bd.updCopy tag fun _ => x.1 }

/-- One transfer of a begun command (R232, R233): the run from its position on, at most to the next 512 B boundary of the destination; one
whose rows or elements share units, or whose extents overlap, moves whole. -/
def moveRun (c : CopyCmd) (j : State) : CopyCmd × State :=
  let i := match j.copyIndex c.op c.pos with | .ok i => i | .error _ => 0
  let n := c.op.stride (c.op.seg (c.claim.getD 0) i c.pos) c.pos
  j.copyRun (j.copyMove c.op (c.claim.getD 0) n c.pos n) c

/-- A cancelled command has reached where it stops (R239): the start, a 512 B boundary, or a row or element of a destination with gaps. -/
def Stopped (c : CopyCmd) : Prop :=
  c.cancelled = true ∧ (c.pos = 0 ∨ c.op.solid = false ∨ (c.op.seg (c.claim.getD 0) 0 c.pos).dst % 512 = 0)

/-- R233 to R236, R239, R247, R408, R415 to R417. -/
def CopyEvents : Prop :=
  (∀ (core ctx : Nat) (s : State), (s.bind? core ctx).isSome = true →
    let j := s.focusOn core ctx
    (∀ r, j.bd.readAtHead = some r →
      exec (.copyExecution core ctx) s = .next { j with bd := j.bd.updRead r.tag fun r => { r with asked := true } }) ∧
    (j.bd.readAtHead = none → (∀ c ∈ j.bd.copies, c.ended = true) → exec (.copyExecution core ctx) s = .next j) ∧
    (∀ c, NextCopy j c →
      (c.group ≠ none → exec (.copyExecution core ctx) s = .next j) ∧
      (c.group = none → c.begun = true → ¬ Stopped c →
        exec (.copyExecution core ctx) s = .next (putCopy c.tag (moveRun c j))) ∧
      (c.group = none → c.begun = true → Stopped c →
        exec (.copyExecution core ctx) s = .next (putCopy c.tag ({ c with ended := true }, j))) ∧
      (c.group = none → c.begun = false → 4 ≤ j.inTransfer core → exec (.copyExecution core ctx) s = .next j) ∧
      (c.group = none → c.begun = false → j.inTransfer core < 4 → (∀ k a n, c.op ≠ .ring k a n) →
        (c.offered = false → ¬ Stopped c →
          exec (.copyExecution core ctx) s = .next (putCopy c.tag (moveRun { c with begun := true } j))) ∧
        (c.offered = false → Stopped c →
          exec (.copyExecution core ctx) s = .next (putCopy c.tag ({ c with begun := true, ended := true }, j))) ∧
        (c.offered = true → j.saving j.bd = true → exec (.copyExecution core ctx) s = .next j) ∧
        (c.offered = true → j.saving j.bd = false →
          exec (.copyExecution core ctx) s = .next
            (putCopy c.tag ({ c with begun := true, group := (j.offer core c).1 }, (j.offer core c).2))))) ∧
    (∀ c k a n, NextCopy j c → c.op = .ring k a n → c.begun = false →
      let key : TKey := ⟨j.bd.core, j.bd.ctx, c.thr⟩
      (∀ r, j.ringOf j.bd.core j.bd.ctx c.thr k = some r → (∀ x, j.bd.copies.head? = some x → x.tag = c.tag) → r.filled < r.n →
        (∀ t, j.thread? key = some t → t.rngs.length ≤ 14) →
        let off := r.off + r.fill % r.n * (r.lines * 512)
        let u := putCopy c.tag ({ c with begun := true, claim := some off },
          j.updTh key fun t => { t with rngs := t.rngs ++ [extent c.tag (winBase + off) n, extent c.tag a n] })
        exec (.ringCopySlotClaim core ctx) s = .next u ∧
        (c.group = none → j.inTransfer core < 4 → exec (.copyExecution core ctx) s = .next u)) ∧
      (∀ r, j.ringOf j.bd.core j.bd.ctx c.thr k = some r →
        ((∃ x, j.bd.copies.head? = some x ∧ x.tag ≠ c.tag) ∨ r.n ≤ r.filled ∨ (∃ t, j.thread? key = some t ∧ 14 < t.rngs.length)) →
        exec (.ringCopySlotClaim core ctx) s = .next (putCopy c.tag (c, j))) ∧
      (j.ringOf j.bd.core j.bd.ctx c.thr k = none →
        exec (.ringCopySlotClaim core ctx) s = .next (putCopy c.tag ({ c with ended := true, access := true }, j)))) ∧
    (∀ c r, j.bd.copies = c :: r →
      let fin (j : State) : State :=
        let x := State.hostWord c.host (doneWord c.pos c.status) { j with bd := { j.bd with copies := r } }
        State.complete c.tag x.1 c.slices x.2
      (c.ended = false → exec (.copyCompletion core ctx) s = .next j) ∧
      (c.ended = true → c.claim = none → exec (.copyCompletion core ctx) s = .next (fin j)) ∧
      (∀ k a n off x, c.ended = true → c.claim = some off → c.op = .ring k a n → j.ringOf core ctx c.thr k = some x →
        exec (.copyCompletion core ctx) s = .next (fin (j.moveRing core ctx x ((x.fill + 1) % (2 * x.n)) x.drain none)))) ∧
    (j.bd.copies = [] → exec (.copyCompletion core ctx) s = .next j)) ∧
  (∀ (core ctx : Nat) (s : State), s.bind? core ctx = none → exec (.copyExecution core ctx) s = .next s ∧
    exec (.ringCopySlotClaim core ctx) s = .next s ∧ exec (.copyCompletion core ctx) s = .next s) ∧
  (∀ (row : Nat) (s : State) (g : Group),
    (∀ id, (s.groups.find? fun x => x.id = id && x.closed) = some g →
      (∀ c t r, g.members = (c, t) :: r → exec (.multicast row id) s = .next { s.deliver g c t with
        groups := ((s.deliver g c t).groups.map fun x => if x.id = id then { x with members := r } else x).filter fun x =>
          !(x.closed && x.members.isEmpty) }) ∧
      (g.members = [] → exec (.multicast row id) s = .next { s with groups := s.groups.filter fun x => x.id != id })) ∧
    (∀ id d a n c t r ps e, (s.groups.find? fun x => x.id = id && x.open_) = some g → g.op = .mem d a n → 0 < n → a < 2 ^ 63 → n < 2 ^ 63 →
      g.members = (c, t) :: r →
      let f := s.focusOn c g.ctx
      f.opSpots a false n = (ps, e) →
      (∀ w, e = some (.wait w) → exec (.combiningGroupClose row id) s = .next (f.opNote (a + ps.length) (.wait w))) ∧
      ((∀ w, e ≠ some (.wait w)) → ∃ u, exec (.combiningGroupClose row id) s = .next u ∧
        u.groups = ((f.opReadNote ps).groups.map fun x => if x.id = id then { x with
          closed := true, bytes := ps.map f.opByte, access := e.isSome, host := hostAny ps
          pois := (List.range ps.length).filter fun i => match ps[i]? with | some p => f.opPoison p | none => false
          error := !((List.range ps.length).filter fun i => match ps[i]? with | some p => f.opPoison p | none => false).isEmpty } else x))) ∧
    (∀ id, (s.groups.find? fun x => x.id = id && x.closed) = none → exec (.multicast row id) s = .next s) ∧
    (∀ id, (s.groups.find? fun x => x.id = id && x.open_) = none → exec (.combiningGroupClose row id) s = .next s)) ∧
  (∀ (g : Group) (core tag : Nat) (s : State) (c : CopyCmd) (d a n : Nat), g.op = .mem d a n →
    let f := s.focusOn core g.ctx
    (f.bd.copies.find? fun c => c.tag = tag) = some c → c.cancelled = false →
    let w := f.opSpots d true g.bytes.length
    let u := (f.opWrite (w.1.zip g.bytes)).opPoisonAll (g.pois.filterMap fun i => w.1[i]?)
    s.deliver g core tag = { u with bd := u.bd.updCopy tag fun c => { c with
      pos := w.1.length, ended := true, error := g.error, host := g.host, access := g.access || w.2.isSome } })

/-- A burst of a read, in the place the read stands: on its core, or in what is saved of its task. -/
def readOf (core ctx tag : Nat) (s : State) : Option HRead := (s.opView core ctx).bd.reads.find? fun r => r.tag = tag

/-- R249, R250, R252, R253, R418 to R420. -/
def EddyEvents : Prop :=
  (∀ (core ctx tag n : Nat) (s : State) (f : State), s.isOut core ctx = false → f = s.focusOn core ctx →
    ∀ r, (f.bd.reads.find? fun r => r.tag = tag) = some r →
    let x := r.burst n
    let due := r.asked = true ∧ r.cancelled = false ∧ n < r.bursts ∧ n ∉ r.delivered ∧ f.poolGrant f.bd 4 = true
    (¬ due → exec (.burstDelivery core ctx tag n) s = .next f) ∧
    (∀ a w, due → f.opBytes x.1 x.2.1 = .error (a, .wait w) → exec (.burstDelivery core ctx tag n) s = .next (f.opNote a (.wait w))) ∧
    (∀ a mc, due → f.opBytes x.1 x.2.1 = .error (a, .fail mc) →
      exec (.burstDelivery core ctx tag n) s = .next ((f.opNote a (.fail mc)).burstGot tag n fun r => { r with access := true })) ∧
    (∀ ps b, due → f.opBytes x.1 x.2.1 = .ok (ps, b) → ps.any f.opPoison = true →
      exec (.burstDelivery core ctx tag n) s = .next ((f.mcheck 4 ctx x.1).burstGot tag n fun r => { r with error := true })) ∧
    (∀ ps b, due → f.opBytes x.1 x.2.1 = .ok (ps, b) → ps.any f.opPoison = false →
      let v (o : Nat) : VWord := BitVec.ofNat 768 (leNat (slice b o 96))
      let u := (f.opReadNote ps).burstGot tag n fun r => { r with gated := r.gated || ps.any f.gatedAt, host := r.host || hostAny ps }
      exec (.burstDelivery core ctx tag n) s = .next { u with bd := { u.bd with bursts := u.bd.bursts ++ [⟨tag, n, v 0, v 96⟩] } })) ∧
  (∀ (core ctx tag n : Nat) (s : State), s.isOut core ctx = true →
    exec (.burstDelivery core ctx tag n) s = .next (s.inSaved core ctx fun f =>
      match f.bd.reads.find? fun r => r.tag = tag with
      | none => f
      | some r =>
        if !r.asked || r.cancelled || r.bursts ≤ n || r.delivered.contains n then f
        else match f.opBytes (r.burst n).1 (r.burst n).2.1 with
          | .error (a, .wait w) => f.opNote a (.wait w)
          | .error (a, e) => (f.opNote a e).burstGot tag n fun r => { r with access := true }
          | .ok (ps, b) =>
            if ps.any f.opPoison then (f.mcheck 4 ctx (r.burst n).1).burstGot tag n fun r => { r with error := true }
            else
              let v (o : Nat) : VWord := BitVec.ofNat 768 (leNat (slice b o 96))
              let u := (f.opReadNote ps).burstGot tag n fun r => { r with gated := r.gated || ps.any f.gatedAt, host := r.host || hostAny ps }
              { u with bd := { u.bd with bursts := u.bd.bursts ++ [⟨tag, n, v 0, v 96⟩] } })) ∧
  (∀ (r : HRead) (n : Nat), 1 ≤ r.rb →
    let per := (r.rb + 191) / 192
    (r.burst n).1 = va64 (r.src + (n / per : Nat) * r.pitch + 192 * (n % per : Nat)) ∧
    (r.burst n).2.1 = min 192 (r.rb - 192 * (n % per)) ∧
    (r.two = false → (r.burst n).2.2 = #v[BitVec.ofNat 64 (192 * n), 0, 0, BitVec.ofNat 64 n]) ∧
    (r.two = true → (r.burst n).2.2 = #v[BitVec.ofNat 64 (n / per * r.rb + 192 * (n % per)), BitVec.ofNat 64 (n / per),
      BitVec.ofNat 64 (n % per), BitVec.ofNat 64 n])) ∧
  (∀ (core ctx e : Nat) (l : List Nat) (s : State), s.freeEddy core = e :: l → s.eddyCtx core = some ctx →
    let j := s.focusOn core ctx
    (∀ b rest r, j.bd.bursts = b :: rest → (j.bd.reads.find? fun r => r.tag = b.tag) = some r →
      let tid := ((j.cx.task? j.bd.task).map fun t => t.tid core r.thr (some e)).getD 0
      exec (.eddyBirth core) s = .next (State.addThread (eddyOf core ctx j.bd.task e tid r b) { j with
        bd := { j.bd with bursts := rest }.updRead r.tag fun r => { r with live := r.live + 1 }
        core := { j.core with lastServed := ctx } }))) ∧
  (∀ (core ctx task e : Nat) (tid : Word) (r : HRead) (b : Burst),
    let t := eddyOf core ctx task e tid r b
    t.slot = 8 + e ∧ t.pc = r.handler ∧ t.v[0] = b.v0 ∧ t.v[1] = b.v1 ∧ (∀ i : Fin 64, 2 ≤ i.val → t.v[i] = 0) ∧ t.g = r.g ∧
    t.eddy = some ⟨r.tag, (r.burst b.n).2.2⟩ ∧ t.flags = 0 ∧ t.p = Vector.replicate 8 false ∧ t.handler = false) ∧
  (∀ (core : Nat) (s : State), s.freeEddy core = [] ∨ s.eddyCtx core = none → exec (.eddyBirth core) s = .next s) ∧
  (∀ (core ctx tag : Nat) (s : State) (f : State), s.isOut core ctx = false → f = s.focusOn core ctx →
    ∀ r, (f.bd.reads.find? fun r => r.tag = tag) = some r →
    (f.readOver r = false → exec (.lastBurstEvent core ctx tag) s = .next f) ∧
    (f.readOver r = true →
      let x := State.hostWord r.host (doneWord (r.rets * 2 ^ 32 + r.cause * 2 ^ 16) r.status)
        { f with bd := { f.bd with reads := f.bd.reads.filter fun x => x.tag != tag } }
      exec (.lastBurstEvent core ctx tag) s = .next
        ((x.2.complete tag x.1 r.slices).updAny ⟨core, ctx, r.thr⟩ fun t => { t with latch := true }))) ∧
  (∀ r : HRead, r.status = if r.error then 1 else if r.access then 4 else if r.cancelled then 3 else if r.trapped then 0x12
    else if r.gated then 5 else 0)

/-- The engine's core has a holder whose part of it is there; it is in focus. -/
def Engaged (core : Nat) (s j : State) : Prop :=
  ∃ ctx, (s.core? core).holder = some ctx ∧ (s.bind? core ctx).isSome = true ∧ j = s.focusOn core ctx

/-- R199 to R201, R211, R212, R215 to R217, R222, R225, R397. -/
def MatrixEvents : Prop :=
  (∀ (core : Nat) (s j : State), Engaged core s j →
    let e := j.core.eng
    exec (.matrixCommandExecution core) s = .next
      ((e.active.filter fun c => (c.begun || !j.engHalt) && !(c.op.isMma && c.begun)).foldl State.runCmd j) ∧
    (∀ c r, e.queue = c :: r → c.ended = false → c.begun = false → j.engHalt = true → exec (.matrixCommandExecution core) s = .next j) ∧
    (∀ c, e.queue = [c] → c.ended = false → c.begun = false → j.engHalt = false →
      let after (c' : MCmd) (e' : Engine) : Prop :=
        exec (.matrixCommandExecution core) s = .next (j.setEng { e' with queue := e'.queue.map fun x => if x.tag = c'.tag then c' else x })
      (∀ t rows wide, c.op = .zero t rows wide → after (c.done 0)
        { e with acc := e.acc.set t { e.acc[t] with poison := false, data := List.replicate (rows * tileCols wide) 0 } }) ∧
      (∀ t wide row grp v, c.op = .write t wide row grp v →
        after (c.done 0) { e with acc := e.acc.set t (e.acc[t].writeRow wide row grp v) }) ∧
      (∀ g, c.op = .geom g → g.ok = true → after (c.done 0) { e with geom := some g }) ∧
      (∀ g, c.op = .geom g → g.ok = false → after (c.done 0x10) e) ∧
      (∀ a b x, c.op = .keep a b → scalePair a b = some x → after (c.done 0) { e with ksum := x, kval := true }) ∧
      (∀ a b, c.op = .keep a b → scalePair a b = none → after (c.done 0x11) { e with ksum := 0, kval := false }) ∧
      (∀ a b x, c.op = .scale a b → scalePair a b = some x → after (c.done 0) { e with rsum := x, rval := true }) ∧
      (∀ a b, c.op = .scale a b → scalePair a b = none → after (c.done 0x11) { e with rsum := 0, rval := false }) ∧
      (∀ a b, c.op = .merge a b → let r := mergeTiles e.acc[a] e.acc[b]
        after { c.done r.2.2 with flags := c.flags ||| r.2.1 } { e with acc := e.acc.set a r.1 }) ∧
      (∀ r, c.op = .link r → after (c.done 0) { e with role := r }) ∧
      (c.op.isMma = true → after { c with begun := true } e)) ∧
    (let d := dutyOf j.bd.heat j.bd.cap
     let u := j.setEng { e with clk := e.clk + 1 }
     (e.clk * d / 8 = (e.clk + 1) * d / 8 ∨ (∀ c ∈ e.active, ¬ (c.op.isMma = true ∧ c.begun = true)) →
       exec (.matrixStep core) s = .next u) ∧
     (∀ c fresh t rows wide f reg, e.clk * d / 8 < (e.clk + 1) * d / 8 → e.active = [c] → c.begun = true →
       c.op = .mma fresh t rows wide f reg →
       let x := u.mmaStep c fresh t rows wide f reg
       exec (.matrixStep core) s = .next (x.2.setEng (x.2.core.eng.putCmd x.1)))) ∧
    (e.queue = [] → exec (.matrixCommandCompletion core) s = .next j) ∧
    (∀ c r, e.queue = c :: r → c.ended = false → exec (.matrixCommandCompletion core) s = .next j) ∧
    (∀ c r, e.queue = c :: r → c.ended = true →
      let u := j.setEng { e with queue := r, view := c.show e.view }
      let v := if c.slices = 0 then u else u.updTh ⟨core, j.bd.ctx, c.thr⟩ fun t => { t with mjn := t.mjn ++ [(c.tag, c.slices)] }
      let x := v.hostWord c.host (doneWord (c.count * 2 ^ 16 + c.flags.toNat) (c.stop.getD 0))
      exec (.matrixCommandCompletion core) s = .next (x.2.complete c.tag x.1 c.slices))) ∧
  (∀ (core : Nat) (s : State), (∀ j, ¬ Engaged core s j) → exec (.matrixCommandExecution core) s = .next s ∧
    exec (.matrixStep core) s = .next s ∧ exec (.matrixCommandCompletion core) s = .next s) ∧
  (∀ cap, dutyOf .still cap = min cap 2 ∧ dutyOf .breeze cap = min cap 4 ∧ dutyOf .gale cap = min cap 8) ∧
  (∀ (core : Nat) (s : State),
    ((s.core? core).eng.lane = [] → exec (.laneBlockTransfer core) s = .next s) ∧
    (∀ b rest, (s.core? core).eng.lane = b :: rest →
      (s.eastOf core b.ctx = none → exec (.laneBlockTransfer core) s = .next s) ∧
      (∀ e, s.eastOf core b.ctx = some e →
        let g := (s.core? e).eng
        let moved (f : Engine → Engine) : State :=
          ((s.updCore core fun x => { x with eng := { x.eng with lane := rest } }).focusCore e).updCore e fun x => { x with eng := f x.eng }
        (s.engineHeld e b.ctx = false → g.lane = [] → exec (.laneBlockTransfer core) s = .next (moved fun g => { g with lane := [b] })) ∧
        (s.engineHeld e b.ctx = false → g.lane ≠ [] → exec (.laneBlockTransfer core) s = .next s) ∧
        (s.engineHeld e b.ctx = true → g.role = .fin → g.feed.length < 4 →
          exec (.laneBlockTransfer core) s = .next (moved fun g => { g with feed := g.feed ++ [b] })) ∧
        (s.engineHeld e b.ctx = true → g.role = .fwd → g.feed.length < 4 → g.lane = [] → s.eastRoom e b.ctx = true →
          exec (.laneBlockTransfer core) s = .next (moved fun g => { g with feed := g.feed ++ [b], lane := [b] })) ∧
        (s.engineHeld e b.ctx = true →
          (4 ≤ g.feed.length ∨ g.role = .loc ∨ g.role = .src ∨ (g.role = .fwd ∧ (g.lane ≠ [] ∨ s.eastRoom e b.ctx = false))) →
          exec (.laneBlockTransfer core) s = .next s))))

end Sys2Proof.Ob

/-- What a core's engines do as they move. Copies (R233 to R236, R239, R247, R408, R415 to R417): a handler read at the head sends its requests;
the first copy that has not ended begins, offered to its row's combining node where it may be, or moves its next run, at most to the next
512 B boundary; a cancelled one stops there; at most four are in transfer; a ring copy at the head claims the next free slot; the oldest
that has ended completes its future with its bytes and status, and fills its slot; a group closes with one read of its source and serves
its members one by one. Handler reads (R249, R250, R252, R253, R418 to R420): a burst enters the eddy queue with its two vectors, or counts as
access or error; while the task is out it is held with what is saved; an eddy is born of the oldest burst of the context served next, in
the lowest free eddy context; the read completes when it is over, and sets its thread's latch. The matrix engine (R199 to R201, R211, R212,
R215 to R217, R222, R225, R397): commands that need no step run, none begins while a save or move is pending, one clk of the step pipe makes a
step where the duty allows one, the oldest command that has ended completes with its count, flags and status, and a block on the lane
moves one core east where there is room. -/
def Obligations.CoreEngineEvents : Prop := Ob.CopyEvents ∧ Ob.EddyEvents ∧ Ob.MatrixEvents

/-! ### Events of translation, storage and the life of contexts -/

namespace Sys2Proof.Ob

/-- What a walk does once its entries are read: they pass through their slices. -/
def walkRead (w : Walk) (s : State) : State :=
  let j := s.focusCx w.ctx
  (j.cx.walkReads w.va).foldl (fun s a => s.touchLine false a) j

/-- Those that wait for the walk with an access of the kind p meet an access condition (R330). -/
def lostWait (w : Walk) (p : Bool → Bool) (j : State) : State := j.settle w p fun r => { r with settled := true, bad := true }

/-- The translation is complete: the page is marked accessed, the TLBs are filled and the latches settled. -/
def walkFound (w : Walk) (e : Pte) (j : State) : State :=
  ((State.fillTlbs w e { j with cx := j.cx.touch w.va false }).settle w (fun _ => true) fun r => { r with settled := true }).dropWalk w

/-- R325, R327, R328, R330 to R332, R445, R446. -/
def TranslationEvents : Prop :=
  ∀ (k : Nat) (s : State),
    (∀ w, s.walks[k]? = some w → s.walkersBusy k w = true → exec (.walkCompletion k) s = .next s) ∧
    (∀ w, s.walks[k]? = some w → s.walkersBusy k w = false → let j := walkRead w s
      let bad (e : Pte) : Prop := e.malformed = true ∨ ∃ a ∈ (s.focusCx w.ctx).cx.walkReads w.va, poisoned j.poison a 16 = true
      (j.cx.pte? w.va = none → exec (.walkCompletion k) s = .next ((lostWait w (fun _ => true) j).dropWalk w)) ∧
      (∀ e, j.cx.pte? w.va = some e →
        (bad e → exec (.walkCompletion k) s = .next (((lostWait w (fun _ => true) j).dropWalk w).mcheck 2 w.ctx w.va)) ∧
        (¬ bad e → e.key ≠ j.cx.key →
          exec (.walkCompletion k) s = .next (((lostWait w (fun _ => true) j).dropWalk w).mcheck 3 w.ctx w.va)) ∧
        (¬ bad e → e.key = j.cx.key →
          let may (wr : Bool) : Bool := e.allows j.cx.key wr
          let u := lostWait w (fun wr => !(may wr)) j
          (may false = false → may true = false → exec (.walkCompletion k) s = .next (u.dropWalk w)) ∧
          (may false = true ∨ may true = true →
            (e.state = 0 → exec (.walkCompletion k) s = .next (walkFound w e u)) ∧
            (e.state = 1 → exec (.walkCompletion k) s = .next ((u.longFault w).startRead w.ctx e)) ∧
            (e.state ≠ 0 → e.state ≠ 1 → u.tdiSends e.func = false →
              exec (.walkCompletion k) s = .next ((lostWait w (fun _ => true) u).dropWalk w)) ∧
            (e.state ≠ 0 → e.state ≠ 1 → u.tdiSends e.func = true → u.atcHas e w.va (w.wr && may true) = true →
              exec (.walkCompletion k) s = .next (walkFound w e u)) ∧
            (e.state ≠ 0 → e.state ≠ 1 → u.tdiSends e.func = true → u.atcHas e w.va (w.wr && may true) = false →
              let p := e.hostPage w.va true (w.wr && may true)
              ((∃ q ∈ u.atsq ++ u.preqs, Atc.same p q = true) → exec (.walkCompletion k) s = .next u) ∧
              ((∀ q ∈ u.atsq ++ u.preqs, Atc.same p q = false) → exec (.walkCompletion k) s = .next
                (State.out (.ats p.func p.pasid p.iova) { u with atsq := u.atsq ++ [{ p with since := u.iod }] }))))))) ∧
    (∀ core ctx thr t r, s.thread? ⟨core, ctx, thr⟩ = some t → t.retry = some r →
      exec (.retryLatchReissue core ctx thr) s = .next (s.updTh ⟨core, ctx, thr⟩ Thread.reissue) ∧
      (r.settled = true → r.bad = false → t.reissue = { t with retry := none }) ∧
      (r.settled = false ∨ r.bad = true → t.reissue = t)) ∧
    (∀ func pasid iova rd wr, let p : Atc := { func, pasid, iova, rd, wr }
      (s.atsq.find? (Atc.same p) = none → exec (.atsTranslationResponse func pasid iova rd wr) s = .next s) ∧
      (∀ q, s.atsq.find? (Atc.same p) = some q →
        let atsq := s.atsq.filter fun x => !(Atc.same p x)
        let given := (q.wr = true → wr = true) ∧ (q.wr = false → rd = true)
        (∃ t, exec (.atsTranslationResponse func pasid iova rd wr) s = .next t ∧
          ∀ i < 16, ({ func, pasid, iova := iova + 4096 * i, rd, wr } : Atc) ∈ t.atc) ∧
        (given → ∃ t, exec (.atsTranslationResponse func pasid iova rd wr) s = .next t ∧ t.atsq = atsq ∧ t.preqs = s.preqs) ∧
        (¬ given → 16 * (s.preqs.length + 1) ≤ 512 → ∃ t, exec (.atsTranslationResponse func pasid iova rd wr) s = .next t ∧
          t.atsq = atsq ∧ t.preqs = s.preqs ++ [{ q with since := s.iod }] ∧
          t.outs = s.outs ++ (List.range 16).map fun i => Out.pri q.func q.pasid (q.iova + 4096 * i) q.wr) ∧
        (¬ given → 512 < 16 * (s.preqs.length + 1) → ∃ t, exec (.atsTranslationResponse func pasid iova rd wr) s = .next t ∧
          t.atsq = atsq ++ [q] ∧ t.preqs = s.preqs))) ∧
    (∀ func pasid iova, let p : Atc := { func, pasid, iova, rd := true, wr := true }
      let preqs := s.preqs.filter fun x => !(Atc.same p x)
      (∀ ok, s.preqs.find? (Atc.same p) = none → exec (.prgResponse func pasid iova ok) s = .next s) ∧
      (∀ q, s.preqs.find? (Atc.same p) = some q →
        exec (.prgResponse func pasid iova true) s = .next (State.out (.ats q.func q.pasid q.iova) { s with
          preqs, atsq := s.atsq ++ [{ q with since := s.iod }] }) ∧
        ∃ t, exec (.prgResponse func pasid iova false) s = .next t ∧ t.refusedPg = s.refusedPg ++ [p] ∧ t.preqs = preqs) ∧
      (∀ q ∈ s.preqs ++ s.atsq, Atc.same p q = true → q.since + 1000000 ≤ s.iod →
        ∃ t, exec (.pageRequestTimeout func pasid iova) s = .next t ∧ t.refusedPg = s.refusedPg ++ [p] ∧ t.preqs = preqs ∧
          t.atsq = s.atsq.filter fun x => !(Atc.same p x)) ∧
      ((∀ q ∈ s.preqs ++ s.atsq, Atc.same p q = true → s.iod < q.since + 1000000) →
        exec (.pageRequestTimeout func pasid iova) s = .next s)) ∧
    (∀ func pasid iova pages,
      (32 ≤ s.invs.length → exec (.invalidateRequest func pasid iova pages) s = .next s) ∧
      (s.invs.length < 32 →
        let v : Inval := { func, pasid, iova, pages }
        ∃ t, exec (.invalidateRequest func pasid iova pages) s = .next t ∧
          t.atc = (s.atc.filter fun x => !(x.func = func && x.pasid = pasid && iova ≤ x.iova && x.iova < iova + 4096 * pages)) ∧
          t.invs = (s.invs ++ [v]).filter s.invBusy ∧
          t.outs = s.outs ++ ((s.invs ++ [v]).filter fun v => !(s.invBusy v)).map fun v => .inv v.func v.pasid v.iova))

/-- R333 to R339, R478. -/
def StorageEvents : Prop :=
  (∀ (s : State) (k : Nat),
    (∀ o, s.sops[k]? = some o → (o.kind ≠ .read ∨ o.pair = none) → ∀ ok, exec (.storageReadCompletion k ok) s = .next s) ∧
    (∀ o q, s.sops[k]? = some o → o.kind = .read → o.pair = some q → o.tries < 3 →
      exec (.storageReadCompletion k false) s = .next { s with sops := s.sops.set k { o with tries := o.tries + 1 } }) ∧
    (∀ o q e p ok, s.sops[k]? = some o → o.kind = .read → o.pair = some q → ok = true ∨ 3 ≤ o.tries →
      (s.cx? o.ctx).bind (·.pte? o.va) = some e → ((s.drive o.drive).slots.find? fun p => p.slot = o.slot) = some p →
      let bad := if ok then p.bad e.ver else List.range 1024
      let v : State := { s with
        mem := p.bytes.foldl (fun (m : Memory) (c : Nat × Byte) => m.set (o.frame + c.1) c.2) s.mem
        poison := bad.foldl (fun l u => insertNat (o.frame / 64 + u) l) s.poison }
      let u := State.becomeResident o.ctx o.va o.frame false (State.dropSop k (if bad = [] then v else v.mcheck 5 o.ctx o.va))
      ((u.cx? o.ctx).any fun x => x.capture || x.replay.isSome) = false → exec (.storageReadCompletion k ok) s = .next u) ∧
    (∀ o q ok, s.sops[k]? = some o → o.kind = .read → o.pair = some q → ok = true ∨ 3 ≤ o.tries →
      (s.cx? o.ctx).bind (·.pte? o.va) = none →
      exec (.storageReadCompletion k ok) s = .next (State.dropStaging o.frame (State.dropSop k s))) ∧
    (∀ o, s.sops[k]? = some o → (o.kind = .read ∨ o.pair = none) → exec (.storageWriteCompletion k) s = .next s) ∧
    (∀ o q, s.sops[k]? = some o → o.kind = .flush → o.pair = some q →
      exec (.storageWriteCompletion k) s = .next (State.dropSop k s)) ∧
    (∀ o q e, s.sops[k]? = some o → o.kind = .write → o.pair = some q → (s.cx? o.ctx).bind (·.pte? o.va) = some e →
      let u := (s.setDrive o.drive { s.drive o.drive with slots := (s.drive o.drive).slots.map fun p => if p.slot = o.slot then
          { p with bytes := s.frameBytes o.frame, pois := s.framePois o.frame, ok := (s.framePois o.frame).isEmpty, ver := e.ver + 1 } else p }).updCx
        o.ctx fun x => x.updPte o.va fun f => { f with ver := e.ver + 1 }
      exec (.storageWriteCompletion k) s = .next (State.dropStaging o.frame (State.dropSop k u)))) ∧
  (∀ (p : DPage) (trusted : Nat),
    (p.ver ≠ trusted → p.bad trusted = List.range 1024) ∧ (p.ver = trusted → p.ok = true → p.bad trusted = p.pois) ∧
    (p.ver = trusted → p.ok = false → p.pois ≠ [] → p.bad trusted = p.pois) ∧
    (p.ver = trusted → p.ok = false → p.pois = [] → p.bad trusted = List.range 1024)) ∧
  (∀ (s : State),
    (s.evicting = false → s.staging ≤ 16 * s.stagingFree → exec .storageEviction s = .next s) ∧
    ((s.evicting = true ∨ 16 * s.stagingFree < s.staging) → s.staging ≤ 8 * s.stagingFree →
      exec .storageEviction s = .next { s with evicting := false }) ∧
    ((s.evicting = true ∨ 16 * s.stagingFree < s.staging) → 8 * s.stagingFree < s.staging →
      let v : State := { s with evicting := true }
      (v.sweepNext? = none → exec .storageEviction s = .next v) ∧
      (∀ c e, v.sweepNext? = some (c, e) → let u : State := { v with sweep := (c, e.va) }
        (e.acc = true → exec .storageEviction s = .next
          (u.updCx c fun x => x.updPte e.va fun e => { e with ctl := e.ctl &&& ~~~0x8000000#64 })) ∧
        (∀ x, e.acc = false → u.cx? c = some x → u.drained x e.va e.size = false → exec .storageEviction s = .next u) ∧
        (∀ x, e.acc = false → u.cx? c = some x → u.drained x e.va e.size = true →
          let t := (u.updCx c fun x => x.updPte e.va fun e => { e with loc := 0, ctl := (e.ctl &&& ~~~0xC#64) ||| 4 }).invalidate c e.va e.size
          (e.dirty = true → exec .storageEviction s = .next (t.submit
            { kind := .write, drive := e.drive, slot := e.slot, frame := e.loc.toNat, ctx := c, va := e.va, tries := 1 })) ∧
          (e.dirty = false → exec .storageEviction s = .next (t.dropStaging e.loc.toNat)))))) ∧
  (∀ (s : State) (o : SOp) (d : Nat) (ds : Nvme), let x := s.drive d
    (s.submit o = State.submitNext o.drive { s with sops := s.sops ++ [o] }) ∧
    (1024 ≤ s.outstanding d → State.submitNext d s = s) ∧
    (∀ o k r, s.outstanding d < 1024 → pick (fun p : SOp × Nat => p.1.drive = d && p.1.pair.isNone) s.sops.zipIdx = some ((o, k), r) →
      State.submitNext d s = { s.setDrive d ({ x with next := (x.next + 1) % max 1 x.pairs.length }.updPair x.next (QPair.submit x.depth)) with
        sops := s.sops.set k { o with pair := some x.next } }) ∧
    (d < 8 → ds.block = 4096 → ds.meta_ = 0 → 131072 ≤ ds.mdts → 1 ≤ ds.pairs → 2 ≤ ds.depth →
      s.probeDrive d ds = s.setDrive d { x with
        fit := true, pairs := List.replicate (min 64 ds.pairs) {}, depth := min 1024 ds.depth, next := 0 }) ∧
    (d < 8 → (ds.block ≠ 4096 ∨ ds.meta_ ≠ 0 ∨ ds.mdts < 131072 ∨ ds.pairs < 1 ∨ ds.depth < 2) →
      s.probeDrive d ds = (s.setDrive d { x with fit := false }).out (.driveUnused d))) ∧
  (∀ (s : State) (d va : Nat) (t : Task) (e : Pte), s.cx.dead = false → s.cxs = [] → s.cx.task? t.num = some t →
    t.st = .saved ∨ t.st = .saving → va ∈ t.pages → s.cx.pte? va = some e → e.state = 1 → e.drive = d →
    ∃ u, exec (.storageLost d) s = .next u ∧ (u.cx.task? t.num).map (·.st) = some (.done 0x42))

end Sys2Proof.Ob

/-- The memory services. Walks (R325, R327, R328, R330 to R332, R445): one of the 32 walkers of its die reads the entries; one that ends in no
entry, a malformed or poisoned one, one of another key ID or one that denies the access ends in an access condition for those that wait;
one that finds a resident page fills the TLBs and settles the latches; one that finds a stored page starts its Read, a long fault; one that
finds a host page asks for its translation once. A settled latch is left, unless it is an access condition. ATS and PRI (R445, R446): the
host's answers fill the ATC, or leave page requests, at most 512 pages of them; a page request that fails, or is a second old, ends what
waits for it; an invalidation empties the ATC of the range and is answered once the accesses under it are over, at most 32 at once. Storage
(R333 to R339, R478): a Read that fails is submitted again, up to three times; the page becomes resident on its frame with the bytes of its
slot, the lines whose tag or version fails poisoned and a machine-check logged; a Write puts the frame's bytes on the slot under the next
version and frees the frame; the sweep passes over an accessed page, clearing its mark, and stores the next, a dirty one by a Write;
commands go to a drive's queue pairs in turn, 1,024 at most outstanding; a lost drive ends the tasks that wait for its pages with 0x42. -/
def Obligations.MemoryServiceEvents : Prop := Ob.TranslationEvents ∧ Ob.StorageEvents

namespace Sys2Proof.Ob

/-- Nothing of a context's task stands on the core, and every operation that its threads there forked has ended. -/
def CoreOver (s : State) (c ctx task : Nat) : Prop :=
  ∃ b, s.bind? c ctx = some b ∧ b.task = task ∧ s.threadsAt c ctx = [] ∧ s.opsOver c ctx b = true

/-- What a swap-out of a task writes (R57, R290, R393): the hints that its threads stopped at have taken what they do not name, the parts of its
cores are kept with the held messages in the mailbox, and the cores are unbound. -/
def swappedOut (ctx : Nat) (t : Task) (s : State) : State :=
  let keys := t.coreList.flatMap fun c => (s.threadsAt c ctx).map (·.key)
  let hints (c : Nat) : List (Option (List Byte)) := (s.threadsAt c ctx).map Thread.hint?
  let u := keys.foldl (fun s k => s.leaveHint k) s
  let parts := t.coreList.filterMap fun c => (u.bind? c ctx).map fun b => u.saveCore c ctx b (hints c)
  let held (x : Context) : Context := t.coreList.foldl (fun x c => (u.threadsAt c ctx).foldl (fun x v => x.mailHeld v) x) x
  t.coreList.foldl (fun s c => s.unbindCore c ctx) (u.updCx ctx fun x =>
    { (held x).updTask t.num fun k => { k with st := .saved, deadline := false, outAt := s.iod } with saved := x.saved ++ parts })

/-- R23, R57 to R59, R159, R288, R290, R332, R378, R379, R389, R393, R401, R510. -/
def TaskEvents : Prop :=
  (∀ (ctx task : Nat) (x : Context) (t : Task) (s : State), s.cx? ctx = some x → x.task? task = some t →
    (t.st = .placed →
      let may := (x.cls ≠ 0 ∨ s.bound x.kslot = none) ∧ ¬ (x.cls = 1 ∧ (s.bound x.kslot).isSome = true ∧
        ∃ y ∈ s.contexts, y.cls = 2 ∧ ∃ u ∈ y.tasks, u.st.onCores = true)
      (may → exec (.swapOut ctx task) s = .next (s.updCx ctx fun x => x.updTask task (Task.ask s.iod)) ∧
        t.ask s.iod = { t with st := .saving, asked := s.iod }) ∧
      (¬ may → exec (.swapOut ctx task) s = .next s)) ∧
    (t.st = .saving →
      let u := t.coreList.foldl (fun s c => if (s.bind? c ctx).isSome then s.leaveGroups c ctx else s) s
      ((∀ c ∈ t.coreList, u.coreReady c ctx = true) → exec (.swapOut ctx task) s = .next (swappedOut ctx t u)) ∧
      ((∃ c ∈ t.coreList, u.coreReady c ctx = false) → (∀ c ∈ t.coreList, u.coreStill c ctx = true) →
        exec (.swapOut ctx task) s = .next (t.coreList.foldl (fun s c => s.saveFence c ctx) u)) ∧
      ((∃ c ∈ t.coreList, u.coreReady c ctx = false) → (∃ c ∈ t.coreList, u.coreStill c ctx = false) →
        exec (.swapOut ctx task) s = .next u)) ∧
    (t.st ≠ .placed → t.st ≠ .saving → exec (.swapOut ctx task) s = .next s) ∧
    (∀ c b, s.bind? c ctx = some b → (s.coreReady c ctx = true ↔
      s.coreStill c ctx = true ∧ (∀ t ∈ s.threadsAt c ctx, t.probe = some 0) ∧ copiesRest b.copies = true ∧ s.engStands c ctx = true)) ∧
    (exec (.preemptionDeadline ctx task) s = .next (s.updCx ctx fun x => x.updTask task fun t =>
      if t.st = .saving && t.asked + 200 ≤ s.iod then { t with deadline := true } else t)) ∧
    (t.st.onCores = true → (∀ c ∈ t.coreList, CoreOver s c ctx task) → exec (.taskCompletion ctx task) s = .next (s.updCx ctx fun x =>
      (x.updTask task fun k => { k with st := .done 0 }).mailDrop fun m => !m.held && dstTask m.dst = task)) ∧
    (t.st.onCores = false ∨ (∃ c ∈ t.coreList, ¬ CoreOver s c ctx task) → exec (.taskCompletion ctx task) s = .next s) ∧
    (∀ p, let cells := (List.range t.rows).flatMap fun r => (List.range t.cols).map fun c => (r, c)
      let u := s.updCx ctx fun x => { x.updTask task (fun _ => { t.moved p with st := .placed, deadline := false, outAt := 0 }) with
        parked := false }
      let passes (v : State) : Prop := ∀ e ∈ v.pends.drop u.pends.length,
        State.bindStatus { v with pends := v.pends.filter fun f => f != e } e.core e.rec_ = 0
      (∀ v, s.mayPlace x t = true → placeFits p t = true → cells.foldlM (State.placeCore x (t.moved p) p) u = some v → passes v →
        exec (.taskPlacement ctx task p) s = .next (cells.foldl (fun s rc => s.wakeCore (placePhys p rc.1 rc.2))
          (v.setDie p.die { v.die p.die with bstat := 0 }))) ∧
      ((s.mayPlace x t = false ∨ placeFits p t = false ∨ cells.foldlM (State.placeCore x (t.moved p) p) u = none ∨
        ∃ v, cells.foldlM (State.placeCore x (t.moved p) p) u = some v ∧ ¬ passes v) → exec (.taskPlacement ctx task p) s = .next s))) ∧
  (∀ (core ctx : Nat) (b : Bind) (k : Task) (s : State), s.bind? core ctx = some b → s.taskAt core ctx = some k →
    (b.dark = false → b.went = false → CoreOver s core ctx b.task →
      exec (.coreGoesDark core ctx) s = .next ((s.updCore core fun x => { x.wipe b with banks := Vector.replicate 20 .gated }).updBd core ctx
        fun b => { b with went := true })) ∧
    (b.dark = true ∨ b.went = true ∨ ¬ CoreOver s core ctx b.task → exec (.coreGoesDark core ctx) s = .next s)) ∧
  (∀ s : State,
    (s.iod < s.period + 1000 * s.conf.p → exec .rotationPeriod s = .next s) ∧
    (s.period + 1000 * s.conf.p ≤ s.iod →
      let u : State := { s with period := s.iod }
      let v := u.mapCxs fun x => { x with
        served := 0, parked := x.parked && !(x.cls = 1 && x.running && (u.bound x.kslot).isSome) }
      ((∃ y ∈ v.contexts, ∃ t ∈ y.tasks, v.overdue y t = true) → exec .rotationPeriod s = .next
        (v.mapCxs fun x => if x.cls = 2 then { x with tasks := x.tasks.map (Task.ask v.iod) } else x)) ∧
      ((∀ y ∈ v.contexts, ∀ t ∈ y.tasks, v.overdue y t = false) → exec .rotationPeriod s = .next v)))

end Sys2Proof.Ob

namespace Sys2Proof.Ob

/-- What retirement does at once (R370): every operation is cancelled, the threads stop, and a running launch ends with status 0x43. -/
def retiredNow (ctx : Nat) (x : Context) (s : State) : State :=
  let u := s.cancelAll ctx
  let stops (t : Thread) : Bool := t.ctx = ctx && t.eddy.isNone
  let v : State := { u with
    th := if stops u.th then { u.th with exited := true } else u.th
    ths := u.ths.filter fun t => !(stops t)
    pends := u.pends.filter fun p => p.rec_[0].toNat / 256 % 128 != ctx }
  State.updCx ctx (fun y => { y with retired := true, saved := [], tasks := y.tasks.map Task.expire })
    (if x.running then (v.atCx ctx).endLaunch 0x43 else v)

/-- R297, R364, R367, R369, R370, R481. -/
def ContextEvents : Prop :=
  (∀ (ctx : Nat) (x : Context) (s : State), s.cx? ctx = some x →
    let ended := x.running = true ∧ ∀ t ∈ x.tasks, t.st.onCores = false ∧ t.st ≠ .saved ∧ x.canStart t = false
    (ended → x.prov = false → exec (.launchEnd ctx) s = .next ((s.atCx ctx).endLaunch x.status)) ∧
    (¬ ended ∨ x.prov = true → exec (.launchEnd ctx) s = .next s) ∧
    (x.retired = true → s.idleCx ctx = true → exec (.contextEnd ctx) s = .next (s.endContext ctx 0x43)) ∧
    (x.retired = false → x.surr = true → x.running = false → s.idleCx ctx = true →
      exec (.contextEnd ctx) s = .next (s.endContext ctx (if x.ended = 0 then 0 else x.status))) ∧
    ((x.retired = false ∧ (x.surr = false ∨ x.running = true)) ∨ s.idleCx ctx = false → exec (.contextEnd ctx) s = .next s) ∧
    (∀ n, (s.kslot x.kslot).note = some n → x.prov = false → x.retired = false → x.na ≤ (n.at s.iod).2.1 →
      exec (.retirement ctx) s = .next (retiredNow ctx x s)) ∧
    (∀ n, (s.kslot x.kslot).note = some n → x.prov = true ∨ x.retired = true ∨ (n.at s.iod).2.1 < x.na → exec (.retirement ctx) s = .next s) ∧
    ((s.kslot x.kslot).note = none → exec (.retirement ctx) s = .next s)) ∧
  (∀ (ctx : Nat) (s : State), s.cx? ctx = none →
    exec (.launchEnd ctx) s = .next s ∧ exec (.contextEnd ctx) s = .next s ∧ exec (.retirement ctx) s = .next s) ∧
  (∀ (ctx : Nat) (s : State), s.idleCx ctx = true ↔
    (∀ t ∈ s.threads, t.ctx ≠ ctx) ∧ (∀ b ∈ s.binds, b.ctx ≠ ctx) ∧ (∀ p ∈ s.pends, p.rec_[0].toNat / 256 % 128 ≠ ctx) ∧
    (∀ r ∈ s.reqs, r.ctx ≠ ctx) ∧ (∀ n ∈ s.nets, n.ctx ≠ ctx) ∧ (∀ w ∈ s.wops, w.key.ctx ≠ ctx) ∧
    (∀ q ∈ s.queues, q.ctx = ctx → q.busy = none) ∧ (∀ o ∈ s.sops, o.ctx = ctx → o.kind ≠ .write)) ∧
  (∀ (k : Nat) (s : State),
    (s.bound k = none → exec (.boundUnproved k) s = .next (s.mapCxs fun x =>
      if x.kslot = k % 16 then { x with parked := true, tasks := x.tasks.map (Task.ask s.iod) } else x)) ∧
    ((s.bound k).isSome = true → exec (.boundUnproved k) s = .next s))

end Sys2Proof.Ob

/-- Tasks and contexts as they begin and end. Tasks (R23, R57 to R59, R159, R288, R290, R378, R379, R389, R393, R401, R510): a swap-out is asked
for, its deadline stops the threads 200 µs later, once they stand the save fences for them, and the task is saved once every core is ready;
a task whose cores are over completes with status 0; a core that is over goes dark, its window lost; a task is placed by its records, which
pass the checks of R386, with a wake to each core, or nothing changes; each period counts the core time anew and lets no shared context
with work stay parked, and spare tasks make room for shared ones that have been out for P. Contexts (R297, R364, R369, R370): a launch with
nothing left to run ends with its status; a surrendering context with nothing left ends; one whose time is over is retired at once, its
operations cancelled, its threads and its launch ended with status 0x43, and ends when they are over; a key slot whose bound is unproved
parks the contexts built under it. -/
def Obligations.LifeEvents : Prop := Ob.TaskEvents ∧ Ob.ContextEvents

/-! ### Events of admission, dispatch, power and heat -/

namespace Sys2Proof.Ob

/-- The op that a slot's pgo asks for. -/
def Going (s : State) (n op : Nat) (v : Word) : Prop := n < 16 ∧ (s.pslot n).pgo = some v ∧ v.toNat % 8 = op

/-- A source may write a slot: it stands on the slot, or the slot is free. -/
def Mine (s : State) (n : Nat) (src : Src) : Prop :=
  n < 16 ∧ 7 ≤ s.bring ∧ ((s.pslot n).src = none ∨ (s.pslot n).src = some src)

/-- A slot's op ends: its status stands in pstat and the slot is free again. -/
def ended (n op : Nat) (st : BitVec 8) (x : PSlot) (s : State) : State :=
  s.setPslot n { x with pgo := none, src := none, op, status := st, ctx := 0, parkedBit := false }

/-- R359 to R362, R367, R368, R371 to R375. -/
def PresentationEvents : Prop :=
  (∀ (n off : Nat) (src : Src) (data : List Byte) (s : State),
    let u : State := match src with | .host _ _ => { s with linkUp := true } | _ => s
    let x := s.pslot n
    (¬ Mine s n src → exec (.presentationSlotWrite src n off data) s = .next u) ∧
    (Mine s n src → off + data.length ≤ areaEnd → exec (.presentationSlotWrite src n off data) s = .next (u.setPslot n { x with
      src := some src, last := s.iod, area := x.area.put off data })) ∧
    (Mine s n src → areaEnd < off + data.length → off = 0x7FFF000 → data.length = 8 → x.pgo = none → pgoOk (leNat data) = true →
      exec (.presentationSlotWrite src n off data) s = .next (u.setPslot n { x with
        src := some src, last := s.iod, pgo := some (leWord data) })) ∧
    (Mine s n src → areaEnd < off + data.length → (off ≠ 0x7FFF000 ∨ data.length ≠ 8 ∨ x.pgo ≠ none ∨ pgoOk (leNat data) = false) →
      exec (.presentationSlotWrite src n off data) s = .next (u.setPslot n { x with src := some src, last := s.iod }))) ∧
  (∀ v, pgoOk v = true ↔ v < 2 ^ 19 ∧ v / 8 % 32 = 0 ∧ 1 ≤ v % 8 ∧ v % 8 ≤ 6) ∧
  (∀ (n : Nat) (v : Word) (s : State),
    let x := s.pslot n
    (Going s n 2 v → let k := v.toNat / 256 % 16
      ((s.kslot k).loaded = false → exec (.timeNonce n) s = .next (ended n 2 0x21 x s)) ∧
      ((s.kslot k).loaded = true → let z := s.secret
        exec (.timeNonce n) s = .next (ended n 2 0 { x with area := x.area.put 0 z.1 }
          (z.2.setKslot k { z.2.kslot k with nonce := some (z.1, s.iod) })))) ∧
    (Going s n 3 v → let b := x.area.bytes 0 4096
      let k := fieldAt b 6 1
      (∀ z, s.noteCheck b = 0 → (s.kslot k).nonce = some z →
        exec (.timeNote n) s = .next (ended n 3 0 x
          (s.setKslot k { s.kslot k with note := some ⟨fieldAt b 40 8, z.2, s.iod⟩, nonce := none }))) ∧
      (s.noteCheck b ≠ 0 → exec (.timeNote n) s = .next (ended n 3 (s.noteCheck b) x s))) ∧
    (Going s n 4 v → let z := s.secret
      let l := z.2.rnonces ++ [(z.1, s.iod)]
      exec (.receiptNonce n) s = .next (ended n 4 0 { x with area := x.area.put 0 z.1 } { z.2 with rnonces := l.drop (l.length - 64) })) ∧
    (Going s n 5 v → let r := x.area.bytes 0 4096
      let full := 256 ≤ (s.resv.filter fun x => !x.done).length
      (∀ st, s.recCheck r = some st → exec (.receiptRequest n) s = .next (ended n 5 st x s)) ∧
      (s.recCheck r = none → recHome r = false → exec (.receiptRequest n) s = .next (ended n 5 0x26 x s)) ∧
      (s.recCheck r = none → recHome r = true → s.isSpent r = true → exec (.receiptRequest n) s = .next (ended n 5 0x25 x s)) ∧
      (s.recCheck r = none → recHome r = true → s.isSpent r = false → full → exec (.receiptRequest n) s = .next (ended n 5 0x26 x s)) ∧
      (s.recCheck r = none → recHome r = true → s.isSpent r = false → ¬ full →
        let body := receiptBody r (x.area.bytes 0x1000 32) (x.area.bytes 0x1020 32)
        exec (.receiptRequest n) s = .next (ended n 5 0
          { x with area := x.area.put 0x2000 (slice (body ++ slice (Config.mldsaSign body) 0 3309) 0 8192) }
          { s with resv := s.resv ++ [⟨recSlot r, recSerial r, x.area.bytes 0x1000 32, false⟩] }))) ∧
    (Going s n 6 v →
      let mine (c : Context) : Prop := s.cx? (v.toNat / 2 ^ 12 % 128) = some c ∧ c.prov = false ∧ c.src ≠ none ∧ c.src = x.src
      (∀ c, mine c → let a := ((c.pte? graphArea).map fun e => e.phys graphArea).getD (2 ^ 95)
        exec (.graphStatus n) s = .next (ended n 6 0 { x with area := x.area.put 0 (s.mem.bytes a 64) } s)) ∧
      ((∀ c, ¬ mine c) → exec (.graphStatus n) s = .next (ended n 6 0x2B x s))) ∧
    (Going s n 1 v → (∀ a ∈ s.admits, a.slot ≠ some n) →
      let a : Admit := { slot := some n, req := none, rec_ := x.area.bytes 0 4096, rcpt := some (x.area.bytes 0x2000 8192) }
      let u : State := { s with admits := s.admits.filter fun b => !(a.same b) }
      ((4 ≤ s.admits.length + s.commits.length ∨ ∃ c ∈ s.commits, c.slot = some n) → exec (.present n) s = .next s) ∧
      (s.admits.length + s.commits.length < 4 → (∀ c ∈ s.commits, c.slot ≠ some n) →
        (∀ st, s.recCheck a.rec_ = some st → exec (.present n) s = .next (u.setPslot n ((u.pslot n).finish 1 st 0 false))) ∧
        (s.recCheck a.rec_ = none → recHome a.rec_ = false → s.receiptOk a.rec_ (x.area.bytes 0x2000 8192) = false →
          exec (.present n) s = .next (u.setPslot n ((u.pslot n).finish 1 0x26 0 false))) ∧
        (s.recCheck a.rec_ = none → (recHome a.rec_ = true ∨ s.receiptOk a.rec_ (x.area.bytes 0x2000 8192) = true) →
          let w : State := if recHome a.rec_ then s
            else { s with rnonces := s.rnonces.filter fun y => y.1 ≠ slice (x.area.bytes 0x2000 8192) 72 32 }
          exec (.present n) s = .next (State.admitSix a { w with admits := w.admits ++ [a] })))) ∧
    (∀ a, Going s n 1 v → (s.admits.find? fun a => a.slot = some n) = some a → exec (.present n) s = .next (s.admitGo a)) ∧
    (∀ op, (x.pgo = none ∨ 16 ≤ n ∨ ∃ v, x.pgo = some v ∧ v.toNat % 8 ≠ op) →
      (op = 1 → exec (.present n) s = .next s) ∧ (op = 2 → exec (.timeNonce n) s = .next s) ∧ (op = 3 → exec (.timeNote n) s = .next s) ∧
      (op = 4 → exec (.receiptNonce n) s = .next s) ∧ (op = 5 → exec (.receiptRequest n) s = .next s) ∧
      (op = 6 → exec (.graphStatus n) s = .next s)) ∧
    (x.src ≠ none → x.pgo = none → x.last + 10000000 ≤ s.iod →
      exec (.slotBindingLapse n) s = .next (s.setPslot n { x with src := none })) ∧
    (x.src = none ∨ x.pgo ≠ none ∨ s.iod < x.last + 10000000 → exec (.slotBindingLapse n) s = .next s) ∧
    exec .receiptNonceExpiry s = .next { s with rnonces := s.rnonces.filter fun x => s.iod ≤ x.2 + 60000000 }) ∧
  (∀ (r : List Byte) (s : State),
    (recBad r = true → s.recCheck r = some 0x20) ∧
    (recBad r = false → (s.kslot (recSlot r)).loaded = false → s.recCheck r = some 0x21) ∧
    (recBad r = false → (s.kslot (recSlot r)).loaded = true →
      let good := Config.mldsaVerify (s.kslot (recSlot r)).key (slice r 0 512) (slice r 512 3309) = true
      (¬ good → s.recCheck r = some 0x22) ∧ (good → s.timeOk r = false → s.recCheck r = some 0x24) ∧
      (good → s.timeOk r = true → s.recCheck r = none))) ∧
  (∀ (a : Admit) (s : State), let r := a.rec_
    let held := (∃ c ∈ s.commits, c.kslot = recSlot r) ∨
      ∃ b ∈ s.admits, a.same b = false ∧ b.step ≠ 6 ∧ recSlot b.rec_ = recSlot r ∧ recSerial b.rec_ = recSerial r
    (held → s.admitSix a = s) ∧
    (¬ held → recHome r = true → s.isSpent r = true → s.admitSix a = s.admitEnd a 0x25 0 false) ∧
    (¬ held → (recHome r = true → s.isSpent r = false) → s.kfree = 0 → s.admitSix a = s.admitEnd a 0x27 0 false) ∧
    (¬ held → (recHome r = true → s.isSpent r = false) → s.kfree ≠ 0 → s.classRoom (fieldAt r 7 1) (amounts r 128) = false →
      s.admitSix a = s.admitEnd a 0x28 0 false) ∧
    (¬ held → (recHome r = true → s.isSpent r = false) → s.kfree ≠ 0 → s.classRoom (fieldAt r 7 1) (amounts r 128) = true →
      let x := { s.fromRecord r (a.slot.bind fun n => (s.pslot n).src) with prov := true }
      let b : Admit := { a with step := 9, ctx := x.id }
      s.admitSix a = State.admitNine b (State.setAdmit b { s.enter x with free_ := amtSub s.free_ x.aw })) ∧
    (∀ img x, s.admitImage a = .ok img → s.cx? a.ctx = some x →
      (∀ st, s.build x img = .error st → s.admitNine a = s.admitUndo a st) ∧
      (∀ y u, s.build x img = .ok (y, u) →
        let v := match a.req with | some w => u.iodNote w.key (fieldAt r 3840 8) img.length | none => u
        let z := v.updCx a.ctx fun _ => y
        (Config.shake256 img ≠ slice r 80 32 → s.admitNine a = z.admitUndo a 0x23) ∧
        (Config.shake256 img = slice r 80 32 → s.admitNine a = State.admitEleven { a with step := 11 } (z.setAdmit { a with step := 11 })))) ∧
    ((∀ c ∈ s.commits, c.kslot ≠ recSlot r) →
      (s.timeOk r = false → s.admitEleven a = s.admitUndo a 0x24) ∧
      (s.timeOk r = true → recHome r = true →
        s.admitEleven a = State.admitStart a (s.setKslot (recSlot r) ((s.kslot (recSlot r)).commit (recSerial r)))) ∧
      (s.timeOk r = true → recHome r = false →
        let c : Commit := { slot := a.slot, req := a.req, kslot := recSlot r, serial := recSerial r, hkey := slice (a.rcpt.getD []) 128 1952
                            ctx := a.ctx, since := s.iod }
        s.admitEleven a = State.out (.note 0 (recSerial r) (Config.mldsaSign (leBytes (recSerial r) 8)))
          { s with admits := s.admits.filter (fun b => !(a.same b)), commits := s.commits ++ [c] })))

/-- R295 to R298, R302, R303, R308, R376. -/
def CommitEvents : Prop :=
  (∀ (k serial : Nat) (target sig : List Byte) (s : State),
    let hit (x : Resv) : Bool := x.kslot = k % 16 && x.serial = serial && x.target = Config.shake256 target
    let good := Config.mldsaVerify target (leBytes serial 8) sig = true
    (s.resv.any hit = true → good → (s.kslot k).floor ≤ serial →
      exec (.commitNote k serial target sig) s = .next (State.out (.note 1 serial (Config.mldsaSign (leBytes serial 8)))
        (State.setKslot k ((s.kslot k).commit serial) { s with resv := s.resv.map fun x => if hit x then { x with done := true } else x }))) ∧
    (s.resv.any hit = false ∨ ¬ good ∨ serial < (s.kslot k).floor → exec (.commitNote k serial target sig) s = .next s) ∧
    (∀ x, s.resv.find? hit = some x → good →
      let u : State := { s with resv := s.resv.filter fun x => !(hit x) }
      (x.done = false → exec (.releaseNote k serial target sig) s = .next u) ∧
      (x.done = true → exec (.releaseNote k serial target sig) s = .next (u.setKslot k ((u.kslot k).uncommit serial)))) ∧
    (s.resv.find? hit = none ∨ ¬ good → exec (.releaseNote k serial target sig) s = .next s)) ∧
  (∀ (k : KeySlot) (n : Nat),
    (k.floor ≤ n → (k.commit n).spent n = true) ∧ (n < k.floor → k.commit n = k) ∧
    (n < k.floor → k.uncommit n = k) ∧ (k.floor ≤ n → (k.uncommit n).spent n = false) ∧
    (∀ m, m ≠ n → k.floor ≤ n → n ≤ k.floor + 4095 → (k.commit n).spent m = k.spent m)) ∧
  (∀ (serial : Nat) (sig : List Byte) (s : State),
    let ack (c : Commit) : Bool := c.serial = serial && Config.mldsaVerify c.hkey (leBytes serial 8) sig && s.iod < c.since + 100000
    let late (c : Commit) : Bool := c.serial = serial && c.since + 100000 ≤ s.iod
    let less (c : Commit) : State := { s with commits := s.commits.filter fun x => !(x.kslot = c.kslot && x.serial = c.serial) }
    let held (c : Commit) : Admit := { slot := c.slot, req := c.req, rec_ := [], rcpt := none, step := 11, ctx := c.ctx }
    (∀ c, s.commits.find? ack = some c → exec (.commitAcknowledgement serial sig) s = .next ((less c).admitStart (held c))) ∧
    (s.commits.find? ack = none → exec (.commitAcknowledgement serial sig) s = .next s) ∧
    (∀ c, s.commits.find? late = some c → exec (.commitTimeout serial) s = .next
      (State.out (.note 2 serial (Config.mldsaSign (leBytes serial 8))) ((less c).admitUndo (held c) 0x2A))) ∧
    (s.commits.find? late = none → exec (.commitTimeout serial) s = .next s)) ∧
  (∀ (a : Admit) (st : BitVec 8) (s : State) (x : Context), s.cx? a.ctx = some x →
    (s.admitStart a = (s.updCx a.ctx fun y => { y with prov := false, parked := s.parkOn x }).admitEnd a 0 a.ctx (s.parkOn x)) ∧
    (s.admitUndo a st =
      State.admitEnd a st 0 false { s.removeContext a.ctx with free_ := amtAdd (s.removeContext a.ctx).free_ x.aw })) ∧
  (∀ (k : Nat) (w : WReq) (s : State), s.wops[k]? = some w →
    let j := s.atKey w.key
    let first := ∀ v ∈ s.wops.take k, v.op.isWarrant = true → v.key.ctx ≠ w.key.ctx
    let word (st : BitVec 8) (ctx : Nat) (parked : Bool) : Word := doneWord (ctx % 128 + if parked then 128 else 0) st
    (w.op.isWarrant = true → ¬ first → exec (.warrantOperationCompletion k) s = .next s) ∧
    (w.op.isWarrant = true → first → j.cx.replay ≠ none → exec (.warrantOperationCompletion k) s = .next
      ((match w.op.target with | some t => j.unbusy t | none => j).wopEnd w 0)) ∧
    (first → j.cx.replay = none →
      (∀ t, w.op = .surr t →
        exec (.warrantOperationCompletion k) s = .next (((j.unbusy t).wsurr t).wopEnd w (word 0 0 false))) ∧
      (∀ x t a, w.op = .split x t a →
        (∀ b, j.iodRead w.key a.toNat 64 = .ok b → let u := ((j.iodNote w.key a.toNat 64).atKey w.key).unbusy t
          exec (.warrantOperationCompletion k) s = .next ((u.wsplit x t b).2.wopEnd w (word (u.wsplit x t b).1 0 false))) ∧
        (∀ e st, j.iodRead w.key a.toNat 64 = .error e → opStatus e = some st →
          exec (.warrantOperationCompletion k) s = .next ((j.unbusy t).wopEnd w (word st 0 false))) ∧
        (∀ e, j.iodRead w.key a.toNat 64 = .error e → opStatus e = none →
          exec (.warrantOperationCompletion k) s = .next (j.waitNote e))) ∧
      (∀ t a, w.op = .deleg t a →
        (∀ b, j.iodRead w.key a.toNat 64 = .ok b → let u := ((j.iodNote w.key a.toNat 64).atKey w.key).unbusy t
          let r := u.wdeleg w.key t b
          exec (.warrantOperationCompletion k) s = .next (r.2.2.2.wopEnd w (word r.1 r.2.1 r.2.2.1))) ∧
        (∀ e st, j.iodRead w.key a.toNat 64 = .error e → opStatus e = some st →
          exec (.warrantOperationCompletion k) s = .next ((j.unbusy t).wopEnd w (word st 0 false))) ∧
        (∀ e, j.iodRead w.key a.toNat 64 = .error e → opStatus e = none →
          exec (.warrantOperationCompletion k) s = .next (j.waitNote e))) ∧
      (∀ a b, w.op = .pres a b → exec (.warrantOperationCompletion k) s = .next (j.wpresAt w a b))) ∧
    (∀ a n, w.op = .xinv a n →
      (∀ r, j.xinv a.toNat n.toNat = some r → exec (.warrantOperationCompletion k) s = .next (r.2.wopEnd w (doneWord 0 r.1))) ∧
      (j.xinv a.toNat n.toNat = none → exec (.warrantOperationCompletion k) s = .next j)) ∧
    (∀ a m n, w.op = .xnew a m n → let r := j.xmapNew a.toNat m.toNat n.toNat
      exec (.warrantOperationCompletion k) s = .next (r.2.wopEnd w (doneWord 0 r.1))) ∧
    (∀ a m n, w.op = .xattr a m n →
      (∀ r, j.xmapAttr a.toNat m.toNat n.toNat = some r → exec (.warrantOperationCompletion k) s = .next (r.2.wopEnd w (doneWord 0 r.1))) ∧
      (j.xmapAttr a.toNat m.toNat n.toNat = none → exec (.warrantOperationCompletion k) s = .next j)) ∧
    (∀ a n, w.op = .xunmap a n →
      (∀ r, j.xunmap a.toNat n.toNat = some r → exec (.warrantOperationCompletion k) s = .next (r.2.wopEnd w (doneWord 0 r.1))) ∧
      (j.xunmap a.toNat n.toNat = none → exec (.warrantOperationCompletion k) s = .next j))) ∧
  (∀ (x t : Fin 8) (b : List Byte) (s : State),
    let a := amounts b 0
    let room : Vector Nat 8 := if x = 0 then Vector.ofFn fun k : Fin 8 => s.cx.quota[k] - s.cx.u k
      else if s.cx.ws[x].st = .held then s.cx.ws[x].amt else Vector.replicate 8 0
    (a[5] ≠ 0 ∨ a[6] ≠ 0 ∨ a[7] ≠ 0 → s.wsplit x t b = (0x20, s)) ∧
    (a[5] = 0 → a[6] = 0 → a[7] = 0 → (amtLe a room = false ∨ (s.cx.ws[x].st ≠ .held ∧ s.cx.ws[x].st ≠ .funding)) →
      s.wsplit x t b = (0x29, s)) ∧
    (a[5] = 0 → a[6] = 0 → a[7] = 0 → amtLe a room = true → (s.cx.ws[x].st = .held ∨ s.cx.ws[x].st = .funding) →
      let c := if x = 0 then { s.cx with quota := amtSub s.cx.quota a } else s.cx.updWs x fun w => { w with amt := amtSub w.amt a }
      s.wsplit x t b = (0, { s with cx := c.updWs t fun _ => { st := .held, amt := a } }))) ∧
  (∀ (k : TKey) (t : Fin 8) (b : List Byte) (s : State),
    (zeros b 40 24 = false → s.wdeleg k t b = (0x20, 0, false, s)) ∧
    (zeros b 40 24 = true → s.kfree = 0 → s.wdeleg k t b = (0x27, 0, false, s))) ∧
  (∀ (t : Fin 8) (s : State),
    s.wsurr 0 = { s with cx := { s.cx with surr := true } } ∧
    (t ≠ 0 → s.wsurr t = { s with cx := { s.cx.updWs t fun _ => {} with quota := amtAdd s.cx.quota s.cx.ws[t].amt } }))

end Sys2Proof.Ob

/-- Presentation slots, admission, receipts, notes of time and the operations of the IOD. Slots (R359 to R361): a slot takes the bytes of its
source, and a legal pgo starts its op; each op ends with its status in pstat; a slot lapses after ten seconds without a write. A nonce is
drawn and kept, a note that passes the checks of R368 is in force from now on (R367), a receipt reserves the serial for its target, at most
256 at once (R373), a receipt nonce lasts sixty seconds (R374), the graph's words go to the source that presented it. A presentation makes
the checks of R362 in order, at most four at once (R365), and ends as R363 says, undone where it fails after it took something; at the home
device a commit note turns the reservation it matches into a redemption and is acknowledged, and a release note makes the serial unspent;
at the target device the acknowledgement within 100 ms starts the context, and without it the build is undone with status 0x2A (R371,
R376). The IOD performs the operations that threads asked for, the warrant operations of a context in order (R295 to R298, R302, R303,
R308). -/
def Obligations.AdmissionEvents : Prop := Ob.PresentationEvents ∧ Ob.CommitEvents

namespace Sys2Proof.Ob

/-- R385 to R388, R422, R500: what go does, and what a record that is due does. -/
def Records : Prop :=
  (∀ (d : Nat) (s : State),
    (d < 4 → (s.die d).busy = true →
      (recOp (s.die d).rec_ ≠ 2 → recOp (s.die d).rec_ ≠ 3 → exec (.bindStart d) s = .next (s.goWith d)) ∧
      (recOp (s.die d).rec_ = 2 → exec (.bindResume d) s = .next (s.goWith d)) ∧
      (recOp (s.die d).rec_ = 3 → exec (.bindUnbind d) s = .next (s.goWith d)) ∧
      (recOp (s.die d).rec_ = 2 ∨ recOp (s.die d).rec_ = 3 → exec (.bindStart d) s = .next s) ∧
      (recOp (s.die d).rec_ ≠ 2 → exec (.bindResume d) s = .next s) ∧ (recOp (s.die d).rec_ ≠ 3 → exec (.bindUnbind d) s = .next s)) ∧
    (4 ≤ d ∨ (s.die d).busy = false →
      exec (.bindStart d) s = .next s ∧ exec (.bindResume d) s = .next s ∧ exec (.bindUnbind d) s = .next s) ∧
    (let c := (s.die d).core d
     let st := if (s.die d).target.toNat % 64 < 48 then s.bindStatus c (s.die d).rec_ else 6
     let u := s.setDie d { s.die d with busy := false, bstat := st }
     let v := match u.phys? c with | some p => u.wakeCore p | none => u
     s.goWith d = if st = 0 then { v with pends := v.pends ++ [⟨c, (s.die d).rec_, (v.core? c).clk⟩] } else v)) ∧
  (∀ (k : Nat) (p : Pend) (s : State), s.pends[k]? = some p →
    let b := recBind p.core p.rec_
    let t : State := { s with pends := s.pends.eraseIdx k }
    let due := (∃ q, s.phys? p.core = some q ∧ (s.pcore q).pw = .on) ∧ (s.core? p.core).clk % 64 = 0 ∧ p.at_ + 64 ≤ (s.core? p.core).clk ∧
      (recOp p.rec_ = 2 → ∀ v, s.savedFor p = some v → ∀ t ∈ v.ths, t.slot < 8 ∨ s.eddyFree p.core (t.slot - 8) = true)
    let lacks := (s.bind? p.core b.ctx).isSome = true ∨ (s.cx? b.ctx).bind (·.task? b.task) = none
    (¬ due → exec (.bindRecordApply k) s = .next s) ∧
    (due → recOp p.rec_ = 3 → exec (.bindRecordApply k) s = .next ((t.unbindCore p.core b.ctx).dropPkts p.core b.ctx)) ∧
    (due → recOp p.rec_ ≠ 3 → lacks → exec (.bindRecordApply k) s = .next t) ∧
    (due → recOp p.rec_ = 1 → ¬ lacks → exec (.bindRecordApply k) s = .next (t.applyStart b p.rec_[6])) ∧
    (∀ v, due → recOp p.rec_ = 2 → ¬ lacks → s.savedFor p = some v → exec (.bindRecordApply k) s = .next (t.applyResume b v)) ∧
    (due → recOp p.rec_ = 2 → ¬ lacks → s.savedFor p = none → exec (.bindRecordApply k) s = .next t)) ∧
  (∀ (k : Nat) (s : State), s.pends[k]? = none → exec (.bindRecordApply k) s = .next s)

/-- R386: the statuses, in the order of the checks. -/
def RecordStatus : Prop :=
  ∀ (c : Nat) (r : Vector Word 8) (s : State),
    let b := recBind c r
    let others := (s.boundList c).filter fun x => x.ctx != b.ctx
    let gale := r[0].toNat / 2 ^ 16 % 4 = 2
    let byte (w : Word) (k : Nat) : Nat := w.toNat / 2 ^ (8 * k) % 256
    let bad := r[0] &&& 0xFFFF0000F8E080F8 ≠ 0 ∨ r[2] ≠ 0 ∨ r[3] &&& ~~~0x3FF01FF#64 ≠ 0 ∨ (r[0].toNat % 8 ≠ 1 ∧ r[6] ≠ 0) ∨
      r[7] &&& 0xFFF0000000000FFF ≠ 0 ∨ r[0].toNat % 8 = 0 ∨ 3 < r[0].toNat % 8 ∨ r[0].toNat / 2 ^ 16 % 4 = 3 ∨ (b.lee = true ∧ ¬ gale) ∨
      (b.dark = true ∧ (b.lee = true ∨ b.eng = true ∨ r[1] ≠ 0 ∨ r[3] ≠ 0 ∨ r[0].toNat / 2 ^ 24 % 8 ≠ 0))
    let e2 := b.dark = false ∧ ((b.lee = false ∧ 512 < b.base + b.lines) ∨ (b.lee = true ∧ b.base ≠ 0) ∨ ∃ x ∈ others, b.clash x = true)
    let e3 := ∃ x ∈ others, x.mask &&& b.mask ≠ 0
    let e4 := b.dark = false ∧ ((∃ k < 6, byte b.caps k < byte b.mins k) ∨ (∃ k < 3, byte b.mins k ≠ 3 ∨ byte b.caps k ≠ 3) ∨
      r[4].toNat / 2 ^ 48 ≠ 0 ∨ r[5].toNat / 2 ^ 48 ≠ 0 ∨ 256 < ((b :: others).map fun x => ((List.range 6).map (byte x.mins)).sum).sum)
    let p := s.partner c b.ctx b.task b.dark
    let e5 := (∃ x ∈ others, gale ∨ b.dark = true ∨ x.heat = .gale ∨ x.dark = true) ∨ (b.lee = true ∧ s.pairOk c p = false) ∨
      (b.dark = true ∧ s.pairOk p c = false)
    let e7 := r[0].toNat % 8 = 3 ∧ ∃ t ∈ s.threads, t.core = c ∧ t.ctx = b.ctx ∧ t.slot < 8
    let e8 := b.dark = false ∧ ∀ x, s.cx? b.ctx = some x → x.slots ≠ ((List.range 64).filter fun i => b.mask.getLsbD i).length
    let e9 := b.eng = true ∧ ∃ x ∈ others, x.eng = true
    (bad → s.bindStatus c r = 1) ∧ (¬ bad → s.phys? c = none → s.bindStatus c r = 6) ∧
    (¬ bad → s.phys? c ≠ none → (e2 → s.bindStatus c r = 2) ∧ (¬ e2 → (e3 → s.bindStatus c r = 3) ∧ (¬ e3 → (e4 → s.bindStatus c r = 4) ∧
      (¬ e4 → (e5 → s.bindStatus c r = 5) ∧ (¬ e5 → (e7 → s.bindStatus c r = 7) ∧ (¬ e7 → (e8 → s.bindStatus c r = 8) ∧
      (¬ e8 → (e9 → s.bindStatus c r = 9) ∧ (¬ e9 → s.bindStatus c r = 0))))))))

/-- R385, R390, R502, R18: the registers of the management core, as they are written and read. -/
def Registers : Prop :=
  ∀ (d : Nat) (v : Word) (s : State), d < 4 →
    let x := s.die d
    let n := v.toNat
    (exec (.registerWrite (0xF000020000000 + d * 0x1000000) v) s = .next (s.setDie d { x with target := v.setWidth 10 })) ∧
    (∀ i : Fin 8, exec (.registerWrite (0xF000020000000 + d * 0x1000000 + 0x40 + 8 * i.val) v) s =
      .next (s.setDie d { x with rec_ := x.rec_.set i v })) ∧
    (exec (.registerWrite (0xF000020000000 + d * 0x1000000 + 0x80) v) s = .next (if v = 1 then s.setDie d { x with busy := true } else s)) ∧
    (∀ o, o % 8 = 0 → 0x1000 ≤ o → o < 0x1600 →
      exec (.registerWrite (0xF000020000000 + d * 0x1000000 + o) v) s = .next ((List.range 4).foldl (fun s i =>
        s.writeL2p (768 * d + (o - 0x1000) / 2 + i) (l2pEntry (n / 2 ^ (16 * i) % 2 ^ 16))) s)) ∧
    (exec (.registerWrite (0xF000030000000 + d * 0x1000000) v) s =
      .next (if 10 ≤ n && n ≤ 1000 then s.setDie d { x with pbhold := n } else s)) ∧
    (exec (.registerWrite (0xF000030000000 + d * 0x1000000 + 8) v) s =
      .next (if n % 1024 < 768 then s.wakeCore (768 * d + n % 1024) else s)) ∧
    (exec (.registerWrite (0xF000030000000 + d * 0x1000000 + 0x10) v) s =
      .next (if n % 256 < n / 256 % 256 && n / 256 % 256 < n / 65536 % 256 && n / 65536 % 256 ≤ 110 then
        s.setDie d { x with tr := n % 256, tt := n / 256 % 256, td := n / 65536 % 256 } else s)) ∧
    (∀ i : Fin 12, exec (.registerWrite (0xF000030000000 + d * 0x1000000 + 0x200 + 8 * i.val) v) s =
      .next (s.setDie d { x with pidle := x.pidle.set i n })) ∧
    (∀ a, (a < 0xF000020000000 ∨ 0xF000024000000 ≤ a) → (a < 0xF000030000000 ∨ 0xF000034000000 ≤ a) →
      exec (.registerWrite a v) s = .next (s.out (.reg a v true)) ∧ s.registerRead a = s.out (.reg a 0 true)) ∧
    (∀ c p, let carries (l : Nat) : Prop := s.boundList l ≠ []
      (carries c ∨ (∃ q l, p = some q ∧ s.logical? q = some l ∧ carries l) → s.writeL2p c p = s) ∧
      (¬ carries c → (∀ q l, p = some q → s.logical? q = some l → ¬ carries l) → s.writeL2p c p = s.setL2p c p)) ∧
    (s.registerRead (0xF000020000000 + d * 0x1000000) = s.out (.reg (0xF000020000000 + d * 0x1000000) (x.target.setWidth 64) false)) ∧
    (s.registerRead (0xF000020000000 + d * 0x1000000 + 0x88) = s.out (.reg (0xF000020000000 + d * 0x1000000 + 0x88)
      (x.bstat.setWidth 64 ||| if x.busy then 0x80000000 else 0) false)) ∧
    (s.registerRead (0xF000030000000 + d * 0x1000000) = s.out (.reg (0xF000030000000 + d * 0x1000000) (BitVec.ofNat 64 x.pbhold) false)) ∧
    (∀ i < 768, s.registerRead (0xF000030000000 + d * 0x1000000 + 0x1000 + 8 * i) =
      s.out (.reg (0xF000030000000 + d * 0x1000000 + 0x1000 + 8 * i) (s.pcore (768 * d + i)).word false))

end Sys2Proof.Ob

/-- R384 to R390, R422, R500, R502: a go answers with the status of its record, wakes the core it is for, and leaves an accepted record to take
effect at the start of a frame at least 64 clk later; a start makes the threads of its task at the entry point, a resume brings back what
was saved, once its eddies' contexts are free, an unbind frees the core and drops what is on its way to it; the checks of R386 in their
order; the management core's registers take and give what R387, R390 and R502 say, and an address where none stands answers with error
status (R18). -/
def Obligations.DispatchEvents : Prop := Ob.Records ∧ Ob.RecordStatus ∧ Ob.Registers

namespace Sys2Proof.Ob

/-- R400, R440, R441, R497 to R502. -/
def PowerEvents : Prop :=
  ∀ (p : Nat) (s : State), let x := s.pcore p
    (3072 ≤ p → exec (.wake p) s = .next s) ∧
    (p < 3072 → x.pw = .on ∨ x.pw = .switching → exec (.wake p) s = .next s) ∧
    (p < 3072 → x.pw = .hold → exec (.wake p) s = .next (s.setPcore { x with pw := .on })) ∧
    (p < 3072 → x.pw = .off → let r := s.prow (p / 16)
      (p ∈ r.queue → exec (.wake p) s = .next s) ∧
      (p ∉ r.queue → exec (.wake p) s = .next (State.grant (s.setProw { r with queue := r.queue ++ [p] }) (p / 16)))) ∧
    (∀ r, let y := s.prow r
      let some2 := 2 ≤ (s.pcores.filter fun z => z.id / 16 = r && z.pw = .switching).length
      (y.queue = [] ∨ some2 → s.grant r = s) ∧
      (∀ q l, y.queue = q :: l → ¬ some2 → s.grant r = (s.setPcore { s.pcore q with pw := .switching }).setProw { y with queue := l })) ∧
    (∀ die n, (die < 4 → n < 768 → exec (.pwake die n) s = exec (.wake (768 * die + n)) s) ∧
      (4 ≤ die ∨ 768 ≤ n → exec (.pwake die n) s = .next s)) ∧
    (x.pw = .switching →
      let u : State := { s with pends := s.pends.map fun e => if s.phys? e.core = some p then { e with at_ := (s.core? e.core).clk } else e }
      exec (.switchOnComplete p) s = .next (State.grant (u.setPcore { x with
        pw := .on, ratio := 8, want := none, acts := [], cool := none, ratioAt := s.iod, window := 8 }) (p / 16))) ∧
    (x.pw ≠ .switching → exec (.switchOnComplete p) s = .next s) ∧
    (x.pw = .hold → x.since + (s.die (p / 768)).pbhold ≤ s.iod → exec (.holdExpiry p) s = .next (s.setPcore { x with pw := .off })) ∧
    (x.pw ≠ .hold ∨ s.iod < x.since + (s.die (p / 768)).pbhold → exec (.holdExpiry p) s = .next s) ∧
    (∀ r, exec (.rowVoltageReached r) s = .next (s.setProw { s.prow r with
      mv := ((s.pcores.filter fun y => y.id / 16 = r && (y.pw = .on || y.pw = .hold)).map fun y =>
        max (ratioMv y.ratio) ((y.want.map ratioMv).getD 0)).foldl max 650 })) ∧
    (∀ r, x.want = some r → (x.pw = .on ∨ x.pw = .hold) → ratioMv r ≤ (s.prow (p / 16)).mv →
      exec (.ratioChange p) s = .next { s.setPcore { x with ratio := r, want := none, ratioAt := s.iod } with
        pkts := s.pkts ++ [.window p (64 / r)] }) ∧
    (∀ r, x.want = some r → (x.pw = .off ∨ x.pw = .switching) ∨ (s.prow (p / 16)).mv < ratioMv r → exec (.ratioChange p) s = .next s) ∧
    (x.want = none → exec (.ratioChange p) s = .next s) ∧
    (∀ core bank, exec (.leeBankRetention core bank) s = .next (s.updCore core fun c => { c with
      banks := Vector.ofFn fun i : Fin 20 => if i.val = bank && c.banks[i] = .awake then .retention else c.banks[i] })) ∧
    ratioMv 1 = 850 ∧ ratioMv 2 = 780 ∧ ratioMv 3 = 740 ∧ ratioMv 4 = 710 ∧ (∀ r, 5 ≤ r → ratioMv r = 650)

/-- R286, R306, R394, R403 to R407, R503, R504. -/
def HeatEvents : Prop :=
  (∀ (core ctx thr : Nat) (s : State), (s.thread? ⟨core, ctx, thr⟩).isSome = true →
    let j := s.focus ⟨core, ctx, thr⟩
    (∀ w, j.bd.irq = some w → j.th.canTake = true → j.halted j.th = false → let x := j.noticeNow w
      let u := (State.record 7 x.toNat [] { j with bd := { j.bd with irq := none } }).pastHint
      exec (.heatNoticeInterrupt core ctx thr) s = .next (u.takeTrap irqHeat x u.th.irqPc false false)) ∧
    (j.bd.irq = none ∨ j.th.canTake = false ∨ j.halted j.th = true → exec (.heatNoticeInterrupt core ctx thr) s = .next j) ∧
    (∀ w r, j.th.irqs = w :: r → j.th.canTake = true → j.halted j.th = false →
      let u := State.pastHint { j with th := { j.th with irqs := r } }
      exec (.warrantEventInterrupt core ctx thr) s = .next (u.takeTrap irqWarrant w u.th.irqPc false false)) ∧
    (j.th.irqs = [] ∨ j.th.canTake = false ∨ j.halted j.th = true → exec (.warrantEventInterrupt core ctx thr) s = .next j)) ∧
  (∀ (core ctx thr : Nat) (s : State), s.thread? ⟨core, ctx, thr⟩ = none →
    exec (.heatNoticeInterrupt core ctx thr) s = .next s ∧ exec (.warrantEventInterrupt core ctx thr) s = .next s) ∧
  (∀ (p temp : Nat) (s : State),
    (3072 ≤ p → exec (.sensorReading p temp) s = .next s) ∧
    (p < 3072 → exec (.sensorReading p temp) s = .next ((s.setPcore { s.pcore p with temp }).judge p)) ∧
    (let h := s.heatHead p
     let x := s.pcore h
     let d := s.die (p / 768)
     let t := ((s.heatGroup p).map fun q => (s.pcore q).temp).foldl max 0
     let cool := if t ≤ d.tr then some (x.cool.getD s.iod) else none
     let u := s.setPcore { x with cool }
     let faster := (∃ c, cool = some c ∧ max c x.ratioAt + 1000 ≤ s.iod) ∧ 1 < x.aimed ∧ s.inhibit = false
     (x.powered = false → s.judge p = u) ∧
     (x.powered = true → d.td ≤ t → (u.driftTarget h).isSome = true → s.judge p = u.heatPost h 2 0 20) ∧
     (x.powered = true → d.td ≤ t → u.driftTarget h = none → s.judge p = if x.aimed < 8 then u.heatPost h 1 8 20 else u) ∧
     (x.powered = true → t < d.td → d.tt ≤ t → s.judge p = if x.aimed < 8 then u.heatPost h 1 (x.aimed + 1) 20 else u) ∧
     (x.powered = true → t < d.td → t < d.tt → faster → s.judge p = u.heatPost h 3 (x.aimed - 1) 0) ∧
     (x.powered = true → t < d.td → t < d.tt → ¬ faster → s.judge p = u))) ∧
  (∀ (p kind ratio us : Nat) (s : State), let h := s.heatHead p
    ((∃ a ∈ (s.pcore h).acts, a.kind = kind) → s.heatPost p kind ratio us = s) ∧
    ((∀ a ∈ (s.pcore h).acts, a.kind ≠ kind) →
      (s.heatBinds p = [] → kind = 2 → s.heatPost p kind ratio us = s) ∧
      (s.heatBinds p = [] → kind ≠ 2 → s.heatPost p kind ratio us = s.updPcore p (PCore.goTo ratio)) ∧
      (s.heatBinds p ≠ [] → let w := BitVec.ofNat 64 (kind + 2 ^ 8 * (if kind = 2 then 0 else ratio) + 2 ^ 16 * us)
        s.heatPost p kind ratio us = ((s.heatBinds p).foldl (fun s b => if s.replaying b.ctx then s
          else s.updBd b.core b.ctx fun b => { b with notice := w, due := s.iod + us, irq := some w }) s).updPcore h
            fun x => { x with acts := x.acts ++ [⟨kind, ratio, s.iod + us⟩] }))) ∧
  (∀ (p : Nat) (s : State), let h := s.heatHead p
    let due (a : HAct) : Prop := a.due ≤ s.iod ∨ ∀ b ∈ s.heatBinds h, b.notice.getLsbD 63 = true
    (∀ a b l, (s.pcore h).acts = b ++ a :: l → (∀ y ∈ b, ¬ due y) → due a → a.kind ≠ 2 →
      exec (.heatAction p) s = .next ((s.dropAct h a.kind).throttleTo h a.ratio)) ∧
    (∀ a b l, (s.pcore h).acts = b ++ a :: l → (∀ y ∈ b, ¬ due y) → due a → a.kind = 2 →
      exec (.heatAction p) s = exec (.drift h) s) ∧
    ((∀ a ∈ (s.pcore h).acts, ¬ due a) → exec (.heatAction p) s = .next s) ∧
    ((∀ a ∈ (s.pcore h).acts, a.kind ≠ 2) → exec (.drift p) s = .next s) ∧
    (∀ a b l, (s.pcore h).acts = b ++ a :: l → (∀ y ∈ b, y.kind ≠ 2) → a.kind = 2 →
      let g := s.heatGroup h
      let bs := g.flatMap s.bindsOn
      let dropped := bs = [] ∨ ∃ b ∈ bs, ∃ x t, s.cx? b.ctx = some x ∧ x.task? b.task = some t ∧ t.st = .saving
      let u := bs.foldl (fun s b => s.leaveGroups b.core b.ctx) s
      (¬ due a → exec (.drift p) s = .next s) ∧
      (due a → dropped → exec (.drift p) s = .next (s.dropAct h 2)) ∧
      (due a → ¬ dropped → s.driftTarget h = none → exec (.drift p) s = .next ((s.dropAct h 2).throttleTo h 8)) ∧
      (∀ q, due a → ¬ dropped → s.driftTarget h = some q → (∃ b ∈ g.flatMap u.bindsOn, u.mayDrift b = false) →
        exec (.drift p) s = .next u) ∧
      (∀ q, due a → ¬ dropped → s.driftTarget h = some q → (∀ b ∈ g.flatMap u.bindsOn, u.mayDrift b = true) →
        exec (.drift p) s = .next (if g.length = 2 then ((u.dropAct h 2).moveCore h q).moveCore (h ^^^ 1) (q ^^^ 1)
          else (u.dropAct h 2).moveCore h q)))) ∧
  (∀ (watts outlet flow : Nat) (s : State),
    let u : State := { s with inhibit := decide (2200 < watts) }
    (watts ≤ 2400 → exec (.modulePowerSense watts) s = .next { u with overAt := none }) ∧
    (2400 < watts → (∀ t, s.overAt = some t → t + 1000 ≤ s.iod) →
      exec (.modulePowerSense watts) s = .next (u.heads.foldl (fun s p =>
        if (s.pcore p).aimed < 8 then s.heatPost p 1 ((s.pcore p).aimed + 1) 20 else s) { u with overAt := some s.iod })) ∧
    (∀ t, 2400 < watts → s.overAt = some t → s.iod < t + 1000 → exec (.modulePowerSense watts) s = .next u) ∧
    (outlet ≤ 65 → 10 ≤ flow → exec (.coldPlateAlarm outlet flow) s = .next s) ∧
    (65 < outlet ∨ flow < 10 → exec (.coldPlateAlarm outlet flow) s = .next ((s.heads.foldl (fun s p =>
      if (s.pcore p).acts.any fun a => a.kind = 1 then
        s.setPcore { s.pcore p with acts := (s.pcore p).acts.map fun a => if a.kind = 1 then { a with ratio := 8 } else a }
      else if (s.pcore p).aimed < 8 then s.heatPost p 1 8 20 else s) s).mcheck 6 0 outlet)))

end Sys2Proof.Ob

/-- Power (R400, R440, R441, R497 to R502): a wake takes a held core back at once, and an unpowered one through its row's arbiter, which lets
two switch on at a time, in order; a core that has switched on stands at ratio 8; one held for pbhold µs is off; a row reaches the voltage
its cores need, and a core takes its new ratio once the row has it, with an update of its window; an awake bank of a lee goes into
retention. Heat (R286, R306, R403 to R407, R503, R504): a thread that can be interrupted takes a held notice, or a warrant event, at its
boundary; a reading is judged by the warmer of a pair against Tr, Tt and Td; a notice is posted to every context of the cores, once, and its
action follows when they acknowledge or its time is over; a drift moves what stands on a core, or a pair, to the coolest idle one, and is
dropped during a save or where nothing stands; the module's power lowers its heads' ratios above 2,400 W, once every 1 ms, and bars a rise above 2,200 W; a
cold-plate alarm sends every core to ratio 8 and tells firmware. -/
def Obligations.PowerAndHeatEvents : Prop := Ob.PowerEvents ∧ Ob.HeatEvents

/-! ### Events of the queues, the host link, the network and the seat -/

namespace Sys2Proof.Ob

/-- The wake router accepts a source for a queue of context j (R456, R465): the function that the descriptor names, the context itself, or a
peer that an accepting entry of the peer table names. -/
def WakeAccepts (j : State) (src : Src) (q : Nat) : Prop :=
  match src with
  | .host f _ => f = dFunc (j.desc q 0)
  | .ctx c => c = j.cx.id
  | .peer a c => ∃ p < 512, ∃ e, j.peer? p = some e ∧ e.accept = true ∧ e.addr = a ∧ e.ctx = c

/-- A wake of value v reaches queue q of the context in focus (R457, R458): in its slot it makes the queue look again, ends an error with bit
63, and brings the consumer's index with bit 62, whereupon a full ring's overflow is reported; with no slot, or one that it leaves, it is
merged into the wake word. -/
def WakeTaken (u : State) (q : Nat) (v : Word) (t : State) : Prop :=
  ((∀ x, u.queue? u.cx.id q = some x → x.leaving = true) → t = u.putDesc q 3 (mergeWake (u.desc q 3) v)) ∧
  ∀ x, u.queue? u.cx.id q = some x → x.leaving = false →
    let y : Queue := { x with pend := true, stop := false }
    let z : Queue := if v.getLsbD 63 = true ∧ x.err = true then
      { y with err := false, code := 0, look := y.inCall, ahead := y.rd, joined := false } else y
    (v.getLsbD 62 = false → t = u.setQueue z) ∧
    (v.getLsbD 62 = true →
      let a : Queue := { z with evr := v.toNat % 2 ^ 32 }
      let full := (a.evw + 2 ^ 32 - a.evr % 2 ^ 32) % 2 ^ 32 = dEvents a.w0
      (x.ovp = false ∨ full → t = u.setQueue a) ∧
      (x.ovp = true → ¬ full →
        let r := State.event 2 0 0 0 (min a.ovf (2 ^ 32 - 1)) { a with ovp := false } u
        t = r.2.setQueue r.1))

/-- A bad packet stands next in a queue: it is reserved, malformed or nested too deep (R452, R453). -/
def NextBad (x : Queue) (code : BitVec 8) (p : QPkt) : Prop :=
  x.err = false ∧ x.busy = none ∧ ∃ rest, x.look = p :: rest ∧ p.fin = false ∧ p.fault = some code

/-- A queue may issue its next packet. -/
def MayIssue (j : State) (x : Queue) (p : QPkt) (rest : List QPkt) : Prop :=
  x.look = p :: rest ∧ x.err = false ∧ x.busy = none ∧ p.fin = false ∧ (x.leaving = true → p.ring = false) ∧ j.cx.retired = false

/-- The queue once its next packet has issued. -/
def issued (x : Queue) (p : QPkt) (rest : List QPkt) : Queue :=
  { x with look := rest, busy := some p, rd := if p.ring then x.rd + 1 else x.rd }

/-- The effect of a packet of each type (R452): the queue goes on as y, in state t. -/
def Effect (j : State) (q type : Nat) (x : Queue) (p : QPkt) (y : Queue) (t : State) : Prop :=
  let va := p.w[2].toNat
  let n := p.w[4].toNat
  (type = 1 ∧ j.cx.running = false ∧ y = { x with launch := true } ∧ t = { j with cx := j.cx.launch (some q) }) ∨
  (type = 2 ∧ va + 65536 * n ≤ 2 ^ 56 ∧ meetsWin va (65536 * n) = false ∧ meetsFixed va (65536 * n) = false ∧
    (∀ e ∈ j.cx.ptes, e.meets va (65536 * n) = false) ∧ y = x ∧
    let es := (List.range n).map fun i => (⟨va + 65536 * i, 4,
      leafCtl 2 j.cx.key (p.w[5].getLsbD 16) (p.w[5].getLsbD 17) false false false (p.w[5].setWidth 11) 0 0,
      p.w[3] + wordN (65536 * i), dFunc x.w0, dPasid x.w0, 0⟩ : Pte)
    t = { j with cx := j.addTabs es { j.cx with ptes := j.cx.ptes ++ es } }) ∨
  (type = 3 ∧ ∃ es, j.cx.run n va = some es ∧ (∀ e ∈ es, e.state = 2) ∧ j.drained j.cx va (65536 * n) = true ∧ y = x ∧
    t = (j.unmapLeaves es).invalidate j.cx.id va (65536 * n)) ∨
  (type = 4 ∧ ∃ b, j.sideRead (dSide x.w0) (dFunc x.w0) (dPasid x.w0) va (64 * p.w[3].toNat) = .ok b ∧
    y = { x with
      look := ((List.range p.w[3].toNat).map fun i => packetOf (slice b (64 * i) 64) false (p.depth + 1)) ++
        { p with ring := false, fin := true } :: x.look
      busy := none } ∧
    t = j.sideNote (dSide x.w0) va b) ∨
  (type = 5 ∧ y = (if p.ring = true then { x with joined := false } else x) ∧ t = j) ∨
  (type = 6 ∧ y = x ∧ t = j)

/-- A packet has to wait: a launch while a graph runs, an unmap while accesses to its range stand, a call while its buffer's page comes. -/
def PacketWaits (j : State) (type : Nat) (x : Queue) (p : QPkt) : Prop :=
  let va := p.w[2].toNat
  (type = 1 ∧ j.cx.running = true) ∨
  (type = 3 ∧ ∃ es, j.cx.run p.w[4].toNat va = some es ∧ (∀ e ∈ es, e.state = 2) ∧ j.drained j.cx va (65536 * p.w[4].toNat) = false) ∨
  (type = 4 ∧ ∃ w, j.sideRead (dSide x.w0) (dFunc x.w0) (dPasid x.w0) va (64 * p.w[3].toNat) = .error (.wait w))

/-- A packet fails with code 3: the range of a map is not free, that of an unmap holds no host leaves, a call's buffer cannot be read. -/
def Fails (j : State) (type : Nat) (x : Queue) (p : QPkt) : Prop :=
  let va := p.w[2].toNat
  let n := p.w[4].toNat
  (type = 2 ∧ (2 ^ 56 < va + 65536 * n ∨ meetsWin va (65536 * n) = true ∨ meetsFixed va (65536 * n) = true ∨
    ∃ e ∈ j.cx.ptes, e.meets va (65536 * n) = true)) ∨
  (type = 3 ∧ ∀ es, j.cx.run n va = some es → ∃ e ∈ es, e.state ≠ 2) ∨
  (type = 4 ∧ ∃ m, j.sideRead (dSide x.w0) (dFunc x.w0) (dPasid x.w0) va (64 * p.w[3].toNat) = .error (.fail m))

/-- What completes next in a queue, and the queue without it: the packet that has issued, unless its launch runs, or a call at its buffer's
end. -/
def Completes (x : Queue) (p : QPkt) (y : Queue) : Prop :=
  (x.busy = some p ∧ x.launch = false ∧ y = { x with busy := none }) ∨
  (x.busy = none ∧ ∃ rest, x.look = p :: rest ∧ p.fin = true ∧ y = { x with look := rest })

/-- The two sides of the completion signal (R455): its 8 bytes hold the value, which goes down by one. -/
def signalRead (j : State) (x : Queue) (a : Word) : Except OpStop (List Byte) :=
  j.sideRead (a.getLsbD 0) (dFunc x.w0) (dPasid x.w0) (a.toNat / 8 * 8) 8
def signalWrite (j : State) (x : Queue) (a : Word) (b : List Byte) : Except OpStop State :=
  j.sideWrite (a.getLsbD 0) (dFunc x.w0) (dPasid x.w0) (a.toNat / 8 * 8) (leBytes ((leWord b) - 1).toNat 8)

/-- R456 to R458. -/
def WakeEvents : Prop :=
  ∀ (src : Src) (ctx q bytes : Nat) (v : Word) (s : State),
    let r : State := match src with | .host _ _ => { s with linkUp := true } | _ => s
    let j := r.atCx ctx
    ((s.cx? ctx = none ∨ bytes ≠ 8 ∨ 256 ≤ q) → exec (.wakeWrite src ctx q bytes v) s = .next r) ∧
    ((s.cx? ctx).isSome = true → bytes = 8 → q < 256 →
      (¬ WakeAccepts j src q → exec (.wakeWrite src ctx q bytes v) s = .next j) ∧
      (WakeAccepts j src q → ∃ t, exec (.wakeWrite src ctx q bytes v) s = .next t ∧
        WakeTaken (j.record 1 v.toNat (leBytes q 8)) q v t))

/-- R451, R458: a bind and an unmap. -/
def SlotEvents : Prop :=
  ∀ (ctx q slot : Nat) (s : State), let j := s.atCx ctx
    ((s.cx? ctx = none ∨ 256 ≤ q ∨ 64 ≤ slot ∨ (s.queue? ctx q).isSome = true) → exec (.queueBind ctx q slot) s = .next s) ∧
    ((s.cx? ctx).isSome = true → q < 256 → slot < 64 → s.queue? ctx q = none →
      let x := j.loadQueue q slot
      let free := (dKind x.w0 = 1 ∨ dKind x.w0 = 3) ∧ ∀ y ∈ j.queues, ¬ (y.die = x.die ∧ y.slot = slot)
      (¬ free → exec (.queueBind ctx q slot) s = .next j) ∧
      (free → descBad x.w0 x.base x.evBase = true →
        exec (.queueBind ctx q slot) s = .next (j.putDesc q 4 (Queue.status { x with err := true, code := 2 } false))) ∧
      (free → descBad x.w0 x.base x.evBase = false →
        let u := State.putDesc x.q 3 0 { j with queues := j.queues ++ [x] }
        let v := ({ j with queues := j.queues ++ [x] } : State).desc x.q 3
        (v = 0 → exec (.queueBind ctx q slot) s = .next (u.setQueue { x with pend := true })) ∧
        (v ≠ 0 → let r := State.applyWake v x u
          exec (.queueBind ctx q slot) s = .next (r.2.setQueue { r.1 with pend := true })))) ∧
    (s.queue? ctx q = none → exec (.queueUnmap ctx q) s = .next s) ∧
    (∀ x, s.queue? ctx q = some x →
      ((x.busy ≠ none ∨ x.inCall ≠ []) → exec (.queueUnmap ctx q) s = .next (j.setQueue { x with leaving := true })) ∧
      (x.busy = none → x.inCall = [] →
        let u := j.saveQueue x false
        let v := if x.pend = true then u.putDesc q 3 (u.desc q 3 ||| 1) else u
        let w : State := { v with queues := v.queues.filter fun y => !(Queue.is ctx q y) }
        (w.desc q 3 = 0 → exec (.queueUnmap ctx q) s = .next w) ∧
        (w.desc q 3 ≠ 0 → exec (.queueUnmap ctx q) s = exec (.queueBind ctx q x.slot) w)))

/-- R452 to R455, R459: the look-ahead, the issue of packets of every type, and their completion. -/
def PacketEvents : Prop :=
  ∀ (ctx q : Nat) (s : State), let j := s.atCx ctx
    let issues := [(Instr.launch ctx q, 1), (Instr.map ctx q, 2), (Instr.unmap ctx q, 3), (Instr.callPacket ctx q, 4), (Instr.join ctx q, 5),
      (Instr.signal ctx q, 6)]
    (s.queue? ctx q = none →
      exec (.lookAhead ctx q) s = .next s ∧ exec (.packetCompletion ctx q) s = .next s ∧ ∀ i ∈ issues, exec i.1 s = .next s) ∧
    ∀ x, s.queue? ctx q = some x →
      (∀ code p, NextBad x code p → exec (.lookAhead ctx q) s = .next (j.queueError code x p)) ∧
      ((∀ code p, ¬ NextBad x code p) →
        let still := x.err = true ∨ x.stop = true ∨ x.pend = false ∨ x.joined = true ∨ x.leaving = true ∨ 32 ≤ x.look.length
        let r := j.sideRead (dSide x.w0) (dFunc x.w0) (dPasid x.w0) (x.at x.ahead) 64
        (still → exec (.lookAhead ctx q) s = .next j) ∧
        (¬ still →
          (∀ w, r = .error (.wait w) → exec (.lookAhead ctx q) s = .next (j.startWalk w)) ∧
          (∀ m, r = .error (.fail m) → (x.busy ≠ none ∨ x.look ≠ []) → exec (.lookAhead ctx q) s = .next j) ∧
          (∀ m, r = .error (.fail m) → x.busy = none → x.look = [] →
            let u := State.queueStop 3 x (j.opNote (x.at x.ahead) (.fail m))
            exec (.lookAhead ctx q) s = .next (u.2.setQueue u.1)) ∧
          (∀ b, r = .ok b → let p := packetOf b true 0
            let u := j.sideNote (dSide x.w0) (x.at x.ahead) b
            (p.w[0].getLsbD 63 = true → exec (.lookAhead ctx q) s = .next
              (u.setQueue { x with look := x.look ++ [p], ahead := x.ahead + 1, joined := decide (p.type = 5) })) ∧
            (p.w[0].getLsbD 63 = false →
              exec (.lookAhead ctx q) s = .next (u.setQueue { x with stop := true, pend := x.ahead != x.rd }))))) ∧
      (∀ i ∈ issues,
        ((∀ p rest, ¬ MayIssue j x p rest) → exec i.1 s = .next j) ∧
        ∀ p rest, MayIssue j x p rest →
          (∀ code, p.fault = some code → exec i.1 s = .next (j.queueError code x p)) ∧
          (p.fault = none → p.type ≠ i.2 → exec i.1 s = .next j) ∧
          (p.fault = none → p.type = i.2 →
            let y := issued x p rest
            let clear (t : State) := t.sideWrite (dSide x.w0) (dFunc x.w0) (dPasid x.w0) (x.at x.rd) (List.replicate 8 0)
            (PacketWaits j i.2 y p → exec i.1 s = .next j) ∧
            (Fails j i.2 y p → exec i.1 s = .next (j.queueError 3 x p)) ∧
            ∀ z t, Effect j q i.2 y p z t →
              (p.ring = false → exec i.1 s = .next (t.setQueue z)) ∧
              (∀ u, p.ring = true → clear t = .ok u → exec i.1 s = .next (u.setQueue z)) ∧
              (∀ w, p.ring = true → clear t = .error (.wait w) → exec i.1 s = .next (j.startWalk w)) ∧
              (∀ m, p.ring = true → clear t = .error (.fail m) → exec i.1 s = .next (j.queueError 3 x p)))) ∧
      ((∀ p y, ¬ Completes x p y) → exec (.packetCompletion ctx q) s = .next j) ∧
      ∀ p y, Completes x p y →
        let fin (t : State) : Host.Outcome State Fault Refusal :=
          if y.leaving = true then exec (.queueUnmap y.ctx y.q) (t.setQueue y) else .next (t.setQueue y)
        let stops (m : Option Nat) : State :=
          let u := State.queueStop 3 y (j.opNote 0 (.fail m))
          u.2.setQueue u.1
        (p.w[1] = 0 → exec (.packetCompletion ctx q) s = fin j) ∧
        (p.w[1] ≠ 0 →
          (∀ w, signalRead j x p.w[1] = .error (.wait w) → exec (.packetCompletion ctx q) s = .next (j.startWalk w)) ∧
          (∀ m, signalRead j x p.w[1] = .error (.fail m) → exec (.packetCompletion ctx q) s = .next (stops m)) ∧
          ∀ b, signalRead j x p.w[1] = .ok b →
            (∀ t, signalWrite j x p.w[1] b = .ok t → exec (.packetCompletion ctx q) s = fin t) ∧
            (∀ w, signalWrite j x p.w[1] b = .error (.wait w) → exec (.packetCompletion ctx q) s = .next (j.startWalk w)) ∧
            (∀ m, signalWrite j x p.w[1] b = .error (.fail m) → exec (.packetCompletion ctx q) s = .next (stops m)))

end Sys2Proof.Ob

open Sys2Proof.Ob

/-- R450 to R459: a wake from a source that R456 accepts reaches its queue's slot, or its wake word, and any other is ignored; a bind puts a
queue with a good descriptor into a free slot, and takes the wake that waits for it, a bad one into error; an unmap takes a queue with
nothing under way out of its slot, and another once it can; the look-ahead reads the next packet, up to 32; each packet issues with its
effect, its header cleared and rd one further, waits, or stops the queue in error; a packet that has issued completes with its signal
lowered. -/
def Sys2Proof.Ob.QueueEvents : Prop := WakeEvents ∧ SlotEvents ∧ PacketEvents

/-- R442, R447, R448, R506: TDISP moves a virtual function's interface from unlocked to locked to run and back; leaving run ends what the
function has under way and stops its queues; an IDE key message secures a function's stream, at most 16 of them; a reset of the link
leaves contexts running and every interface unlocked, with the link down; a message of the host finds the link up again (log 20). -/
def Sys2Proof.Ob.HostLinkEvents : Prop :=
  (∀ (f : Nat) (s : State) (h : 1 ≤ f ∧ f < 65),
    let u : State := { s with linkUp := true }
    (s.tdi[f] = .unlocked → exec (.tdispRequest f .lock) s = .next { u with tdi := s.tdi.set f .locked }) ∧
    (s.tdi[f] ≠ .unlocked → exec (.tdispRequest f .lock) s = .next u) ∧
    (s.tdi[f] = .locked → exec (.tdispRequest f .start) s = .next { u with tdi := s.tdi.set f .run }) ∧
    (s.tdi[f] ≠ .locked → exec (.tdispRequest f .start) s = .next u) ∧
    (s.tdi[f] ≠ .run → exec (.tdispRequest f .stop) s = .next { u with tdi := s.tdi.set f .unlocked }) ∧
    (s.tdi[f] = .run → exec (.tdispRequest f .stop) s = .next (State.dropFunc f { u with tdi := s.tdi.set f .unlocked })) ∧
    (s.tdi[f] = .run → exec (.tdiLeavesRun f) s = .next (State.dropFunc f { s with tdi := s.tdi.set f .error })) ∧
    (s.tdi[f] ≠ .run → exec (.tdiLeavesRun f) s = .next s) ∧
    exec (.functionLevelReset f) s = .next (State.dropFunc f { s with tdi := s.tdi.set f .unlocked })) ∧
  (∀ (f : Nat) (s : State) (h : f < 65), let u : State := { s with linkUp := true }
    (((s.ide.toList.filter id).length < 16 ∨ s.ide[f] = true) → exec (.ideKmMessage f) s = .next { u with ide := s.ide.set f true }) ∧
    (16 ≤ (s.ide.toList.filter id).length → s.ide[f] = false → exec (.ideKmMessage f) s = .next u)) ∧
  (∀ (f : Nat) (s : State), (f = 0 ∨ 65 ≤ f) → (∀ r, exec (.tdispRequest f r) s = .next { s with linkUp := true }) ∧
    exec (.tdiLeavesRun f) s = .next s) ∧
  (∀ (f : Nat) (s : State), 65 ≤ f → exec (.ideKmMessage f) s = .next s ∧ exec (.functionLevelReset f) s = .next s) ∧
  ∀ s : State,
    let run := (List.range 65).filter fun f => decide (s.tdi.toList[f]? = some .run)
    let t := (run.foldl (fun s f => s.dropFunc f) s).dropTlbs fun _ e => e.state = 2
    exec .conventionalReset s = .next { t with
      linkUp := false, atc := [], tdi := Vector.replicate 65 .unlocked, ide := Vector.replicate 65 false } ∧
    exec (.functionLevelReset 0) s = exec .conventionalReset s

/-- User-mode queues and the host link. -/
def Obligations.HostEvents : Prop := Ob.QueueEvents ∧ Ob.HostLinkEvents

namespace Sys2Proof.Ob

/-- A context accepts a peer (R465): it is not provisional, and an entry of its peer table names the sender's address and context and has
accept set. -/
def PeerAccepts (s : State) (peer pc c : Nat) : Prop :=
  ∃ x, s.cx? c = some x ∧ x.prov = false ∧ ∃ p < 512, ∃ e, (s.atCx c).peer? p = some e ∧ e.accept = true ∧ e.addr = peer ∧ e.ctx = pc

/-- Each place of a context is marked accessed, or written. -/
def touched (ps : List Spot) (wr : Bool) (t : State) : State :=
  { t with cx := ps.foldl (fun x (q : Spot) => x.touch q.va wr) t.cx }

/-- R351, R456, R465, R466, R469: a peer's put, send and get. -/
def PeerEvents : Prop :=
  ∀ (peer pc c q off n : Nat) (f : Bool) (data : List Byte) (s : State),
    let put := Instr.putPlacement peer pc (.ctx c) off f data
    let send := Instr.sendPlacement peer pc c q data
    let get := Instr.getService peer pc (.ctx c) off f n
    let refuse (t : State) : State := { t with outs := t.outs ++ [.netStatus peer 0x14] }
    let wait (i : PeerPkt) (w : Walk) (t : State) : State := { t.startWalk w with endq := (t.startWalk w).endq ++ [i] }
    ((∃ i ∈ s.endq, peerTarget i = some c) →
      exec put s = .next { s with endq := s.endq ++ [.put peer pc (.ctx c) off f data] } ∧
      exec send s = .next { s with endq := s.endq ++ [.send peer pc c q data] } ∧
      exec get s = .next { s with endq := s.endq ++ [.get peer pc (.ctx c) off f n] }) ∧
    ((∀ i ∈ s.endq, peerTarget i ≠ some c) → let j := s.atCx c
      (¬ PeerAccepts s peer pc c → exec put s = .next (refuse s) ∧ exec send s = .next (refuse s) ∧ exec get s = .next (refuse s)) ∧
      (PeerAccepts s peer pc c →
        (∀ ps w, j.opSpots off true data.length = (ps, some (.wait w)) →
          exec put s = .next (wait (.put peer pc (.ctx c) off f data) w j)) ∧
        (∀ ps m, j.opSpots off true data.length = (ps, some (.fail m)) →
          exec put s = .next (refuse (j.opNote (off + ps.length) (.fail m)))) ∧
        (∀ p ps, j.opSpots off true data.length = (p :: ps, none) →
          (isWake p.pa = true → exec put s = exec (.wakeWrite (.peer peer pc) c (p.pa / 4096 % 256)
            (if p.pa % 4096 = 0 then data.length else 0) (leWord data)) j) ∧
          (isWake p.pa = false → exec put s = .next (State.peerWrite peer off f (((p :: ps).zip data).map fun x => (x.1.pa, x.2, 0xFF))
            (State.record 3 off data (touched (p :: ps) true j))))) ∧
        (let w0 := j.desc q 0
         let a := (j.desc q 1).toNat + 64 * (fieldAt data 0 4 % dRing w0)
         let head := leBytes (fieldAt data 0 8 ||| 2 ^ 63) 8
         let read := j.sideRead (dSide w0) (dFunc w0) (dPasid w0) a 8
         let body := j.sideWrite (dSide w0) (dFunc w0) (dPasid w0) (a + 8) (data.drop 8)
         let ring := q < 256 ∧ dKind w0 = 2
         (¬ ring → exec send s = .next (refuse j)) ∧
         (ring → data.length ≠ 64 → exec send s = .next j) ∧
         (ring → data.length = 64 →
           (∀ w, read = .error (.wait w) → exec send s = .next (wait (.send peer pc c q data) w j)) ∧
           (∀ m, read = .error (.fail m) → exec send s = .next (refuse (j.opNote a (.fail m)))) ∧
           (∀ h, read = .ok h → leNat h ≠ 0 → exec send s = .next j) ∧
           (∀ h, read = .ok h → leNat h = 0 →
             (∀ w, body = .error (.wait w) → exec send s = .next (wait (.send peer pc c q data) w j)) ∧
             (∀ m, body = .error (.fail m) → exec send s = .next (refuse (j.opNote a (.fail m)))) ∧
             (∀ u v, body = .ok u → u.sideWrite (dSide w0) (dFunc w0) (dPasid w0) (a + 0) head = .ok v →
               exec send s = .next (State.out (.netStatus peer 0)
                 (if dSide w0 = true then v else v.record 3 a (head ++ data.drop 8))))))) ∧
        (∀ ps w, j.opSpots off false n = (ps, some (.wait w)) → exec get s = .next (wait (.get peer pc (.ctx c) off f n) w j)) ∧
        (∀ ps m, j.opSpots off false n = (ps, some (.fail m)) → exec get s = .next (refuse (j.opNote (off + ps.length) (.fail m)))) ∧
        (∀ ps, j.opSpots off false n = (ps, none) → let t := touched ps false j
          (f = false → exec get s = .next { t with reqs := t.reqs ++ t.peerReads peer 0 ps }) ∧
          (f = true →
            let u := t.out (if (ps.take 8).any t.opPoison then .netStatus peer 1 else .reply peer 0 ((ps.take 8).map t.opByte))
            exec get s = .next { u with reqs := u.reqs ++ u.peerReads peer 8 (ps.drop 8) })))) ∧
    ((∀ i ∈ s.endq, peerTarget i ≠ none) →
      exec (.putPlacement peer pc .pres off f data) s =
        exec (.presentationSlotWrite (.peer peer pc) (off / 0x8000000) (off % 0x8000000) data) s ∧
      exec (.getService peer pc .pres off f n) s =
        .next (s.out (.reply peer 0 (s.slotRead (.peer peer pc) (off / 0x8000000) (off % 0x8000000) n))))

/-- A packet of a command in flight, by its path and its position. -/
def Flying (n : NetCmd) (path off : Nat) : Prop := ∃ b ∈ n.buf, b.1 = off ∧ b.2.1 = path

/-- R271, R468: acknowledgement, loss and the end of a network command. -/
def AckEvents : Prop :=
  ∀ (tag path off rtt : Nat) (ecn refused : Bool) (credit : Option Nat) (data : List Byte) (s : State),
    ((∀ n ∈ s.nets, n.tag = tag → ¬ Flying n path off) →
      exec (.networkAcknowledgement tag path off ecn rtt credit data) s = .next s) ∧
    (∀ n old new, s.nets = old ++ n :: new → n.tag = tag → Flying n path off → (∀ m ∈ old, m.tag = tag → ¬ Flying m path off) →
      s.isOut n.core n.ctx = false →
      let j := s.focusOn n.core n.ctx
      let p := n.packet off
      let va := n.loc + p.2.1
      let waits := n.kind = 2 ∧ j.netWaits va p.2.2 = true
      let w := j.cwnd n.ctx p.1 n.cls path
      let opened : Cwnd := if ecn = true then { w with flight := w.flight - 1, win := max 1 (w.win / 2), acks := 0 }
        else if w.win ≤ w.acks + 1 then { w with flight := w.flight - 1, win := w.win + 1, acks := 0 }
        else { w with flight := w.flight - 1, acks := w.acks + 1 }
      let t := j.setCwnd opened
      let t : State := match credit with
        | none => t
        | some k => { t with
          credits := t.credits.filter (fun x : Credit => !(x.ctx = n.ctx && x.peer = p.1)) ++ [(⟨n.ctx, p.1, k⟩ : Credit)] }
      let u := t.updNet tag fun c => { c with
        acked := c.acked + p.2.2, buf := c.buf.filter fun b => !(b.1 = off && b.2.1 = path)
        paths := PathStat.bump path (fun x => { x with
          marks := x.marks + (if ecn then 1 else 0), rtt := if x.rtt = 0 then rtt else min x.rtt rtt }) c.paths }
      (waits → exec (.networkAcknowledgement tag path off ecn rtt credit data) s = .next (j.netWrite tag va (slice data 0 p.2.2))) ∧
      (n.kind ≠ 2 → exec (.networkAcknowledgement tag path off ecn rtt credit data) s = .next (u.netMove tag)) ∧
      (n.kind = 2 → ¬ waits → exec (.networkAcknowledgement tag path off ecn rtt credit data) s =
        .next ((u.netWrite tag va (slice data 0 p.2.2)).netMove tag))) ∧
    ((∀ n, (s.nets.find? fun c => c.tag = tag) = some n → ¬ Flying n path off) → exec (.packetLoss tag path off) s = .next s) ∧
    (∀ n b, (s.nets.find? fun c => c.tag = tag) = some n → (n.buf.find? fun b => b.1 = off && b.2.1 = path) = some (off, path, b) →
      s.isOut n.core n.ctx = false →
      let j := s.focusOn n.core n.ctx
      let p := n.packet off
      let w := j.cwnd n.ctx p.1 n.cls path
      let t := j.setCwnd { w with flight := w.flight - 1, win := max 1 (w.win / 2), acks := 0 }
      let ports := (t.portsFor n p.1).getD []
      let next := if ports = [] then path else (path + 1) % ports.length
      let w2 := t.cwnd n.ctx p.1 n.cls next
      let via := ports.getD next (0, 0)
      let u := State.out (.net n.tag next off via.1 via.2 b) (t.setCwnd { w2 with flight := w2.flight + 1 })
      exec (.packetLoss tag path off) s = .next (State.netMove tag (u.updNet tag fun c => { c with
        retx := c.retx + 1, buf := (c.buf.filter fun x => !(x.1 = off && x.2.1 = path)) ++ [(off, next, b)]
        paths := PathStat.bump next (fun x => { x with pkts := x.pkts + 1 })
          (PathStat.bump path (fun x => { x with retx := x.retx + 1 }) c.paths) }))) ∧
    ((∀ n ∈ s.nets, n.tag ≠ tag) → exec (.networkCommandCompletion tag refused) s = .next s) ∧
    (∀ n, (s.nets.find? fun c => c.tag = tag) = some n →
      let j := s.focusOn n.core n.ctx
      let done := (n.buf = [] ∧ n.total ≤ n.acked ∧ (n.kind = 3 → n.folded = true)) ∨ j.cx.replay.isSome = true
      let peer := refused = true ∧ n.begun = true
      (∀ st, n.status = some st ∨ (n.status = none ∧ peer ∧ st = 0x14) ∨ (n.status = none ∧ ¬ peer ∧ done ∧ st = 0) →
        let x := j.wordOf (doneWord (min n.retx 0xFFFF * 2 ^ 40 + (n.paths.filter fun p => p.pkts != 0).length % 256 * 2 ^ 32) st)
        let t := State.updCx n.ctx (fun x => { x with use := x.use.set 4 (x.use[4] - 1) })
          { x.2 with nets := x.2.nets.filter fun m => m.tag != tag }
        exec (.networkCommandCompletion tag refused) s =
          .next ((t.updAny ⟨n.core, n.ctx, n.thr⟩ fun t => { t with net := n.paths }).complete tag x.1 n.slices)) ∧
      (n.status = none → ¬ peer → ¬ done → exec (.networkCommandCompletion tag refused) s = .next j))

/-- R272, R470: a partial of another party. -/
def PartialEvents : Prop :=
  ∀ (tag sl hdr : Nat) (data : List Byte) (s : State),
    ((∀ n ∈ s.nets, ¬ (n.tag = tag ∧ n.kind = 3 ∧ n.status = none)) → exec (.collectivePartial tag sl hdr data) s = .next s) ∧
    ∀ n, (s.nets.find? fun c => c.tag = tag && c.kind = 3 && c.status.isNone) = some n → s.isOut n.core n.ctx = false →
      let j := s.focusOn n.core n.ctx
      (hdr ≠ n.hdr → exec (.collectivePartial tag sl hdr data) s = .next (j.updNet tag fun c => { c with status := some 0x16 })) ∧
      (hdr = n.hdr → (n.q ≤ sl ∨ ∃ g ∈ n.got, g.1 = sl) → exec (.collectivePartial tag sl hdr data) s = .next j) ∧
      (hdr = n.hdr → sl < n.q → (∀ g ∈ n.got, g.1 ≠ sl) → (∀ m ∈ s.nets, m.tag = tag → m = n) → n.folded = false →
        let got := n.got ++ [(sl, slice data 0 n.len)]
        let t := j.updNet tag fun c => { c with got := c.got ++ [(sl, slice data 0 n.len)] }
        let out := (collFold n.op ((List.range n.q).map fun i => words4 (((got.find? fun g => g.1 = i).map (·.2)).getD []))).flatMap
          fun x => leBytes x 4
        (got.length < n.q → exec (.collectivePartial tag sl hdr data) s = .next t) ∧
        (n.q ≤ got.length → t.netWaits n.remote n.len = true →
          exec (.collectivePartial tag sl hdr data) s = .next (t.netWrite tag n.remote out)) ∧
        (n.q ≤ got.length → t.netWaits n.remote n.len = false →
          exec (.collectivePartial tag sl hdr data) s = .next ((t.netWrite tag n.remote out).updNet tag fun c => { c with folded := true })))

/-- A frame's number is new and not too old (R472). -/
def NewFrame (top : Nat) (seen : List Nat) (pn : Nat) : Prop := top < pn + 4096 ∧ pn ∉ seen

/-- R471, R472. -/
def FrameEvents : Prop :=
  (∀ (port : Fin 8) (pn assoc : Nat) (icv : Bool) (s : State), let x := s.eports[port]
    let into (y : EPort) : State := { s with eports := s.eports.set port y }
    let kept (top : Nat) (seen : List Nat) : List Nat := (insertNat pn seen).filter fun y => max top pn < y + 4096
    exec (.frame port.val pn assoc icv true) s = .next s ∧
    (x.up = false → exec (.frame port.val pn assoc icv false) s = .next (into x)) ∧
    (x.up = true → assoc = x.assoc → icv = true → NewFrame x.top x.seen pn → exec (.frame port.val pn assoc icv false) s =
      .next (into { x with top := max x.top pn, seen := kept x.top x.seen, old := none, oldTop := 0, oldSeen := [] })) ∧
    (x.up = true → assoc ≠ x.assoc → x.old = some assoc → icv = true → NewFrame x.oldTop x.oldSeen pn →
      exec (.frame port.val pn assoc icv false) s =
        .next (into { x with oldTop := max x.oldTop pn, oldSeen := kept x.oldTop x.oldSeen })) ∧
    (x.up = true → (icv = false ∨ (assoc = x.assoc ∧ ¬ NewFrame x.top x.seen pn) ∨
        (assoc ≠ x.assoc ∧ (x.old ≠ some assoc ∨ ¬ NewFrame x.oldTop x.oldSeen pn))) →
      exec (.frame port.val pn assoc icv false) s = .next (into { x with dropped := x.dropped + 1 })) ∧
    exec (.rekey port.val) s = .next (into { x with
      up := true, assoc := x.assoc + 1, old := if x.up then some x.assoc else none, oldTop := x.top, oldSeen := x.seen, top := 0, seen := []
      keyed := s.iod })) ∧
  ∀ (port pn assoc : Nat) (icv spdm : Bool) (s : State), 8 ≤ port →
    exec (.frame port pn assoc icv spdm) s = .next s ∧ exec (.rekey port) s = .next s

end Sys2Proof.Ob

/-- R271 to R273, R351, R465 to R472: a peer whose entry accepts it writes a context's memory through requests to the home slices, a releasing
put's last bytes last, wakes a queue, puts a message into a receive ring's free slot, and reads, an acquiring get's first bytes first; a
peer that no entry accepts, or that reaches no memory, is refused; what meets a page that is on its way waits, and what comes after it for
the same context waits behind it; a slot of the presentation area is written and read. An acknowledgement opens its path's window by its
rules, and brings a get's bytes, and a loss halves it and sends the packet again on the next path; a collective's partials are folded in
slice order when the last arrives; a command that is over, or refused, or has its status, completes its future with what its paths
counted. A port's frames pass the replay check of the current key, or the old one's, and a new key moves the port on. -/
def Obligations.NetworkEvents : Prop := PeerEvents ∧ AckEvents ∧ PartialEvents ∧ FrameEvents

namespace Sys2Proof.Ob

/-- A claim goes before another (R489): by priority, then the earlier session, then the lower address. -/
def Before (s : State) (a b : Cand) : Prop :=
  let prio (c : Cand) : Nat := match c with | .board => 0 | .host => 1 | .peer _ => 2
  let addr (c : Cand) : Nat := match c with | .peer a => a | _ => 0
  let began (c : Cand) : Nat := ((s.session? c).map (·.began)).getD 0
  prio a < prio b ∨ (prio a = prio b ∧ (began a < began b ∨ (began a = began b ∧ addr a ≤ addr b)))

/-- An election that is due: two seconds after it opened, the seat free. -/
def ElectionDue (s : State) : Prop := s.seat.open_ = true ∧ s.seat.opened + 2000000 ≤ s.iod ∧ s.seat.holder = none

/-- The certificate is the session's and has the owner's signature, or there is no owner and the board controller claims (R488). -/
def Signed (s : State) (c : Cand) (x : Session) (cert sig : List Byte) : Prop :=
  x.cert = cert ∧ (match s.seat.owner with
    | none => c = .board
    | some fp => Config.shake256 (slice sig 0 1952) = fp ∧ Config.mldsaVerify (slice sig 0 1952) cert (slice sig 1952 3309) = true)

/-- The seat falls vacant: an election opens. -/
def vacated (s : State) : State :=
  { s with seat := { s.seat with holder := none, open_ := true, opened := s.iod, claims := [], handover := none } }

/-- A candidate's session and its claim are gone, and with a holder's the seat is vacant. -/
def sessionLess (c : Cand) (s : State) : State :=
  let t : State := { s with seat := { s.seat with
    sessions := s.seat.sessions.filter (fun x => x.cand != c), claims := s.seat.claims.filter (· != c) } }
  if s.seat.holder = some c then vacated t else t

/-- Within recovery only the commands of R486 run, and any command is the holder's alone (R490). -/
def HeldTo (i : Instr) (c : Cand) (recovery : Bool) : Prop :=
  ∀ s : State, let j := s.touchSession c
    (s.session? c = none → exec i s = .next s) ∧
    ((s.session? c).isSome = true → s.recovery = true → recovery = false → exec i s = .next (j.out (.seat c 5))) ∧
    ((s.session? c).isSome = true → (s.recovery = false ∨ recovery = true) → s.seat.holder ≠ some c →
      exec i s = .next (j.out (.seat c 1)))

/-- The holder's command runs within its session. -/
def Holds (s : State) (c : Cand) : Prop := (s.session? c).isSome = true ∧ s.recovery = false ∧ s.seat.holder = some c

/-- A command of the holder answers status st in state t. -/
def Answers (i : Instr) (c : Cand) (s t : State) (st : BitVec 8) : Prop := exec i s = .next (t.out (.seat c st))

end Sys2Proof.Ob

/-- R487 to R490: a session begins with its candidate's certificate and ends after ten seconds of silence, a holder's leaving the seat vacant;
an election closes two seconds after it opened, and the first claim by priority, session and address holds the seat; a claim is refused
with status 3 where its certificate is not the session's or not the owner's, with 2 where the seat is held, with 5 in recovery, and waits
for the election where the seat is free; a handover names a successor for ten seconds; a release opens an election; measurements and
status answer their bytes. -/
def Sys2Proof.Ob.SeatEvents : Prop :=
  ∀ (c : Cand) (s : State), let j := s.touchSession c
    (∀ cert, s.bring < 2 → exec (.spdmSession c cert) s = .next s) ∧
    (∀ cert, 2 ≤ s.bring → let t := sessionLess c s
      exec (.spdmSession c cert) s = .next { t with seat := { t.seat with sessions := t.seat.sessions ++ [⟨c, cert, t.iod, t.iod⟩] } }) ∧
    (∀ x, s.session? c = some x → x.last + 10000000 ≤ s.iod → exec (.sessionTimeout c) s = .next (sessionLess c s)) ∧
    ((∀ x, s.session? c = some x → s.iod < x.last + 10000000) → exec (.sessionTimeout c) s = .next s) ∧
    (¬ ElectionDue s → exec .electionClose s = .next s) ∧
    (ElectionDue s → s.seat.claims = [] → exec .electionClose s = .next { s with seat := { s.seat with open_ := false } }) ∧
    (∀ l r, ElectionDue s → s.seat.claims = l ++ c :: r → (∀ x ∈ l, Before s c x) → (∀ x ∈ r, ¬ Before s x c) →
      (∀ x ∈ l ++ r, x ≠ c) → ∃ t, exec .electionClose s = .next t ∧
        t = { s with
          seat := { s.seat with open_ := false, claims := [], holder := some c }
          outs := s.outs ++ s.seat.claims.map fun x => .seat x (if x = c then 0 else 2) }) ∧
    (∀ cert sig, s.session? c = none → exec (.claim c cert sig) s = .next s) ∧
    (∀ x cert sig, s.session? c = some x → ElectionDue j →
      ∀ t, exec .electionClose j = .next t → exec (.claim c cert sig) s = exec (.claim c cert sig) t) ∧
    (∀ x cert sig, s.session? c = some x → ¬ ElectionDue j →
      (s.recovery = true → c ≠ .board → Answers (.claim c cert sig) c s j 5) ∧
      ((s.recovery = false ∨ c = .board) → ¬ Signed j c x cert sig → Answers (.claim c cert sig) c s j 3) ∧
      (s.recovery = true → c = .board → Signed j c x cert sig →
        Answers (.claim c cert sig) c s { j with seat := { j.seat with holder := some c } } 0) ∧
      (s.recovery = false → Signed j c x cert sig →
        let named := ∃ t, j.seat.handover = some (Config.shake256 cert, t) ∧ j.iod ≤ t + 10000000
        (s.seat.holder ≠ none → named →
          Answers (.claim c cert sig) c s { j with seat := { j.seat with holder := some c, handover := none } } 0) ∧
        (s.seat.holder ≠ none → ¬ named → Answers (.claim c cert sig) c s j 2) ∧
        (s.seat.holder = none → s.seat.open_ = true → exec (.claim c cert sig) s = .next { j with seat := { j.seat with
          claims := if c ∈ j.seat.claims then j.seat.claims else j.seat.claims ++ [c] } }) ∧
        (s.seat.holder = none → s.seat.open_ = false →
          Answers (.claim c cert sig) c s { j with seat := { j.seat with holder := some c } } 0))) ∧
    (∀ succ, HeldTo (.handover c succ) c false) ∧ HeldTo (.release c) c true ∧
    (∀ succ, Holds s c → Answers (.handover c succ) c s { j with seat := { j.seat with handover := some (succ, j.iod) } } 0) ∧
    (Holds s c → Answers (.release c) c s (vacated j) 0) ∧
    ((s.session? c).isSome = true → s.recovery = true → s.seat.holder = some c →
      Answers (.release c) c s { j with seat := { j.seat with holder := none } } 0) ∧
    (∀ h, s.seat.handover = some h → h.2 + 10000000 < s.iod →
      exec .handoverTimeout s = .next { s with seat := { s.seat with handover := none } }) ∧
    ((∀ h, s.seat.handover = some h → s.iod ≤ h.2 + 10000000) → exec .handoverTimeout s = .next s) ∧
    (s.bring < 2 → exec (.spdmMeasurements c) s = .next s) ∧
    (2 ≤ s.bring → exec (.spdmMeasurements c) s = .next (j.out (.bytes c j.measurementBytes))) ∧
    (s.session? c = none → exec (.status c) s = .next s) ∧
    ((s.session? c).isSome = true →
      let seat : List Byte := [match s.seat.holder with | none => 0 | some .board => 1 | some .host => 2 | some (.peer _) => 3,
        if s.seat.open_ = true then 1 else 0, BitVec.ofNat 8 s.bring]
      Answers (.status c) c s (j.out (.bytes c (j.measurementBytes ++ seat ++ s.mchecks.flatMap MCheck.bytes))) 0)

/-- R354, R377, R485, R486, R490 to R495: the holder's commands, each answered with its status, 1 to a party that does not hold the seat, 5 in
recovery, 3 where a parameter is out of range: a key is loaded into its slot, or unloaded, where no presentation waits under it; the
owner, the configuration, the drives' mask, an image that the fused key signs, the least version, capture and its chunks, and a replay,
whose inputs come at their stamps. A reset keeps the keys, the reservations and the stored configuration; power-good brings the module
up with it, or into recovery. -/
def Sys2Proof.Ob.SeatCommands : Prop :=
  ∀ (c : Cand) (n : Nat) (s : State), let j := s.touchSession c
    ((∀ key, HeldTo (.keyLoad c n key) c false) ∧ HeldTo (.keyUnload c n) c false ∧ (∀ fp, HeldTo (.ownerSet c fp) c false) ∧
      (∀ v p tr tt td st, HeldTo (.config c v p tr tt td st) c false) ∧ (∀ mask, HeldTo (.drive c mask) c false) ∧
      (∀ ver img key sig, HeldTo (.fwLoad c ver img key sig) c true) ∧ HeldTo (.fwCommit c) c false ∧
      (∀ on, HeldTo (.capture c n on) c false) ∧ HeldTo (.captureRead c n) c false ∧ ∀ stream, HeldTo (.replay c n stream) c false) ∧
    (Holds s c →
      (∀ key, let i := Instr.keyLoad c n key
        ((16 ≤ n ∨ key.length ≠ 1952) → Answers i c s j 3) ∧
        (n < 16 → key.length = 1952 → j.slotWaits n = true → exec i s = .next j) ∧
        (n < 16 → key.length = 1952 → j.slotWaits n = false → (j.kslot n).loaded = true → (j.kslot n).key = key →
          Answers i c s (j.setKslot n (j.kslot n)) 0) ∧
        (n < 16 → key.length = 1952 → j.slotWaits n = false → ¬ ((j.kslot n).loaded = true ∧ (j.kslot n).key = key) →
          Answers i c s (j.setKslot n { j.kslot n with loaded := true, key, floor := 0, window := 0 }) 0)) ∧
      (16 ≤ n → Answers (.keyUnload c n) c s j 3) ∧
      (n < 16 → j.slotWaits n = true → exec (.keyUnload c n) s = .next j) ∧
      (n < 16 → j.slotWaits n = false → Answers (.keyUnload c n) c s (j.setKslot n { j.kslot n with loaded := false, key := [] }) 0) ∧
      (∀ fp, (fp.length = 32 → Answers (.ownerSet c fp) c s { j with seat := { j.seat with owner := some fp } } 0) ∧
        (fp.length ≠ 32 → Answers (.ownerSet c fp) c s j 3)) ∧
      (∀ v p tr tt td st,
        let good := 1 ≤ v ∧ v ≤ 16 ∧ 1 ≤ p ∧ p ≤ 10000 ∧ tr < tt ∧ tt < td ∧ td ≤ 110 ∧ 4096 ≤ st
        (good → Answers (.config c v p tr tt td st) c s { j with stored := ⟨v, p, tr, tt, td, st⟩ } 0) ∧
        (¬ good → Answers (.config c v p tr tt td st) c s j 3)) ∧
      (∀ mask, Answers (.drive c mask) c s (State.syncDrives { j.flushDrives fun d =>
        (j.drive d).enabled && !(mask.getLsbD d) with driveMask := mask }) 0) ∧
      (∀ ver img key sig,
        let good := Config.shake256 key = Config.firmwareKeyDigest ∧ Config.mldsaVerify key img sig = true ∧ s.fwMin ≤ ver
        (good → Answers (.fwLoad c ver img key sig) c s { j with fwNext := some (ver, img) } 0) ∧
        (¬ good → Answers (.fwLoad c ver img key sig) c s j 3)) ∧
      Answers (.fwCommit c) c s { j with fwMin := max s.fwMin s.fwVer } 0 ∧
      (∀ on, (n < 16 → Answers (.capture c n on) c s (j.setKslot n { j.kslot n with capture := on }) 0) ∧
        (16 ≤ n → Answers (.capture c n on) c s j 3)) ∧
      (s.cx? n = none → Answers (.captureRead c n) c s j 3) ∧
      (∀ x, s.cx? n = some x → (x.capture = false → Answers (.captureRead c n) c s j 3) ∧
        (x.capture = true → Answers (.captureRead c n) c s (State.out (.bytes c (Config.sealChunk n ((x.capRecs.take 256).flatMap CapRec.bytes)))
          (j.updCx n fun x => { x with
            capRecs := x.capRecs.drop 256
            capFull := x.capFull && decide (2 ^ 29 < ({ x with capRecs := x.capRecs.drop 256 } : Context).capBytes) })) 0)) ∧
      (∀ stream, let y := j.pslot n
        let r := y.area.bytes 0 4096
        let img := (List.range (fieldAt r 3848 8)).map fun i => if 0x1000 + i < areaEnd then y.area.get (0x1000 + i) else 0
        let built := j.build { j.fromRecord r y.src with cls := 2, capture := false, replay := some stream } img
        let bad := 16 ≤ n ∨ (j.signed r).isSome = true ∨ j.kfree = 0 ∨ (∃ e, built = .error e) ∨ Config.shake256 img ≠ slice r 80 32
        (bad → Answers (.replay c n stream) c s j 3) ∧
        (∀ x t, ¬ bad → built = .ok (x, t) → Answers (.replay c n stream) c s (t.enter x) 0))) ∧
    (∀ ver img key sig, (s.session? c).isSome = true → s.recovery = true → s.seat.holder = some c →
      Config.shake256 key = Config.firmwareKeyDigest → Config.mldsaVerify key img sig = true → s.fwMin ≤ ver →
      Answers (.fwLoad c ver img key sig) c s { j with fwNext := some (ver, img) } 0) ∧
    ((∀ x l p, s.cx? n = some x → x.replay = some l → pick CapRec.isInput l ≠ some p) → exec (.replayInput n) s = .next s) ∧
    (∀ x l r rest, s.cx? n = some x → x.replay = some l → pick CapRec.isInput l = some (r, rest) →
      let due := match s.bind? (coreId r.die r.row r.col) n with
        | some b => b.task = r.task ∧ r.stamp ≤ b.ccount.toNat
        | none => r.stamp = 0
      let spots := (s.atCx n).opSpots r.addr true r.data.length
      let u := s.updCx n fun x => { x with replay := some rest }
      let v := u.atCx n
      (¬ due → exec (.replayInput n) s = .next s) ∧
      (due → r.kind = 1 → exec (.replayInput n) s = .next (v.wakeIn (leNat r.data) (wordN r.addr))) ∧
      (∀ w, due → r.kind = 3 → spots.2 = some (.wait w) → exec (.replayInput n) s = .next ((s.atCx n).startWalk w)) ∧
      (due → r.kind = 3 → (∀ w, spots.2 ≠ some (.wait w)) → let p := v.opSpots r.addr true r.data.length
        exec (.replayInput n) s = .next (if p.2 = none then v.opWrite (p.1.zip r.data) else v)) ∧
      (due → r.kind = 7 → exec (.replayInput n) s =
        .next (u.updBd (coreId r.die r.row r.col) n fun b => { b with notice := wordN r.addr, irq := some (wordN r.addr) }))) ∧
    (∃ t, exec .moduleReset s = .next t ∧ t.bring = 0 ∧ t.linkUp = false ∧ t.resv = s.resv ∧ t.stored = s.stored ∧ t.driveMask = s.driveMask ∧
      t.fwVer = s.fwVer ∧ t.fwMin = s.fwMin ∧ t.fwMinBoot = s.fwMin ∧ t.fwNext = s.fwNext ∧ t.seat.owner = s.seat.owner ∧
      t.seat.holder = none ∧ t.seat.sessions = [] ∧ t.seat.claims = [] ∧ t.ths = [] ∧ t.cxs = [] ∧ t.bds = [] ∧ t.queues = [] ∧ t.reqs = [] ∧
      t.pkts = [] ∧ t.nets = [] ∧ t.host = s.host ∧ t.iod = State.reset.iod ∧ t.mem = State.reset.mem ∧
      ∀ k : Fin 16, t.keys[k].loaded = s.keys[k].loaded ∧ t.keys[k].key = s.keys[k].key ∧ t.keys[k].floor = s.keys[k].floor ∧
        t.keys[k].window = s.keys[k].window ∧ t.keys[k].capture = false ∧ t.keys[k].note = none) ∧
    (s.bring ≠ 0 → exec .powerGood s = .next s) ∧
    (s.bring = 0 →
      let u : State := match s.fwNext with | some (v, i) => { s with fwVer := v, fwImg := some i, fwNext := none } | none => s
      (u.fwVer < s.fwMin → exec .powerGood s = .next { u with bring := 2, recovery := true }) ∧
      (s.fwMin ≤ u.fwVer → let k := s.stored
        exec .powerGood s = .next (State.syncDrives { u with
          bring := 7, conf := k, cap := capReset, free_ := capReset.map (k.v * ·), staging := k.staging, stagingFree := k.staging
          dies := s.dies.map fun d => { d with tr := k.tr, tt := k.tt, td := k.td }
          seat := { s.seat with open_ := true, opened := s.iod }, linkUp := true })))

/-- The operator seat, its commands, reset and bring-up. -/
def Obligations.OperatorEvents : Prop := Ob.SeatEvents ∧ Ob.SeatCommands

/-! ### Reset, traps, the step, and the frames -/

/-- What the machine is right after reset. Stated by the spec: the throttle points 85, 95 and 100 and the empty eligible idle set (R502); no
context, task, thread or queue, and no key loaded, at the end of bring-up (R505). The model's choices: that reset is the state right
after bring-up (log 11), that memory and the engines of a core that carries nothing read zero or are empty (logs 11 and 12), and its own
fields (log 1). -/
def Obligations.ResetValues : Prop :=
  State.reset.threads = [] ∧ State.reset.binds = [] ∧ State.reset.contexts = [] ∧ State.reset.queues = [] ∧ State.reset.bring = 7 ∧
  (∀ c, (State.reset.core? c).id = c ∧ (State.reset.core? c).holder = none ∧ (State.reset.core? c).tags = [] ∧
    (State.reset.core? c).eng = {}) ∧
  (∀ d, (State.reset.die d).tr = 85 ∧ (State.reset.die d).tt = 95 ∧ (State.reset.die d).td = 100 ∧ (State.reset.die d).pbhold = 50 ∧
    (State.reset.die d).pidle = Vector.replicate 12 0) ∧
  (∀ k, (State.reset.kslot k).key = []) ∧ (∀ a, State.reset.mem.get a = 0) ∧ State.reset.reqs = [] ∧ State.reset.agenda = []

/-- R282: a trap of a thread in task mode with a handler installed saves the PC in tepc, the cause in tcause, the value in tval and the
pair facts, enters handler mode, clears the retry latch, and goes to tvec. A trap in handler mode ends the tile task with status 0x40, a
trap with tvec 0 with 0x41, reporting cause and value. Entry changes no w, g, v, m or p register, no window or loop state, no future,
and no memory. -/
def Obligations.TrapEntry : Prop :=
  ∀ (cause val pc : Word) (pair mem : Bool) (s : State), s.th.eddy = none →
    (s.th.handler = true → s.takeTrap cause val pc pair mem = s.endTask 0x40 cause val) ∧
    (s.th.handler = false → s.th.tvec = 0 → s.takeTrap cause val pc pair mem = s.endTask 0x41 cause val) ∧
    (s.th.handler = false → s.th.tvec ≠ 0 →
      let u := s.takeTrap cause val pc pair mem
      u.th.tepc = pc ∧ u.th.tcause = cause ∧ u.th.tval = val ∧ u.th.tpair = pair ∧ u.th.tmem = mem ∧ u.th.handler = true ∧
      u.th.retry = none ∧ u.th.pc = s.th.tvec ∧
      u.th.w = s.th.w ∧ u.th.g = s.th.g ∧ u.th.v = s.th.v ∧ u.th.m = s.th.m ∧ u.th.p = s.th.p ∧ u.th.wbase = s.th.wbase ∧
      u.th.wvalid = s.th.wvalid ∧ u.th.wsp = s.th.wsp ∧ u.th.lc = s.th.lc ∧ u.th.lbeg = s.th.lbeg ∧ u.th.lend = s.th.lend ∧
      u.th.flags = s.th.flags ∧ u.th.tstep = s.th.tstep ∧ u.th.q = s.th.q ∧ u.th.k = s.th.k ∧
      u.mem = s.mem ∧ u.host = s.host ∧ u.core = s.core ∧ u.cx = s.cx ∧ u.bd = s.bd ∧ u.ths = s.ths ∧
      u.reqs.filter Req.isStore = s.reqs.filter Req.isStore) ∧
    (∀ (st : BitVec 8) (x : Task), x ∈ (s.endTask st cause val).cx.tasks → x.num = s.th.task → x.st = .done st) ∧
    (∀ (st : BitVec 8), (s.endTask st cause val).th.exited = true ∧
      (∀ x ∈ (s.endTask st cause val).ths, ¬(x.ctx = s.th.ctx ∧ x.task = s.th.task)) ∧ (s.endTask st cause val).mem = s.mem ∧
      (s.cx.failTask = 0xFFFF → (s.endTask st cause val).cx.status = st ∧ (s.endTask st cause val).cx.failCause = cause ∧
        (s.endTask st cause val).cx.failVal = val ∧ (s.endTask st cause val).cx.failTid = s.th.tid))

namespace Sys2Proof.Ob

/-- A core in a clk of an entry that names a context, before anything issues: the records that are due have applied. -/
def clkOf (c ctx : Nat) (s : State) : State :=
  let a := ((s.applyDue c s.pends.length).focusCore c).mapThreads fun t => if t.core = c then { t with busy := t.busy - 1 } else t
  let b := a.focusOn c ctx
  { b with bd := { b.bd with ccount := b.bd.ccount + 1 }, cx := { b.cx with served := b.cx.served + 1 } }

/-- What a clk adds to the issue of thread k: the eddy pointer, the clk counted, and the barriers of the engine holder looked at. -/
def clkEnd (c : Nat) (k : TKey) (u : State) : State :=
  let t := if 8 ≤ k.slot then { u with bd := { u.bd with ep := (k.slot - 8 + 1) % 8 } } else u
  State.sweepHolder c (if t.core.id = c then { t with core := { t.core with clk := t.core.clk + 1 } }
    else t.updCore c fun x => { x with clk := x.clk + 1 })

/-- The next step is a clk of core c in which thread k of context ctx, outside a gang and with no interrupt due, may issue, and no candidate
before it may; g is the state in which its unit issues. -/
def Turn (s : State) (c ctx : Nat) (k : TKey) (g : State) : Prop :=
  ∃ (r : List Move) (thr : Nat) (pre l : List TKey) (t : Thread),
    s.agenda = .clk c :: r ∧
    let a := (State.applyDue c s.pends.length { s with agenda := r }).focusCore c
    let b := clkOf c ctx { s with agenda := r }
    (a.core.slots.toList[a.core.clk % 64]?).join = some (ctx, thr) ∧
    (b.thread? ⟨c, ctx, thr⟩).any (·.declined) = false ∧
    b.candidates (a.core.clk % 64) ctx thr = pre ++ k :: l ∧
    (∀ x ∈ pre, ∀ u, b.thread? x = some u → (b.focusTh x).irqDue = false ∧ (b.focusTh x).mayIssue u = false) ∧ b.thread? k = some t ∧
    (b.focusTh k).irqDue = false ∧ (b.focusTh k).mayIssue t = true ∧ (b.focusTh k).th.gang = .none ∧
    g = { b.focusTh k with iss := {} }

/-- The state in which the members of the unit at hand run: the fetch has marked its page accessed (R324). -/
def started (g : State) : State := { g with th := { g.th with started := true }, cx := g.cx.touch g.th.pc.toNat false }

/-- The state in which the first member of a pair runs. -/
def firstOf (g : State) : State := { started g with
  th := { (started g).th with wait := g.th.wait1 <|> g.th.wait }, iss := { (started g).iss with mode := .first, pair := true } }

/-- The state in which the second member runs after the first has reached r: it reads the thread from before the pair. -/
def secondOf (g r : State) : State := { r with
  th := { r.th with wait := g.th.wait }, iss := { r.iss with mode := .second (started g).th g.reqs.length, res := .done } }

/-- A member reaches state r: by its meaning, or with no change where its predicate is false. -/
def Reaches (w : IWord) (p r : State) : Prop :=
  ∃ x, decode w = .ok x ∧ ((xor (p.pred x.pr) x.pn = true ∧ exec x.instr p = .next r) ∨ (xor (p.pred x.pr) x.pn = false ∧ r = p))

/-- A trap of a pair, with the pair facts (R68). -/
def pairTrap (g : State) (n v : Word) (second : Bool) : State :=
  ({ started g with iss := { (started g).iss with mode := .first, pair := true } }.trapLog n v).takeTrap n v g.th.pc true second

end Sys2Proof.Ob

/-- A step runs the decoded instruction (R62 to R64, R68, R85, R382): where the next move is a clk whose first candidate may issue and the word
at its PC is a single, the step is exec of the instruction it decodes to; where its predicate is false, the unit retires and changes
nothing else; where the word has no instruction, the step is the decode trap, and where the fetch traps or misses, that; a pair whose two
members both go on retires with the effect of both, and one of which either traps takes that trap with no effect of the other. Around it
stand the clk of the core, with the records that it makes due, and the sweep of its barriers. -/
def Obligations.StepRunsDecoded : Prop :=
  ∀ (s : State) (c ctx : Nat) (k : TKey) (g : State), Turn s c ctx k g →
    (∀ w x u, g.fetch = .ok (w, none) → decode w = .ok x → xor ((started g).pred x.pr) x.pn = true →
      exec x.instr (started g) = .next u → u.isBlocked = false → step s = .next (clkEnd c k u)) ∧
    (∀ w x, g.fetch = .ok (w, none) → decode w = .ok x → xor ((started g).pred x.pr) x.pn = false →
      step s = .next (clkEnd c k (started g).retire)) ∧
    (∀ w e, g.fetch = .ok (w, none) → decode w = .error e →
      step s = .next (clkEnd c k ((started g).stopped (.trap (e.cause.setWidth 64) e.tval)))) ∧
    (∀ e, g.fetch = .error e → (g.stopped e).isBlocked = false → step s = .next (clkEnd c k (g.stopped e))) ∧
    ∀ w w2, g.fetch = .ok (w, some w2) →
      (∀ r q, Reaches w (firstOf g) r → r.iss.res = .done → Reaches w2 (secondOf g r) q → q.iss.res = .done →
        q.retire.isBlocked = false → step s = .next (clkEnd c k q.retire)) ∧
      (∀ r n v, Reaches w (firstOf g) r → r.iss.res = .stop (.trap n v) → (pairTrap g n v false).isBlocked = false →
        step s = .next (clkEnd c k (pairTrap g n v false))) ∧
      (∀ r q n v, Reaches w (firstOf g) r → r.iss.res = .done → Reaches w2 (secondOf g r) q → q.iss.res = .stop (.trap n v) →
        (pairTrap g n v true).isBlocked = false → step s = .next (clkEnd c k (pairTrap g n v true)))

/-- Words that the spec writes out decode to the instructions it names beside them (R85): scalar, control, vector, memory, matrix, async and
system words. -/
def Obligations.DecodeWords : Prop :=
  decode 0x0F020C0C39FF000000000001#96 = .ok ⟨false, 2, .shl .i64 false (.w 12) (.reg (.w 12)) (.imm 1)⟩ ∧
  decode 0x2120B90939FF000000000008#96 = .ok ⟨false, 0, .cmp .lt .i64 1 (.reg (.w 9)) (.imm 8)⟩ ∧
  decode 0x2B00FFFFFFFF00000000000B#96 = .ok ⟨false, 0, .call ⟨1, 3⟩⟩ ∧
  decode 0x4200444180FF400000000000#96 = .ok ⟨false, 0, .vmul .f .rne false (.v 4) (.v 1) (.q 0) none⟩ ∧
  decode 0x6A0080010203403000000000#96 =
    .ok ⟨false, 0, .sbind false .f .rne false .dev 0 (.reg (.w 1)) (.reg (.w 2)) (.reg (.w 3))⟩ ∧
  decode 0x8200381213FF05F0000003C9#96 = .ok ⟨false, 0, .mslab 0x3C9 1 31 .zero (.w 18) (.w 19)⟩ ∧
  decode 0x90000E0B0C0D003000000000#96 = .ok ⟨false, 0, .cpyMem false .dev (.w 14) (.w 11) (.w 12) (.w 13)⟩ ∧
  decode 0xC100FF3901FF000000000004#96 = .ok ⟨false, 0, .sysw (.imm 4) (.reg (.w 1))⟩

/-- The encoding drops nothing: a well-formed instruction under any predicate decodes from the word it is encoded as, with every operand
at every value the encoding admits. -/
def Obligations.RoundTrip : Prop := ∀ (s : Slot) (w : IWord), s.instr.wf = true → encode s = some w → decode w = .ok s

/-- Every word that decodes is the one word of the instruction it decodes to, and that instruction is well formed; every well-formed
instruction of the spec's word formats has a word. -/
def Obligations.WordsAreCanonical : Prop :=
  (∀ (w : IWord) (s : Slot), decode w = .ok s → s.instr.wf = true ∧ encode s = some w) ∧
  ∀ (s : Slot), s.instr.wf = true → (encRaw s.instr).isSome = true → (encode s).isSome = true

/-- Every memory keeps its canonical form across a step, from every state (log 1): device and host memory, the scratchpads, those of saved
tasks, the drives' pages and the presentation areas. -/
def Obligations.MemoryForm : Prop := ∀ (s t : State), s.memWf → step s = .next t → t.memWf

/-- The form holds at reset. -/
def Obligations.MemoryFormAtReset : Prop := State.reset.memWf

/-- No state stops the machine: the spec gives every instruction and event an effect or a trap (R45, R85), so a step neither faults nor
is refused, from any state. -/
def Obligations.EveryStepGoesOn : Prop := ∀ (s : State), GoesOn s

namespace Sys2Proof.Ob

/-- Whenever the instruction answers a next state, its unit stopped (it trapped, or waits), or the state has F, before or after the unit
retired. -/
def Ends (i : Instr) (s : State) (F : State → Prop) : Prop :=
  ∀ t : State, exec i s = .next t →
    (∃ e, t = s.stopped e ∨ t = { s with iss := { s.iss with res := .stop e } }) ∨ ∃ u : State, (t = u.retire ∨ t = u) ∧ F u

/-- Every register whose specifier is not in D keeps its value and its future, every stream port not in P its position, and every flag
outside F its bit; a flag is never cleared. p0 is never written. -/
def SameRegs (D P : List (BitVec 8)) (F : Fl) (s u : State) : Prop :=
  (∀ e : Fin 256, (∀ n : Fin 32, specOf 0 n ∈ D → e ≠ stackIx s.th.wbase n.val) →
    u.th.w[e].val = s.th.w[e].val ∧ u.th.w[e].fut = s.th.w[e].fut) ∧
  (∀ n : Fin 8, specOf 0x20 n ∉ D → u.th.g[n].val = s.th.g[n].val ∧ u.th.g[n].fut = s.th.g[n].fut) ∧
  (∀ n : Fin 2, specOf 0x2C n ∉ D → u.th.lc[n] = s.th.lc[n]) ∧
  (∀ n : Fin 64, specOf 0x40 n ∉ D → u.th.v[n] = s.th.v[n]) ∧
  (∀ n : Fin 8, specOf 0xB0 n ∉ D → u.th.m[n] = s.th.m[n]) ∧
  (∀ n : Fin 8, specOf 0xB8 n ∉ D ∨ n = 0 → u.th.p[n] = s.th.p[n]) ∧
  (∀ n : Fin 8, specOf 0x80 n ∉ P → u.th.q[n] = s.th.q[n]) ∧
  u.th.flags &&& ~~~F = s.th.flags &&& ~~~F ∧ u.th.flags &&& s.th.flags = s.th.flags

/-- A request but for the mark that its thread has read it (R344). -/
def unseen (r : Req) : Req := { r with seen := false }

/-- No byte of memory or of the scratchpad reads otherwise, and no store is on its way that was not. -/
def NoStore (s u : State) : Prop :=
  u.reqs.map unseen = s.reqs.map unseen ∧ (∀ a, u.memByte a = s.memByte a) ∧ (∀ a, u.ownByte a = s.ownByte a) ∧ ∀ a, u.core.spad.get a = s.core.spad.get a

/-- The frame of an instruction that works on registers alone: of the thread, the registers in D, the flags in F, and what joining a
completed future leaves (R230); of the machine, nothing else. -/
def RegFrame (D : List (BitVec 8)) (F : Fl) (s u : State) : Prop :=
  u = { s with th := u.th } ∧
  u.th = { s.th with
    w := u.th.w, g := u.th.g, lc := u.th.lc, v := u.th.v, m := u.th.m, p := u.th.p, q := u.th.q, flags := u.th.flags, tsm := u.th.tsm
    mjn := u.th.mjn, busy := u.th.busy } ∧
  SameRegs D D F s u ∧ NoStore s u

def Regs (i : Instr) (D : List (BitVec 8)) (F : Fl) : Prop := ∀ s, Ends i s (RegFrame D F s)

end Sys2Proof.Ob

/-- The frame of the scalar instructions (R132 to R143): only the destination, the flags each rule names, and what joining a completed
operand leaves. A move from or to a link register changes besides that the register, or a word on its way. Retiring changes the PC, the
loop counts and the counts of the issue unit, nothing else. -/
def Obligations.ScalarFrame : Prop :=
  ∀ (t u : Ty) (rnd : Rnd) (sat neg na nb nr : Bool) (k : Cond) (d : SDst) (a b c : SSrc) (m : MAddr) (x : Option SReg)
    (p q r : Fin 8) (w : Word),
    (∀ i ∈ [Instr.add t sat d a b, .sub t sat d a b, .mul t sat d a b, .madd t sat d a b c, .abs t sat d a, .shl t sat d a b],
      Regs i [d.spec] (Fl.when sat Fl.is)) ∧
    Regs (.div t sat d a b) [d.spec] (Fl.dz ||| Fl.when sat Fl.is) ∧ Regs (.rem t d a b) [d.spec] Fl.dz ∧
    (∀ i ∈ [Instr.mulh t d a b, .min t d a b, .max t d a b, .and t d a b, .or t d a b, .xor t d a b, .andn t d a b, .shr t d a b,
      .sar t d a b, .rot t d a b, .clz t d a, .ctz t d a, .popc t d a, .brev t d a, .bswap t d a, .bext t d a b, .bins d a b c,
      .sext t d a, .zext t d a, .mov t (.s d) (.s a), .movi d w, .lea t d m x, .setc k t d a b, .pmov neg (.sp d p), .sel neg d a b p],
      Regs i [d.spec] 0) ∧
    Regs (.cvt t u rnd sat d a) [d.spec] (Fl.nx ||| Fl.uf ||| Fl.of ||| Fl.nv ||| Fl.is) ∧
    Regs (.cmp k t p a b) [specOf 0xB8 p] (Fl.nx ||| Fl.uf ||| Fl.of ||| Fl.nv) ∧
    (∀ i ∈ [Instr.pand na nb nr p q r, .por na nb nr p q r, .pxor na nb nr p q r, .pmov neg (.pp p q), .pmov neg (.ps p a)],
      Regs i [specOf 0xB8 p] 0) ∧
    (∀ (e : MovDst) (o : MovSrc) (s : State), Ends (.mov t e o) s fun v =>
      v = { s with
        th := v.th, core := { s.core with lnkw := v.core.lnkw, lnke := v.core.lnke }, pkts := v.pkts } ∧ SameRegs [e.spec] [] 0 s v ∧
      NoStore s v ∧ (o ≠ .lnkw → v.core.lnkw = s.core.lnkw) ∧ (o ≠ .lnke → v.core.lnke = s.core.lnke) ∧
      (e ≠ .lnkw → e ≠ .lnke → v.pkts = s.pkts)) ∧
    (∀ s : State, s.th.exited = false → (s.th.tstep = false ∨ s.th.handler = true ∨ s.th.eddy.isSome = true) →
      s.retire = { s with
        th := { s.th with
          lc := s.retire.th.lc, pc := s.retire.th.pc, icount := s.th.icount + (if s.iss.pair then 2 else 1), wait := none, retry := none
          wait1 := none, rowOk := false }
        iss := { s.iss with res := .done, target := none } })

namespace Sys2Proof.Ob

/-- The bytes of an element, by the address the access finds for it. -/
def bytesOf : Elem → List Nat
  | .plain p w => (List.range w).map (p.pa + ·)
  | .nib p _ => [p.pa]
  | .rec_ _ _ => []

def winBytes (l : List Elem) : List Nat := (l.filter fun e => e.spot.win).flatMap bytesOf
def devBytes (l : List Elem) : List Nat := (l.filter fun e => !e.spot.win).flatMap bytesOf

/-- A store to the elements l touches no other byte: the scratchpad outside the window bytes, and device memory as the thread reads it
outside the others. A release that reaches the window first performs the thread's earlier stores. -/
def StoredOnly (rel : Bool) (l : List Elem) (s u : State) : Prop :=
  let base := if rel && !(winBytes l).isEmpty then s.flush else s
  (∀ a, a ∉ winBytes l → u.core.spad.get a = s.core.spad.get a) ∧ (∀ a, a ∉ devBytes l → u.ownByte a = base.ownByte a) ∧
  ∀ a, u.memByte a = base.memByte a

/-- The frame of an instruction that reads or writes elements: of the thread, the registers in D, the ports in P, the flags in F, and the
slice masks; of the context, the accessed and dirty bits of its pages and what a capture or a replay keeps; of the core, scratchpad
bytes, their poison and the banks that wake; stores on their way, and what is performed of them; of the home slices, the lines they hold
with their forms at rest (R317, R477) and the dies' write counts (R348). -/
def ElemFrame (D P : List (BitVec 8)) (F : Fl) (s u : State) : Prop :=
  u = { s with
    th := u.th, reqs := u.reqs, mem := u.mem, host := u.host, poison := u.poison, agenda := u.agenda, lines := u.lines, tier := u.tier
    tnodes := u.tnodes, dies := Vector.ofFn fun d : Fin 4 => { s.dies[d] with clock := u.dies[d].clock }
    cx := { s.cx with
      ptes := u.cx.ptes, tasks := u.cx.tasks, capRecs := u.cx.capRecs, capFull := u.cx.capFull, replay := u.cx.replay
      replayBad := u.cx.replayBad }
    core := { s.core with spad := u.core.spad, spadPoison := u.core.spadPoison, banks := u.core.banks } } ∧
  u.th = { s.th with
    w := u.th.w, g := u.th.g, lc := u.th.lc, v := u.th.v, m := u.th.m, q := u.th.q, flags := u.th.flags, tsm := u.th.tsm, rsm := u.th.rsm
    mjn := u.th.mjn, busy := u.th.busy } ∧
  SameRegs D P F s u

/-- The frame of a vector instruction whose destination is a register, no register, or a port: nothing is stored but the elements
that n lanes of type t append to the port. -/
def LaneFrame (i : Instr) (t : Ty) (n : Nat) (d : VDst) (ss : List (BitVec 8)) (F : Fl) : Prop :=
  ∀ s, Ends i s fun u =>
    ElemFrame [d.spec] (d.spec :: ss) F s u ∧ ((∀ k, d ≠ .q k) → NoStore s u) ∧
    ∀ k p es, d = .q k → (s.joined (d.spec :: ss)).portFor k true t = .ok p →
      (s.joined (d.spec :: ss)).elems t p.rowBase true ((List.range (min n (p.n0 - p.elem))).map fun j => (j, ((p.elem + j : Nat) : Int)))
        = .ok es →
      StoredOnly false (es.map (·.2)) s u

/-- The flags that a lane operation, or a port's conversion, may raise; and those with a division. -/
def laneFl : Fl := Fl.nx ||| Fl.uf ||| Fl.of ||| Fl.nv ||| Fl.is
def divFl : Fl := laneFl ||| Fl.dz

end Sys2Proof.Ob

/-- The frame of the vector instructions (R168 to R179): the destination register or the elements appended to the destination port, the
ports of the sources, the flags, and nothing else. -/
def Obligations.VectorFrame : Prop :=
  ∀ (t v : Ty) (rnd : Rnd) (sat acc : Bool) (d : VDst) (e : Fin 64) (a c : VSrc) (b : BSrc) (m : Mask) (mk : Fin 8) (k : Cond)
    (x y : SSrc) (r : RDst) (sd : SDst) (lo : Fin 2) (hi : Fin 4) (part : Fin 16) (pl : Fin 6) (pos : Fin 8) (f : FReg),
    (∀ i ∈ [Instr.vadd t rnd sat d a b m, .vsub t rnd sat d a b m, .vmul t rnd sat d a b m, .vmin t d a b m, .vmax t d a b m,
      .vand t d a b m, .vor t d a b m, .vxor t d a b m, .vshl t sat d a b m, .vshr t d a b m, .vsar t d a b m],
      LaneFrame i t t.lanes d (a.spec :: b.spec :: maskOps m) laneFl) ∧
    LaneFrame (.vdiv t rnd sat d a b m) t t.lanes d (a.spec :: b.spec :: maskOps m) divFl ∧
    (∀ i ∈ [Instr.vfma t rnd sat e a b m, .vfms t rnd sat e a b m],
      LaneFrame i t t.lanes (.v e) (a.spec :: b.spec :: maskOps m) laneFl) ∧
    (∀ i ∈ [Instr.vsqrt t rnd sat d a m, .vabs t sat d a m, .vneg t sat d a m, .vexp2 t rnd sat d a m, .vmov t d a m],
      LaneFrame i t t.lanes d (a.spec :: maskOps m) laneFl) ∧
    (∀ i ∈ [Instr.vrcp t rnd sat d a m, .vrsq t rnd sat d a m, .vlog2 t rnd sat d a m],
      LaneFrame i t t.lanes d (a.spec :: maskOps m) divFl) ∧
    LaneFrame (.vsel t d a b mk) t t.lanes d [a.spec, b.spec, specOf 0xB0 mk] laneFl ∧
    LaneFrame (.vshuf t d a c m) t t.lanes d (a.spec :: c.spec :: maskOps m) laneFl ∧
    LaneFrame (.vbcast t d b m) t t.lanes d (b.spec :: maskOps m) laneFl ∧
    LaneFrame (.vpack lo hi d a c) .n8 96 d [a.spec, c.spec] laneFl ∧
    LaneFrame (.vcvt part t v rnd sat d a) t (min (cvtLanes t) (cvtLanes v)) d [a.spec] laneFl ∧
    (∀ s, Ends (.vcmp k t mk a b m) s fun u => ElemFrame [specOf 0xB0 mk] [a.spec, b.spec] laneFl s u ∧ NoStore s u) ∧
    (∀ s, Ends (.vlaneGet t sd a y) s fun u => ElemFrame [sd.spec] [a.spec] laneFl s u ∧ NoStore s u) ∧
    LaneFrame (.vlanePut t d x y) t t.lanes d [x.spec, y.spec] laneFl ∧
    (∀ s, Ends (.vunpk pl e a) s fun u => ElemFrame [specOf 0x40 e] [a.spec] laneFl s u ∧ NoStore s u) ∧
    (∀ s, Ends (.vquant pos t rnd e a y f) s fun u =>
      ElemFrame [specOf 0x40 e, f.spec] [a.spec] (divFl ||| Fl.qs) s u ∧ NoStore s u) ∧
    (∀ i ∈ [Instr.vsum acc t rnd sat (.s sd) a m, .vrmax acc t rnd sat (.s sd) a m, .vrmin acc t rnd sat (.s sd) a m,
      .vdot acc t rnd sat (.s sd) a c m],
      ∀ s, Ends i s fun u => ElemFrame [sd.spec] [a.spec, c.spec] laneFl s u ∧ NoStore s u) ∧
    (∀ i ∈ [Instr.vsum acc t rnd sat (.q mk) a m, .vrmax acc t rnd sat (.q mk) a m, .vrmin acc t rnd sat (.q mk) a m],
      LaneFrame i t 1 (.q mk) (a.spec :: maskOps m) laneFl) ∧
    LaneFrame (.vdot acc t rnd sat (.q mk) a c m) t 1 (.q mk) (a.spec :: c.spec :: maskOps m) laneFl

/-- The frame of loads, stores, ports and tags (R166, R167, R180 to R193): a load changes its destination alone; a store changes no byte
but those of the elements that its address, computed as the instruction computes it, names; port instructions change their port; tag
instructions the tag table. -/
def Obligations.StoreFrame : Prop :=
  ∀ (t : Ty) (rnd : Rnd) (sat : Bool) (sc : Scope) (o : Ord) (d : SDst) (e : VDst) (m : MAddr) (x : Option SReg) (k : Mask) (r : SReg)
    (a b c : VSrc) (y z w : SSrc) (q : Fin 8) (wr : Bool),
    (∀ s, Ends (.ld t rnd sat sc o d m x) s fun u => ElemFrame [d.spec] [] laneFl s u ∧ NoStore s u) ∧
    LaneFrame (.vld t rnd sat sc o e m x k) t t.lanes e (m.base.spec :: idxOps x ++ maskOps k) laneFl ∧
    LaneFrame (.vgath t rnd sat sc o e m b k) t t.lanes e (m.base.spec :: b.spec :: maskOps k) laneFl ∧
    (∀ s, Ends (.st t rnd sat sc o m x r) s fun u => ElemFrame [] [] laneFl s u ∧
      let j := s.joined (m.base.spec :: idxOps x ++ [r.spec])
      ∀ l, j.elem t (j.ea m) (j.index x) true = .ok l → StoredOnly (isRel o) [l] s u) ∧
    (∀ s, Ends (.vst t rnd sat sc o m x c) s fun u => ElemFrame [] [c.spec] laneFl s u ∧
      let j := s.joined (m.base.spec :: idxOps x ++ [c.spec])
      ∀ v l, j.vsrc [] t t.lanes (fun _ => true) c = .ok v →
        v.1.elems t (j.ea m) true (lanesAt t.lanes (fun _ => true) fun n => j.index x + n) = .ok l →
        StoredOnly (isRel o) (l.map (·.2)) s u) ∧
    (∀ s, Ends (.vscat t rnd sat sc o k m b c) s fun u => ElemFrame [] [b.spec, c.spec] laneFl s u ∧
      let j := s.joined (maskOps k ++ [m.base.spec, b.spec, c.spec])
      ∀ v v' l, j.vsrc [] t t.lanes (maskAct j k t) b = .ok v → State.vsrc v.1 v.2.1 t t.lanes (maskAct j k t) c = .ok v' →
        v'.1.elems t (j.ea m) true (lanesAt t.lanes (maskAct j k t) fun n => signedLane t.width (v.2.2.getD n 0)) = .ok l →
        StoredOnly (isRel o) (l.map (·.2)) s u) ∧
    (∀ s, Ends (.vqst rnd sc o m b r) s fun u => ElemFrame [] [b.spec] (divFl ||| Fl.qs) s u ∧
      let j := s.joined [m.base.spec, b.spec, r.spec]
      (∀ n, u.core.spad.get n = s.core.spad.get n) ∧ (∀ n, u.memByte n = s.memByte n) ∧
      ∀ v l, j.vsrc [] .f 24 (fun _ => true) b = .ok v → v.1.blockAt (j.ea m) v.2.2 ((j.sreg r).toNat % 2 ^ 32) rnd = .ok l →
        ∀ n, n ∉ l.1.map (·.1.pa) → u.ownByte n = s.ownByte n) ∧
    (∀ i ∈ [Instr.sbind wr t rnd sat sc q y z w, .sfree q, .sseek q y z], Regs i [specOf 0x80 q] 0) ∧
    (∀ i ∈ [Instr.sstatPos d q, .sstatCfg d q, .sstatBase d q], Regs i [d.spec] 0) ∧ Regs (.sflush sc o q) [] 0 ∧
    Regs (.tlook d y) [d.spec] 0 ∧
    (∀ i ∈ [Instr.tset y z w, .tinvEnt y, .tinvTag y, .tinvAll], ∀ s, Ends i s fun u =>
      u = { s with th := u.th, core := { s.core with tags := u.core.tags } } ∧ SameRegs [] [] 0 s u ∧ NoStore s u)
end

