-- ==== Sys2Proof/Laws/State.lean ====
section
/-! SUPPORT. One lemma per field per update: what each named update of the machine leaves as it was, and what it sets. -/
namespace Sys2Proof.Machine
open Sys2Proof

/-! ### flag -/

@[simp] theorem State.flag_bd (s : State) (f : Fl) : (s.flag f).bd = s.bd := rfl
@[simp] theorem State.flag_core (s : State) (f : Fl) : (s.flag f).core = s.core := rfl
@[simp] theorem State.flag_cx (s : State) (f : Fl) : (s.flag f).cx = s.cx := rfl
@[simp] theorem State.flag_ths (s : State) (f : Fl) : (s.flag f).ths = s.ths := rfl
@[simp] theorem State.flag_bds (s : State) (f : Fl) : (s.flag f).bds = s.bds := rfl
@[simp] theorem State.flag_cores (s : State) (f : Fl) : (s.flag f).cores = s.cores := rfl
@[simp] theorem State.flag_cxs (s : State) (f : Fl) : (s.flag f).cxs = s.cxs := rfl
@[simp] theorem State.flag_mem (s : State) (f : Fl) : (s.flag f).mem = s.mem := rfl
@[simp] theorem State.flag_poison (s : State) (f : Fl) : (s.flag f).poison = s.poison := rfl
@[simp] theorem State.flag_host (s : State) (f : Fl) : (s.flag f).host = s.host := rfl
@[simp] theorem State.flag_reqs (s : State) (f : Fl) : (s.flag f).reqs = s.reqs := rfl
@[simp] theorem State.flag_pkts (s : State) (f : Fl) : (s.flag f).pkts = s.pkts := rfl
@[simp] theorem State.flag_groups (s : State) (f : Fl) : (s.flag f).groups = s.groups := rfl
@[simp] theorem State.flag_agenda (s : State) (f : Fl) : (s.flag f).agenda = s.agenda := rfl
@[simp] theorem State.flag_free (s : State) (f : Fl) : (s.flag f).free = s.free := rfl
@[simp] theorem State.flag_nextTag (s : State) (f : Fl) : (s.flag f).nextTag = s.nextTag := rfl
@[simp] theorem State.flag_iss (s : State) (f : Fl) : (s.flag f).iss = s.iss := rfl
@[simp] theorem State.flag_th_core (s : State) (f : Fl) : (s.flag f).th.core = s.th.core := rfl
@[simp] theorem State.flag_th_ctx (s : State) (f : Fl) : (s.flag f).th.ctx = s.th.ctx := rfl
@[simp] theorem State.flag_th_slot (s : State) (f : Fl) : (s.flag f).th.slot = s.th.slot := rfl
@[simp] theorem State.flag_th_task (s : State) (f : Fl) : (s.flag f).th.task = s.th.task := rfl
@[simp] theorem State.flag_th_eddy (s : State) (f : Fl) : (s.flag f).th.eddy = s.th.eddy := rfl
@[simp] theorem State.flag_th_pc (s : State) (f : Fl) : (s.flag f).th.pc = s.th.pc := rfl
@[simp] theorem State.flag_th_handler (s : State) (f : Fl) : (s.flag f).th.handler = s.th.handler := rfl
@[simp] theorem State.flag_th_exited (s : State) (f : Fl) : (s.flag f).th.exited = s.th.exited := rfl
@[simp] theorem State.flag_th_w (s : State) (f : Fl) : (s.flag f).th.w = s.th.w := rfl
@[simp] theorem State.flag_th_wbase (s : State) (f : Fl) : (s.flag f).th.wbase = s.th.wbase := rfl
@[simp] theorem State.flag_th_wvalid (s : State) (f : Fl) : (s.flag f).th.wvalid = s.th.wvalid := rfl
@[simp] theorem State.flag_th_wsp (s : State) (f : Fl) : (s.flag f).th.wsp = s.th.wsp := rfl
@[simp] theorem State.flag_th_g (s : State) (f : Fl) : (s.flag f).th.g = s.th.g := rfl
@[simp] theorem State.flag_th_lc (s : State) (f : Fl) : (s.flag f).th.lc = s.th.lc := rfl
@[simp] theorem State.flag_th_v (s : State) (f : Fl) : (s.flag f).th.v = s.th.v := rfl
@[simp] theorem State.flag_th_m (s : State) (f : Fl) : (s.flag f).th.m = s.th.m := rfl
@[simp] theorem State.flag_th_p (s : State) (f : Fl) : (s.flag f).th.p = s.th.p := rfl
@[simp] theorem State.flag_th_q (s : State) (f : Fl) : (s.flag f).th.q = s.th.q := rfl
@[simp] theorem State.flag_th_k (s : State) (f : Fl) : (s.flag f).th.k = s.th.k := rfl
@[simp] theorem State.flag_th_tsm (s : State) (f : Fl) : (s.flag f).th.tsm = s.th.tsm := rfl
@[simp] theorem State.flag_th_rsm (s : State) (f : Fl) : (s.flag f).th.rsm = s.th.rsm := rfl
@[simp] theorem State.flag_th_tepc (s : State) (f : Fl) : (s.flag f).th.tepc = s.th.tepc := rfl
@[simp] theorem State.flag_th_tcause (s : State) (f : Fl) : (s.flag f).th.tcause = s.th.tcause := rfl
@[simp] theorem State.flag_th_tval (s : State) (f : Fl) : (s.flag f).th.tval = s.th.tval := rfl
@[simp] theorem State.flag_th_tscratch (s : State) (f : Fl) : (s.flag f).th.tscratch = s.th.tscratch := rfl
@[simp] theorem State.flag_th_tvec (s : State) (f : Fl) : (s.flag f).th.tvec = s.th.tvec := rfl
@[simp] theorem State.flag_th_tstep (s : State) (f : Fl) : (s.flag f).th.tstep = s.th.tstep := rfl
@[simp] theorem State.flag_th_icount (s : State) (f : Fl) : (s.flag f).th.icount = s.th.icount := rfl
@[simp] theorem State.flag_th_wait (s : State) (f : Fl) : (s.flag f).th.wait = s.th.wait := rfl
@[simp] theorem State.flag_th_msgs (s : State) (f : Fl) : (s.flag f).th.msgs = s.th.msgs := rfl
@[simp] theorem State.flag_th_rngs (s : State) (f : Fl) : (s.flag f).th.rngs = s.th.rngs := rfl

/-! ### setV -/

@[simp] theorem State.setV_bd (s : State) (n : Fin 64) (v : VWord) : (s.setV n v).bd = s.bd := rfl
@[simp] theorem State.setV_core (s : State) (n : Fin 64) (v : VWord) : (s.setV n v).core = s.core := rfl
@[simp] theorem State.setV_cx (s : State) (n : Fin 64) (v : VWord) : (s.setV n v).cx = s.cx := rfl
@[simp] theorem State.setV_ths (s : State) (n : Fin 64) (v : VWord) : (s.setV n v).ths = s.ths := rfl
@[simp] theorem State.setV_bds (s : State) (n : Fin 64) (v : VWord) : (s.setV n v).bds = s.bds := rfl
@[simp] theorem State.setV_cores (s : State) (n : Fin 64) (v : VWord) : (s.setV n v).cores = s.cores := rfl
@[simp] theorem State.setV_cxs (s : State) (n : Fin 64) (v : VWord) : (s.setV n v).cxs = s.cxs := rfl
@[simp] theorem State.setV_mem (s : State) (n : Fin 64) (v : VWord) : (s.setV n v).mem = s.mem := rfl
@[simp] theorem State.setV_poison (s : State) (n : Fin 64) (v : VWord) : (s.setV n v).poison = s.poison := rfl
@[simp] theorem State.setV_host (s : State) (n : Fin 64) (v : VWord) : (s.setV n v).host = s.host := rfl
@[simp] theorem State.setV_reqs (s : State) (n : Fin 64) (v : VWord) : (s.setV n v).reqs = s.reqs := rfl
@[simp] theorem State.setV_pkts (s : State) (n : Fin 64) (v : VWord) : (s.setV n v).pkts = s.pkts := rfl
@[simp] theorem State.setV_groups (s : State) (n : Fin 64) (v : VWord) : (s.setV n v).groups = s.groups := rfl
@[simp] theorem State.setV_agenda (s : State) (n : Fin 64) (v : VWord) : (s.setV n v).agenda = s.agenda := rfl
@[simp] theorem State.setV_free (s : State) (n : Fin 64) (v : VWord) : (s.setV n v).free = s.free := rfl
@[simp] theorem State.setV_nextTag (s : State) (n : Fin 64) (v : VWord) : (s.setV n v).nextTag = s.nextTag := rfl
@[simp] theorem State.setV_iss (s : State) (n : Fin 64) (v : VWord) : (s.setV n v).iss = s.iss := rfl
@[simp] theorem State.setV_th_core (s : State) (n : Fin 64) (v : VWord) : (s.setV n v).th.core = s.th.core := rfl
@[simp] theorem State.setV_th_ctx (s : State) (n : Fin 64) (v : VWord) : (s.setV n v).th.ctx = s.th.ctx := rfl
@[simp] theorem State.setV_th_slot (s : State) (n : Fin 64) (v : VWord) : (s.setV n v).th.slot = s.th.slot := rfl
@[simp] theorem State.setV_th_task (s : State) (n : Fin 64) (v : VWord) : (s.setV n v).th.task = s.th.task := rfl
@[simp] theorem State.setV_th_eddy (s : State) (n : Fin 64) (v : VWord) : (s.setV n v).th.eddy = s.th.eddy := rfl
@[simp] theorem State.setV_th_pc (s : State) (n : Fin 64) (v : VWord) : (s.setV n v).th.pc = s.th.pc := rfl
@[simp] theorem State.setV_th_handler (s : State) (n : Fin 64) (v : VWord) : (s.setV n v).th.handler = s.th.handler := rfl
@[simp] theorem State.setV_th_exited (s : State) (n : Fin 64) (v : VWord) : (s.setV n v).th.exited = s.th.exited := rfl
@[simp] theorem State.setV_th_w (s : State) (n : Fin 64) (v : VWord) : (s.setV n v).th.w = s.th.w := rfl
@[simp] theorem State.setV_th_wbase (s : State) (n : Fin 64) (v : VWord) : (s.setV n v).th.wbase = s.th.wbase := rfl
@[simp] theorem State.setV_th_wvalid (s : State) (n : Fin 64) (v : VWord) : (s.setV n v).th.wvalid = s.th.wvalid := rfl
@[simp] theorem State.setV_th_wsp (s : State) (n : Fin 64) (v : VWord) : (s.setV n v).th.wsp = s.th.wsp := rfl
@[simp] theorem State.setV_th_g (s : State) (n : Fin 64) (v : VWord) : (s.setV n v).th.g = s.th.g := rfl
@[simp] theorem State.setV_th_lc (s : State) (n : Fin 64) (v : VWord) : (s.setV n v).th.lc = s.th.lc := rfl
@[simp] theorem State.setV_th_m (s : State) (n : Fin 64) (v : VWord) : (s.setV n v).th.m = s.th.m := rfl
@[simp] theorem State.setV_th_p (s : State) (n : Fin 64) (v : VWord) : (s.setV n v).th.p = s.th.p := rfl
@[simp] theorem State.setV_th_q (s : State) (n : Fin 64) (v : VWord) : (s.setV n v).th.q = s.th.q := rfl
@[simp] theorem State.setV_th_k (s : State) (n : Fin 64) (v : VWord) : (s.setV n v).th.k = s.th.k := rfl
@[simp] theorem State.setV_th_flags (s : State) (n : Fin 64) (v : VWord) : (s.setV n v).th.flags = s.th.flags := rfl
@[simp] theorem State.setV_th_tsm (s : State) (n : Fin 64) (v : VWord) : (s.setV n v).th.tsm = s.th.tsm := rfl
@[simp] theorem State.setV_th_rsm (s : State) (n : Fin 64) (v : VWord) : (s.setV n v).th.rsm = s.th.rsm := rfl
@[simp] theorem State.setV_th_tepc (s : State) (n : Fin 64) (v : VWord) : (s.setV n v).th.tepc = s.th.tepc := rfl
@[simp] theorem State.setV_th_tcause (s : State) (n : Fin 64) (v : VWord) : (s.setV n v).th.tcause = s.th.tcause := rfl
@[simp] theorem State.setV_th_tval (s : State) (n : Fin 64) (v : VWord) : (s.setV n v).th.tval = s.th.tval := rfl
@[simp] theorem State.setV_th_tscratch (s : State) (n : Fin 64) (v : VWord) : (s.setV n v).th.tscratch = s.th.tscratch := rfl
@[simp] theorem State.setV_th_tvec (s : State) (n : Fin 64) (v : VWord) : (s.setV n v).th.tvec = s.th.tvec := rfl
@[simp] theorem State.setV_th_tstep (s : State) (n : Fin 64) (v : VWord) : (s.setV n v).th.tstep = s.th.tstep := rfl
@[simp] theorem State.setV_th_icount (s : State) (n : Fin 64) (v : VWord) : (s.setV n v).th.icount = s.th.icount := rfl
@[simp] theorem State.setV_th_wait (s : State) (n : Fin 64) (v : VWord) : (s.setV n v).th.wait = s.th.wait := rfl
@[simp] theorem State.setV_th_msgs (s : State) (n : Fin 64) (v : VWord) : (s.setV n v).th.msgs = s.th.msgs := rfl
@[simp] theorem State.setV_th_rngs (s : State) (n : Fin 64) (v : VWord) : (s.setV n v).th.rngs = s.th.rngs := rfl

/-! ### setM -/

@[simp] theorem State.setM_bd (s : State) (n : Fin 8) (v : MWord) : (s.setM n v).bd = s.bd := rfl
@[simp] theorem State.setM_core (s : State) (n : Fin 8) (v : MWord) : (s.setM n v).core = s.core := rfl
@[simp] theorem State.setM_cx (s : State) (n : Fin 8) (v : MWord) : (s.setM n v).cx = s.cx := rfl
@[simp] theorem State.setM_ths (s : State) (n : Fin 8) (v : MWord) : (s.setM n v).ths = s.ths := rfl
@[simp] theorem State.setM_bds (s : State) (n : Fin 8) (v : MWord) : (s.setM n v).bds = s.bds := rfl
@[simp] theorem State.setM_cores (s : State) (n : Fin 8) (v : MWord) : (s.setM n v).cores = s.cores := rfl
@[simp] theorem State.setM_cxs (s : State) (n : Fin 8) (v : MWord) : (s.setM n v).cxs = s.cxs := rfl
@[simp] theorem State.setM_mem (s : State) (n : Fin 8) (v : MWord) : (s.setM n v).mem = s.mem := rfl
@[simp] theorem State.setM_poison (s : State) (n : Fin 8) (v : MWord) : (s.setM n v).poison = s.poison := rfl
@[simp] theorem State.setM_host (s : State) (n : Fin 8) (v : MWord) : (s.setM n v).host = s.host := rfl
@[simp] theorem State.setM_reqs (s : State) (n : Fin 8) (v : MWord) : (s.setM n v).reqs = s.reqs := rfl
@[simp] theorem State.setM_pkts (s : State) (n : Fin 8) (v : MWord) : (s.setM n v).pkts = s.pkts := rfl
@[simp] theorem State.setM_groups (s : State) (n : Fin 8) (v : MWord) : (s.setM n v).groups = s.groups := rfl
@[simp] theorem State.setM_agenda (s : State) (n : Fin 8) (v : MWord) : (s.setM n v).agenda = s.agenda := rfl
@[simp] theorem State.setM_free (s : State) (n : Fin 8) (v : MWord) : (s.setM n v).free = s.free := rfl
@[simp] theorem State.setM_nextTag (s : State) (n : Fin 8) (v : MWord) : (s.setM n v).nextTag = s.nextTag := rfl
@[simp] theorem State.setM_iss (s : State) (n : Fin 8) (v : MWord) : (s.setM n v).iss = s.iss := rfl
@[simp] theorem State.setM_th_core (s : State) (n : Fin 8) (v : MWord) : (s.setM n v).th.core = s.th.core := rfl
@[simp] theorem State.setM_th_ctx (s : State) (n : Fin 8) (v : MWord) : (s.setM n v).th.ctx = s.th.ctx := rfl
@[simp] theorem State.setM_th_slot (s : State) (n : Fin 8) (v : MWord) : (s.setM n v).th.slot = s.th.slot := rfl
@[simp] theorem State.setM_th_task (s : State) (n : Fin 8) (v : MWord) : (s.setM n v).th.task = s.th.task := rfl
@[simp] theorem State.setM_th_eddy (s : State) (n : Fin 8) (v : MWord) : (s.setM n v).th.eddy = s.th.eddy := rfl
@[simp] theorem State.setM_th_pc (s : State) (n : Fin 8) (v : MWord) : (s.setM n v).th.pc = s.th.pc := rfl
@[simp] theorem State.setM_th_handler (s : State) (n : Fin 8) (v : MWord) : (s.setM n v).th.handler = s.th.handler := rfl
@[simp] theorem State.setM_th_exited (s : State) (n : Fin 8) (v : MWord) : (s.setM n v).th.exited = s.th.exited := rfl
@[simp] theorem State.setM_th_w (s : State) (n : Fin 8) (v : MWord) : (s.setM n v).th.w = s.th.w := rfl
@[simp] theorem State.setM_th_wbase (s : State) (n : Fin 8) (v : MWord) : (s.setM n v).th.wbase = s.th.wbase := rfl
@[simp] theorem State.setM_th_wvalid (s : State) (n : Fin 8) (v : MWord) : (s.setM n v).th.wvalid = s.th.wvalid := rfl
@[simp] theorem State.setM_th_wsp (s : State) (n : Fin 8) (v : MWord) : (s.setM n v).th.wsp = s.th.wsp := rfl
@[simp] theorem State.setM_th_g (s : State) (n : Fin 8) (v : MWord) : (s.setM n v).th.g = s.th.g := rfl
@[simp] theorem State.setM_th_lc (s : State) (n : Fin 8) (v : MWord) : (s.setM n v).th.lc = s.th.lc := rfl
@[simp] theorem State.setM_th_v (s : State) (n : Fin 8) (v : MWord) : (s.setM n v).th.v = s.th.v := rfl
@[simp] theorem State.setM_th_p (s : State) (n : Fin 8) (v : MWord) : (s.setM n v).th.p = s.th.p := rfl
@[simp] theorem State.setM_th_q (s : State) (n : Fin 8) (v : MWord) : (s.setM n v).th.q = s.th.q := rfl
@[simp] theorem State.setM_th_k (s : State) (n : Fin 8) (v : MWord) : (s.setM n v).th.k = s.th.k := rfl
@[simp] theorem State.setM_th_flags (s : State) (n : Fin 8) (v : MWord) : (s.setM n v).th.flags = s.th.flags := rfl
@[simp] theorem State.setM_th_tsm (s : State) (n : Fin 8) (v : MWord) : (s.setM n v).th.tsm = s.th.tsm := rfl
@[simp] theorem State.setM_th_rsm (s : State) (n : Fin 8) (v : MWord) : (s.setM n v).th.rsm = s.th.rsm := rfl
@[simp] theorem State.setM_th_tepc (s : State) (n : Fin 8) (v : MWord) : (s.setM n v).th.tepc = s.th.tepc := rfl
@[simp] theorem State.setM_th_tcause (s : State) (n : Fin 8) (v : MWord) : (s.setM n v).th.tcause = s.th.tcause := rfl
@[simp] theorem State.setM_th_tval (s : State) (n : Fin 8) (v : MWord) : (s.setM n v).th.tval = s.th.tval := rfl
@[simp] theorem State.setM_th_tscratch (s : State) (n : Fin 8) (v : MWord) : (s.setM n v).th.tscratch = s.th.tscratch := rfl
@[simp] theorem State.setM_th_tvec (s : State) (n : Fin 8) (v : MWord) : (s.setM n v).th.tvec = s.th.tvec := rfl
@[simp] theorem State.setM_th_tstep (s : State) (n : Fin 8) (v : MWord) : (s.setM n v).th.tstep = s.th.tstep := rfl
@[simp] theorem State.setM_th_icount (s : State) (n : Fin 8) (v : MWord) : (s.setM n v).th.icount = s.th.icount := rfl
@[simp] theorem State.setM_th_wait (s : State) (n : Fin 8) (v : MWord) : (s.setM n v).th.wait = s.th.wait := rfl
@[simp] theorem State.setM_th_msgs (s : State) (n : Fin 8) (v : MWord) : (s.setM n v).th.msgs = s.th.msgs := rfl
@[simp] theorem State.setM_th_rngs (s : State) (n : Fin 8) (v : MWord) : (s.setM n v).th.rngs = s.th.rngs := rfl

/-! ### setPort -/

@[simp] theorem State.setPort_bd (s : State) (q : Fin 8) (p : Option Port) : (s.setPort q p).bd = s.bd := rfl
@[simp] theorem State.setPort_core (s : State) (q : Fin 8) (p : Option Port) : (s.setPort q p).core = s.core := rfl
@[simp] theorem State.setPort_cx (s : State) (q : Fin 8) (p : Option Port) : (s.setPort q p).cx = s.cx := rfl
@[simp] theorem State.setPort_ths (s : State) (q : Fin 8) (p : Option Port) : (s.setPort q p).ths = s.ths := rfl
@[simp] theorem State.setPort_bds (s : State) (q : Fin 8) (p : Option Port) : (s.setPort q p).bds = s.bds := rfl
@[simp] theorem State.setPort_cores (s : State) (q : Fin 8) (p : Option Port) : (s.setPort q p).cores = s.cores := rfl
@[simp] theorem State.setPort_cxs (s : State) (q : Fin 8) (p : Option Port) : (s.setPort q p).cxs = s.cxs := rfl
@[simp] theorem State.setPort_mem (s : State) (q : Fin 8) (p : Option Port) : (s.setPort q p).mem = s.mem := rfl
@[simp] theorem State.setPort_poison (s : State) (q : Fin 8) (p : Option Port) : (s.setPort q p).poison = s.poison := rfl
@[simp] theorem State.setPort_host (s : State) (q : Fin 8) (p : Option Port) : (s.setPort q p).host = s.host := rfl
@[simp] theorem State.setPort_reqs (s : State) (q : Fin 8) (p : Option Port) : (s.setPort q p).reqs = s.reqs := rfl
@[simp] theorem State.setPort_pkts (s : State) (q : Fin 8) (p : Option Port) : (s.setPort q p).pkts = s.pkts := rfl
@[simp] theorem State.setPort_groups (s : State) (q : Fin 8) (p : Option Port) : (s.setPort q p).groups = s.groups := rfl
@[simp] theorem State.setPort_agenda (s : State) (q : Fin 8) (p : Option Port) : (s.setPort q p).agenda = s.agenda := rfl
@[simp] theorem State.setPort_free (s : State) (q : Fin 8) (p : Option Port) : (s.setPort q p).free = s.free := rfl
@[simp] theorem State.setPort_nextTag (s : State) (q : Fin 8) (p : Option Port) : (s.setPort q p).nextTag = s.nextTag := rfl
@[simp] theorem State.setPort_iss (s : State) (q : Fin 8) (p : Option Port) : (s.setPort q p).iss = s.iss := rfl
@[simp] theorem State.setPort_th_core (s : State) (q : Fin 8) (p : Option Port) : (s.setPort q p).th.core = s.th.core := rfl
@[simp] theorem State.setPort_th_ctx (s : State) (q : Fin 8) (p : Option Port) : (s.setPort q p).th.ctx = s.th.ctx := rfl
@[simp] theorem State.setPort_th_slot (s : State) (q : Fin 8) (p : Option Port) : (s.setPort q p).th.slot = s.th.slot := rfl
@[simp] theorem State.setPort_th_task (s : State) (q : Fin 8) (p : Option Port) : (s.setPort q p).th.task = s.th.task := rfl
@[simp] theorem State.setPort_th_eddy (s : State) (q : Fin 8) (p : Option Port) : (s.setPort q p).th.eddy = s.th.eddy := rfl
@[simp] theorem State.setPort_th_pc (s : State) (q : Fin 8) (p : Option Port) : (s.setPort q p).th.pc = s.th.pc := rfl
@[simp] theorem State.setPort_th_handler (s : State) (q : Fin 8) (p : Option Port) : (s.setPort q p).th.handler = s.th.handler := rfl
@[simp] theorem State.setPort_th_exited (s : State) (q : Fin 8) (p : Option Port) : (s.setPort q p).th.exited = s.th.exited := rfl
@[simp] theorem State.setPort_th_w (s : State) (q : Fin 8) (p : Option Port) : (s.setPort q p).th.w = s.th.w := rfl
@[simp] theorem State.setPort_th_wbase (s : State) (q : Fin 8) (p : Option Port) : (s.setPort q p).th.wbase = s.th.wbase := rfl
@[simp] theorem State.setPort_th_wvalid (s : State) (q : Fin 8) (p : Option Port) : (s.setPort q p).th.wvalid = s.th.wvalid := rfl
@[simp] theorem State.setPort_th_wsp (s : State) (q : Fin 8) (p : Option Port) : (s.setPort q p).th.wsp = s.th.wsp := rfl
@[simp] theorem State.setPort_th_g (s : State) (q : Fin 8) (p : Option Port) : (s.setPort q p).th.g = s.th.g := rfl
@[simp] theorem State.setPort_th_lc (s : State) (q : Fin 8) (p : Option Port) : (s.setPort q p).th.lc = s.th.lc := rfl
@[simp] theorem State.setPort_th_v (s : State) (q : Fin 8) (p : Option Port) : (s.setPort q p).th.v = s.th.v := rfl
@[simp] theorem State.setPort_th_m (s : State) (q : Fin 8) (p : Option Port) : (s.setPort q p).th.m = s.th.m := rfl
@[simp] theorem State.setPort_th_p (s : State) (q : Fin 8) (p : Option Port) : (s.setPort q p).th.p = s.th.p := rfl
@[simp] theorem State.setPort_th_k (s : State) (q : Fin 8) (p : Option Port) : (s.setPort q p).th.k = s.th.k := rfl
@[simp] theorem State.setPort_th_flags (s : State) (q : Fin 8) (p : Option Port) : (s.setPort q p).th.flags = s.th.flags := rfl
@[simp] theorem State.setPort_th_tsm (s : State) (q : Fin 8) (p : Option Port) : (s.setPort q p).th.tsm = s.th.tsm := rfl
@[simp] theorem State.setPort_th_rsm (s : State) (q : Fin 8) (p : Option Port) : (s.setPort q p).th.rsm = s.th.rsm := rfl
@[simp] theorem State.setPort_th_tepc (s : State) (q : Fin 8) (p : Option Port) : (s.setPort q p).th.tepc = s.th.tepc := rfl
@[simp] theorem State.setPort_th_tcause (s : State) (q : Fin 8) (p : Option Port) : (s.setPort q p).th.tcause = s.th.tcause := rfl
@[simp] theorem State.setPort_th_tval (s : State) (q : Fin 8) (p : Option Port) : (s.setPort q p).th.tval = s.th.tval := rfl
@[simp] theorem State.setPort_th_tscratch (s : State) (q : Fin 8) (p : Option Port) : (s.setPort q p).th.tscratch = s.th.tscratch := rfl
@[simp] theorem State.setPort_th_tvec (s : State) (q : Fin 8) (p : Option Port) : (s.setPort q p).th.tvec = s.th.tvec := rfl
@[simp] theorem State.setPort_th_tstep (s : State) (q : Fin 8) (p : Option Port) : (s.setPort q p).th.tstep = s.th.tstep := rfl
@[simp] theorem State.setPort_th_icount (s : State) (q : Fin 8) (p : Option Port) : (s.setPort q p).th.icount = s.th.icount := rfl
@[simp] theorem State.setPort_th_wait (s : State) (q : Fin 8) (p : Option Port) : (s.setPort q p).th.wait = s.th.wait := rfl
@[simp] theorem State.setPort_th_msgs (s : State) (q : Fin 8) (p : Option Port) : (s.setPort q p).th.msgs = s.th.msgs := rfl
@[simp] theorem State.setPort_th_rngs (s : State) (q : Fin 8) (p : Option Port) : (s.setPort q p).th.rngs = s.th.rngs := rfl

/-! ### hold -/

@[simp] theorem State.hold_bd (s : State) (n : Nat) : (s.hold n).bd = s.bd := rfl
@[simp] theorem State.hold_core (s : State) (n : Nat) : (s.hold n).core = s.core := rfl
@[simp] theorem State.hold_cx (s : State) (n : Nat) : (s.hold n).cx = s.cx := rfl
@[simp] theorem State.hold_ths (s : State) (n : Nat) : (s.hold n).ths = s.ths := rfl
@[simp] theorem State.hold_bds (s : State) (n : Nat) : (s.hold n).bds = s.bds := rfl
@[simp] theorem State.hold_cores (s : State) (n : Nat) : (s.hold n).cores = s.cores := rfl
@[simp] theorem State.hold_cxs (s : State) (n : Nat) : (s.hold n).cxs = s.cxs := rfl
@[simp] theorem State.hold_mem (s : State) (n : Nat) : (s.hold n).mem = s.mem := rfl
@[simp] theorem State.hold_poison (s : State) (n : Nat) : (s.hold n).poison = s.poison := rfl
@[simp] theorem State.hold_host (s : State) (n : Nat) : (s.hold n).host = s.host := rfl
@[simp] theorem State.hold_reqs (s : State) (n : Nat) : (s.hold n).reqs = s.reqs := rfl
@[simp] theorem State.hold_pkts (s : State) (n : Nat) : (s.hold n).pkts = s.pkts := rfl
@[simp] theorem State.hold_groups (s : State) (n : Nat) : (s.hold n).groups = s.groups := rfl
@[simp] theorem State.hold_agenda (s : State) (n : Nat) : (s.hold n).agenda = s.agenda := rfl
@[simp] theorem State.hold_free (s : State) (n : Nat) : (s.hold n).free = s.free := rfl
@[simp] theorem State.hold_nextTag (s : State) (n : Nat) : (s.hold n).nextTag = s.nextTag := rfl
@[simp] theorem State.hold_iss (s : State) (n : Nat) : (s.hold n).iss = s.iss := rfl
@[simp] theorem State.hold_th_core (s : State) (n : Nat) : (s.hold n).th.core = s.th.core := rfl
@[simp] theorem State.hold_th_ctx (s : State) (n : Nat) : (s.hold n).th.ctx = s.th.ctx := rfl
@[simp] theorem State.hold_th_slot (s : State) (n : Nat) : (s.hold n).th.slot = s.th.slot := rfl
@[simp] theorem State.hold_th_task (s : State) (n : Nat) : (s.hold n).th.task = s.th.task := rfl
@[simp] theorem State.hold_th_eddy (s : State) (n : Nat) : (s.hold n).th.eddy = s.th.eddy := rfl
@[simp] theorem State.hold_th_pc (s : State) (n : Nat) : (s.hold n).th.pc = s.th.pc := rfl
@[simp] theorem State.hold_th_handler (s : State) (n : Nat) : (s.hold n).th.handler = s.th.handler := rfl
@[simp] theorem State.hold_th_exited (s : State) (n : Nat) : (s.hold n).th.exited = s.th.exited := rfl
@[simp] theorem State.hold_th_w (s : State) (n : Nat) : (s.hold n).th.w = s.th.w := rfl
@[simp] theorem State.hold_th_wbase (s : State) (n : Nat) : (s.hold n).th.wbase = s.th.wbase := rfl
@[simp] theorem State.hold_th_wvalid (s : State) (n : Nat) : (s.hold n).th.wvalid = s.th.wvalid := rfl
@[simp] theorem State.hold_th_wsp (s : State) (n : Nat) : (s.hold n).th.wsp = s.th.wsp := rfl
@[simp] theorem State.hold_th_g (s : State) (n : Nat) : (s.hold n).th.g = s.th.g := rfl
@[simp] theorem State.hold_th_lc (s : State) (n : Nat) : (s.hold n).th.lc = s.th.lc := rfl
@[simp] theorem State.hold_th_v (s : State) (n : Nat) : (s.hold n).th.v = s.th.v := rfl
@[simp] theorem State.hold_th_m (s : State) (n : Nat) : (s.hold n).th.m = s.th.m := rfl
@[simp] theorem State.hold_th_p (s : State) (n : Nat) : (s.hold n).th.p = s.th.p := rfl
@[simp] theorem State.hold_th_q (s : State) (n : Nat) : (s.hold n).th.q = s.th.q := rfl
@[simp] theorem State.hold_th_k (s : State) (n : Nat) : (s.hold n).th.k = s.th.k := rfl
@[simp] theorem State.hold_th_flags (s : State) (n : Nat) : (s.hold n).th.flags = s.th.flags := rfl
@[simp] theorem State.hold_th_tsm (s : State) (n : Nat) : (s.hold n).th.tsm = s.th.tsm := rfl
@[simp] theorem State.hold_th_rsm (s : State) (n : Nat) : (s.hold n).th.rsm = s.th.rsm := rfl
@[simp] theorem State.hold_th_tepc (s : State) (n : Nat) : (s.hold n).th.tepc = s.th.tepc := rfl
@[simp] theorem State.hold_th_tcause (s : State) (n : Nat) : (s.hold n).th.tcause = s.th.tcause := rfl
@[simp] theorem State.hold_th_tval (s : State) (n : Nat) : (s.hold n).th.tval = s.th.tval := rfl
@[simp] theorem State.hold_th_tscratch (s : State) (n : Nat) : (s.hold n).th.tscratch = s.th.tscratch := rfl
@[simp] theorem State.hold_th_tvec (s : State) (n : Nat) : (s.hold n).th.tvec = s.th.tvec := rfl
@[simp] theorem State.hold_th_tstep (s : State) (n : Nat) : (s.hold n).th.tstep = s.th.tstep := rfl
@[simp] theorem State.hold_th_icount (s : State) (n : Nat) : (s.hold n).th.icount = s.th.icount := rfl
@[simp] theorem State.hold_th_wait (s : State) (n : Nat) : (s.hold n).th.wait = s.th.wait := rfl
@[simp] theorem State.hold_th_msgs (s : State) (n : Nat) : (s.hold n).th.msgs = s.th.msgs := rfl
@[simp] theorem State.hold_th_rngs (s : State) (n : Nat) : (s.hold n).th.rngs = s.th.rngs := rfl

/-! ### setLoop -/

@[simp] theorem State.setLoop_bd (s : State) (n : Fin 2) (c : W32) (b e : Word) : (s.setLoop n c b e).bd = s.bd := rfl
@[simp] theorem State.setLoop_core (s : State) (n : Fin 2) (c : W32) (b e : Word) : (s.setLoop n c b e).core = s.core := rfl
@[simp] theorem State.setLoop_cx (s : State) (n : Fin 2) (c : W32) (b e : Word) : (s.setLoop n c b e).cx = s.cx := rfl
@[simp] theorem State.setLoop_ths (s : State) (n : Fin 2) (c : W32) (b e : Word) : (s.setLoop n c b e).ths = s.ths := rfl
@[simp] theorem State.setLoop_bds (s : State) (n : Fin 2) (c : W32) (b e : Word) : (s.setLoop n c b e).bds = s.bds := rfl
@[simp] theorem State.setLoop_cores (s : State) (n : Fin 2) (c : W32) (b e : Word) : (s.setLoop n c b e).cores = s.cores := rfl
@[simp] theorem State.setLoop_cxs (s : State) (n : Fin 2) (c : W32) (b e : Word) : (s.setLoop n c b e).cxs = s.cxs := rfl
@[simp] theorem State.setLoop_mem (s : State) (n : Fin 2) (c : W32) (b e : Word) : (s.setLoop n c b e).mem = s.mem := rfl
@[simp] theorem State.setLoop_poison (s : State) (n : Fin 2) (c : W32) (b e : Word) : (s.setLoop n c b e).poison = s.poison := rfl
@[simp] theorem State.setLoop_host (s : State) (n : Fin 2) (c : W32) (b e : Word) : (s.setLoop n c b e).host = s.host := rfl
@[simp] theorem State.setLoop_reqs (s : State) (n : Fin 2) (c : W32) (b e : Word) : (s.setLoop n c b e).reqs = s.reqs := rfl
@[simp] theorem State.setLoop_pkts (s : State) (n : Fin 2) (c : W32) (b e : Word) : (s.setLoop n c b e).pkts = s.pkts := rfl
@[simp] theorem State.setLoop_groups (s : State) (n : Fin 2) (c : W32) (b e : Word) : (s.setLoop n c b e).groups = s.groups := rfl
@[simp] theorem State.setLoop_agenda (s : State) (n : Fin 2) (c : W32) (b e : Word) : (s.setLoop n c b e).agenda = s.agenda := rfl
@[simp] theorem State.setLoop_free (s : State) (n : Fin 2) (c : W32) (b e : Word) : (s.setLoop n c b e).free = s.free := rfl
@[simp] theorem State.setLoop_nextTag (s : State) (n : Fin 2) (c : W32) (b e : Word) : (s.setLoop n c b e).nextTag = s.nextTag := rfl
@[simp] theorem State.setLoop_iss (s : State) (n : Fin 2) (c : W32) (b e : Word) : (s.setLoop n c b e).iss = s.iss := rfl
@[simp] theorem State.setLoop_th_core (s : State) (n : Fin 2) (c : W32) (b e : Word) : (s.setLoop n c b e).th.core = s.th.core := rfl
@[simp] theorem State.setLoop_th_ctx (s : State) (n : Fin 2) (c : W32) (b e : Word) : (s.setLoop n c b e).th.ctx = s.th.ctx := rfl
@[simp] theorem State.setLoop_th_slot (s : State) (n : Fin 2) (c : W32) (b e : Word) : (s.setLoop n c b e).th.slot = s.th.slot := rfl
@[simp] theorem State.setLoop_th_task (s : State) (n : Fin 2) (c : W32) (b e : Word) : (s.setLoop n c b e).th.task = s.th.task := rfl
@[simp] theorem State.setLoop_th_eddy (s : State) (n : Fin 2) (c : W32) (b e : Word) : (s.setLoop n c b e).th.eddy = s.th.eddy := rfl
@[simp] theorem State.setLoop_th_pc (s : State) (n : Fin 2) (c : W32) (b e : Word) : (s.setLoop n c b e).th.pc = s.th.pc := rfl
@[simp] theorem State.setLoop_th_handler (s : State) (n : Fin 2) (c : W32) (b e : Word) : (s.setLoop n c b e).th.handler = s.th.handler := rfl
@[simp] theorem State.setLoop_th_exited (s : State) (n : Fin 2) (c : W32) (b e : Word) : (s.setLoop n c b e).th.exited = s.th.exited := rfl
@[simp] theorem State.setLoop_th_w (s : State) (n : Fin 2) (c : W32) (b e : Word) : (s.setLoop n c b e).th.w = s.th.w := rfl
@[simp] theorem State.setLoop_th_wbase (s : State) (n : Fin 2) (c : W32) (b e : Word) : (s.setLoop n c b e).th.wbase = s.th.wbase := rfl
@[simp] theorem State.setLoop_th_wvalid (s : State) (n : Fin 2) (c : W32) (b e : Word) : (s.setLoop n c b e).th.wvalid = s.th.wvalid := rfl
@[simp] theorem State.setLoop_th_wsp (s : State) (n : Fin 2) (c : W32) (b e : Word) : (s.setLoop n c b e).th.wsp = s.th.wsp := rfl
@[simp] theorem State.setLoop_th_g (s : State) (n : Fin 2) (c : W32) (b e : Word) : (s.setLoop n c b e).th.g = s.th.g := rfl
@[simp] theorem State.setLoop_th_v (s : State) (n : Fin 2) (c : W32) (b e : Word) : (s.setLoop n c b e).th.v = s.th.v := rfl
@[simp] theorem State.setLoop_th_m (s : State) (n : Fin 2) (c : W32) (b e : Word) : (s.setLoop n c b e).th.m = s.th.m := rfl
@[simp] theorem State.setLoop_th_p (s : State) (n : Fin 2) (c : W32) (b e : Word) : (s.setLoop n c b e).th.p = s.th.p := rfl
@[simp] theorem State.setLoop_th_q (s : State) (n : Fin 2) (c : W32) (b e : Word) : (s.setLoop n c b e).th.q = s.th.q := rfl
@[simp] theorem State.setLoop_th_k (s : State) (n : Fin 2) (c : W32) (b e : Word) : (s.setLoop n c b e).th.k = s.th.k := rfl
@[simp] theorem State.setLoop_th_flags (s : State) (n : Fin 2) (c : W32) (b e : Word) : (s.setLoop n c b e).th.flags = s.th.flags := rfl
@[simp] theorem State.setLoop_th_tsm (s : State) (n : Fin 2) (c : W32) (b e : Word) : (s.setLoop n c b e).th.tsm = s.th.tsm := rfl
@[simp] theorem State.setLoop_th_rsm (s : State) (n : Fin 2) (c : W32) (b e : Word) : (s.setLoop n c b e).th.rsm = s.th.rsm := rfl
@[simp] theorem State.setLoop_th_tepc (s : State) (n : Fin 2) (c : W32) (b e : Word) : (s.setLoop n c b e).th.tepc = s.th.tepc := rfl
@[simp] theorem State.setLoop_th_tcause (s : State) (n : Fin 2) (c : W32) (b e : Word) : (s.setLoop n c b e).th.tcause = s.th.tcause := rfl
@[simp] theorem State.setLoop_th_tval (s : State) (n : Fin 2) (c : W32) (b e : Word) : (s.setLoop n c b e).th.tval = s.th.tval := rfl
@[simp] theorem State.setLoop_th_tscratch (s : State) (n : Fin 2) (c : W32) (b e : Word) : (s.setLoop n c b e).th.tscratch = s.th.tscratch := rfl
@[simp] theorem State.setLoop_th_tvec (s : State) (n : Fin 2) (c : W32) (b e : Word) : (s.setLoop n c b e).th.tvec = s.th.tvec := rfl
@[simp] theorem State.setLoop_th_tstep (s : State) (n : Fin 2) (c : W32) (b e : Word) : (s.setLoop n c b e).th.tstep = s.th.tstep := rfl
@[simp] theorem State.setLoop_th_icount (s : State) (n : Fin 2) (c : W32) (b e : Word) : (s.setLoop n c b e).th.icount = s.th.icount := rfl
@[simp] theorem State.setLoop_th_wait (s : State) (n : Fin 2) (c : W32) (b e : Word) : (s.setLoop n c b e).th.wait = s.th.wait := rfl
@[simp] theorem State.setLoop_th_msgs (s : State) (n : Fin 2) (c : W32) (b e : Word) : (s.setLoop n c b e).th.msgs = s.th.msgs := rfl
@[simp] theorem State.setLoop_th_rngs (s : State) (n : Fin 2) (c : W32) (b e : Word) : (s.setLoop n c b e).th.rngs = s.th.rngs := rfl

/-! ### jump -/

@[simp] theorem State.jump_th (s : State) (p : Word) : (s.jump p).th = s.th := rfl
@[simp] theorem State.jump_bd (s : State) (p : Word) : (s.jump p).bd = s.bd := rfl
@[simp] theorem State.jump_core (s : State) (p : Word) : (s.jump p).core = s.core := rfl
@[simp] theorem State.jump_cx (s : State) (p : Word) : (s.jump p).cx = s.cx := rfl
@[simp] theorem State.jump_ths (s : State) (p : Word) : (s.jump p).ths = s.ths := rfl
@[simp] theorem State.jump_bds (s : State) (p : Word) : (s.jump p).bds = s.bds := rfl
@[simp] theorem State.jump_cores (s : State) (p : Word) : (s.jump p).cores = s.cores := rfl
@[simp] theorem State.jump_cxs (s : State) (p : Word) : (s.jump p).cxs = s.cxs := rfl
@[simp] theorem State.jump_mem (s : State) (p : Word) : (s.jump p).mem = s.mem := rfl
@[simp] theorem State.jump_poison (s : State) (p : Word) : (s.jump p).poison = s.poison := rfl
@[simp] theorem State.jump_host (s : State) (p : Word) : (s.jump p).host = s.host := rfl
@[simp] theorem State.jump_reqs (s : State) (p : Word) : (s.jump p).reqs = s.reqs := rfl
@[simp] theorem State.jump_pkts (s : State) (p : Word) : (s.jump p).pkts = s.pkts := rfl
@[simp] theorem State.jump_groups (s : State) (p : Word) : (s.jump p).groups = s.groups := rfl
@[simp] theorem State.jump_agenda (s : State) (p : Word) : (s.jump p).agenda = s.agenda := rfl
@[simp] theorem State.jump_free (s : State) (p : Word) : (s.jump p).free = s.free := rfl
@[simp] theorem State.jump_nextTag (s : State) (p : Word) : (s.jump p).nextTag = s.nextTag := rfl

/-! ### put -/

@[simp] theorem State.put_bd (s : State) (d : SDst) (v : Word) : (s.put d v).bd = s.bd := rfl
@[simp] theorem State.put_core (s : State) (d : SDst) (v : Word) : (s.put d v).core = s.core := rfl
@[simp] theorem State.put_cx (s : State) (d : SDst) (v : Word) : (s.put d v).cx = s.cx := rfl
@[simp] theorem State.put_ths (s : State) (d : SDst) (v : Word) : (s.put d v).ths = s.ths := rfl
@[simp] theorem State.put_bds (s : State) (d : SDst) (v : Word) : (s.put d v).bds = s.bds := rfl
@[simp] theorem State.put_cores (s : State) (d : SDst) (v : Word) : (s.put d v).cores = s.cores := rfl
@[simp] theorem State.put_cxs (s : State) (d : SDst) (v : Word) : (s.put d v).cxs = s.cxs := rfl
@[simp] theorem State.put_mem (s : State) (d : SDst) (v : Word) : (s.put d v).mem = s.mem := rfl
@[simp] theorem State.put_poison (s : State) (d : SDst) (v : Word) : (s.put d v).poison = s.poison := rfl
@[simp] theorem State.put_host (s : State) (d : SDst) (v : Word) : (s.put d v).host = s.host := rfl
@[simp] theorem State.put_reqs (s : State) (d : SDst) (v : Word) : (s.put d v).reqs = s.reqs := rfl
@[simp] theorem State.put_pkts (s : State) (d : SDst) (v : Word) : (s.put d v).pkts = s.pkts := rfl
@[simp] theorem State.put_groups (s : State) (d : SDst) (v : Word) : (s.put d v).groups = s.groups := rfl
@[simp] theorem State.put_agenda (s : State) (d : SDst) (v : Word) : (s.put d v).agenda = s.agenda := rfl
@[simp] theorem State.put_free (s : State) (d : SDst) (v : Word) : (s.put d v).free = s.free := rfl
@[simp] theorem State.put_nextTag (s : State) (d : SDst) (v : Word) : (s.put d v).nextTag = s.nextTag := rfl
@[simp] theorem State.put_iss (s : State) (d : SDst) (v : Word) : (s.put d v).iss = s.iss := rfl
@[simp] theorem State.put_th_core (s : State) (d : SDst) (v : Word) : (s.put d v).th.core = s.th.core := by cases d <;> rfl
@[simp] theorem State.put_th_ctx (s : State) (d : SDst) (v : Word) : (s.put d v).th.ctx = s.th.ctx := by cases d <;> rfl
@[simp] theorem State.put_th_slot (s : State) (d : SDst) (v : Word) : (s.put d v).th.slot = s.th.slot := by cases d <;> rfl
@[simp] theorem State.put_th_task (s : State) (d : SDst) (v : Word) : (s.put d v).th.task = s.th.task := by cases d <;> rfl
@[simp] theorem State.put_th_eddy (s : State) (d : SDst) (v : Word) : (s.put d v).th.eddy = s.th.eddy := by cases d <;> rfl
@[simp] theorem State.put_th_pc (s : State) (d : SDst) (v : Word) : (s.put d v).th.pc = s.th.pc := by cases d <;> rfl
@[simp] theorem State.put_th_handler (s : State) (d : SDst) (v : Word) : (s.put d v).th.handler = s.th.handler := by cases d <;> rfl
@[simp] theorem State.put_th_exited (s : State) (d : SDst) (v : Word) : (s.put d v).th.exited = s.th.exited := by cases d <;> rfl
@[simp] theorem State.put_th_wbase (s : State) (d : SDst) (v : Word) : (s.put d v).th.wbase = s.th.wbase := by cases d <;> rfl
@[simp] theorem State.put_th_wvalid (s : State) (d : SDst) (v : Word) : (s.put d v).th.wvalid = s.th.wvalid := by cases d <;> rfl
@[simp] theorem State.put_th_wsp (s : State) (d : SDst) (v : Word) : (s.put d v).th.wsp = s.th.wsp := by cases d <;> rfl
@[simp] theorem State.put_th_v (s : State) (d : SDst) (v : Word) : (s.put d v).th.v = s.th.v := by cases d <;> rfl
@[simp] theorem State.put_th_m (s : State) (d : SDst) (v : Word) : (s.put d v).th.m = s.th.m := by cases d <;> rfl
@[simp] theorem State.put_th_p (s : State) (d : SDst) (v : Word) : (s.put d v).th.p = s.th.p := by cases d <;> rfl
@[simp] theorem State.put_th_q (s : State) (d : SDst) (v : Word) : (s.put d v).th.q = s.th.q := by cases d <;> rfl
@[simp] theorem State.put_th_k (s : State) (d : SDst) (v : Word) : (s.put d v).th.k = s.th.k := by cases d <;> rfl
@[simp] theorem State.put_th_flags (s : State) (d : SDst) (v : Word) : (s.put d v).th.flags = s.th.flags := by cases d <;> rfl
@[simp] theorem State.put_th_tsm (s : State) (d : SDst) (v : Word) : (s.put d v).th.tsm = s.th.tsm := by cases d <;> rfl
@[simp] theorem State.put_th_rsm (s : State) (d : SDst) (v : Word) : (s.put d v).th.rsm = s.th.rsm := by cases d <;> rfl
@[simp] theorem State.put_th_tepc (s : State) (d : SDst) (v : Word) : (s.put d v).th.tepc = s.th.tepc := by cases d <;> rfl
@[simp] theorem State.put_th_tcause (s : State) (d : SDst) (v : Word) : (s.put d v).th.tcause = s.th.tcause := by cases d <;> rfl
@[simp] theorem State.put_th_tval (s : State) (d : SDst) (v : Word) : (s.put d v).th.tval = s.th.tval := by cases d <;> rfl
@[simp] theorem State.put_th_tscratch (s : State) (d : SDst) (v : Word) : (s.put d v).th.tscratch = s.th.tscratch := by cases d <;> rfl
@[simp] theorem State.put_th_tvec (s : State) (d : SDst) (v : Word) : (s.put d v).th.tvec = s.th.tvec := by cases d <;> rfl
@[simp] theorem State.put_th_tstep (s : State) (d : SDst) (v : Word) : (s.put d v).th.tstep = s.th.tstep := by cases d <;> rfl
@[simp] theorem State.put_th_icount (s : State) (d : SDst) (v : Word) : (s.put d v).th.icount = s.th.icount := by cases d <;> rfl
@[simp] theorem State.put_th_wait (s : State) (d : SDst) (v : Word) : (s.put d v).th.wait = s.th.wait := by cases d <;> rfl
@[simp] theorem State.put_th_msgs (s : State) (d : SDst) (v : Word) : (s.put d v).th.msgs = s.th.msgs := by cases d <;> rfl
@[simp] theorem State.put_th_rngs (s : State) (d : SDst) (v : Word) : (s.put d v).th.rngs = s.th.rngs := by cases d <;> rfl

/-! ### setP -/

@[simp] theorem State.setP_bd (s : State) (n : Fin 8) (b : Bool) : (s.setP n b).bd = s.bd := by unfold State.setP; split <;> rfl
@[simp] theorem State.setP_core (s : State) (n : Fin 8) (b : Bool) : (s.setP n b).core = s.core := by unfold State.setP; split <;> rfl
@[simp] theorem State.setP_cx (s : State) (n : Fin 8) (b : Bool) : (s.setP n b).cx = s.cx := by unfold State.setP; split <;> rfl
@[simp] theorem State.setP_ths (s : State) (n : Fin 8) (b : Bool) : (s.setP n b).ths = s.ths := by unfold State.setP; split <;> rfl
@[simp] theorem State.setP_bds (s : State) (n : Fin 8) (b : Bool) : (s.setP n b).bds = s.bds := by unfold State.setP; split <;> rfl
@[simp] theorem State.setP_cores (s : State) (n : Fin 8) (b : Bool) : (s.setP n b).cores = s.cores := by unfold State.setP; split <;> rfl
@[simp] theorem State.setP_cxs (s : State) (n : Fin 8) (b : Bool) : (s.setP n b).cxs = s.cxs := by unfold State.setP; split <;> rfl
@[simp] theorem State.setP_mem (s : State) (n : Fin 8) (b : Bool) : (s.setP n b).mem = s.mem := by unfold State.setP; split <;> rfl
@[simp] theorem State.setP_poison (s : State) (n : Fin 8) (b : Bool) : (s.setP n b).poison = s.poison := by unfold State.setP; split <;> rfl
@[simp] theorem State.setP_host (s : State) (n : Fin 8) (b : Bool) : (s.setP n b).host = s.host := by unfold State.setP; split <;> rfl
@[simp] theorem State.setP_reqs (s : State) (n : Fin 8) (b : Bool) : (s.setP n b).reqs = s.reqs := by unfold State.setP; split <;> rfl
@[simp] theorem State.setP_pkts (s : State) (n : Fin 8) (b : Bool) : (s.setP n b).pkts = s.pkts := by unfold State.setP; split <;> rfl
@[simp] theorem State.setP_groups (s : State) (n : Fin 8) (b : Bool) : (s.setP n b).groups = s.groups := by unfold State.setP; split <;> rfl
@[simp] theorem State.setP_agenda (s : State) (n : Fin 8) (b : Bool) : (s.setP n b).agenda = s.agenda := by unfold State.setP; split <;> rfl
@[simp] theorem State.setP_free (s : State) (n : Fin 8) (b : Bool) : (s.setP n b).free = s.free := by unfold State.setP; split <;> rfl
@[simp] theorem State.setP_nextTag (s : State) (n : Fin 8) (b : Bool) : (s.setP n b).nextTag = s.nextTag := by unfold State.setP; split <;> rfl
@[simp] theorem State.setP_iss (s : State) (n : Fin 8) (b : Bool) : (s.setP n b).iss = s.iss := by unfold State.setP; split <;> rfl
@[simp] theorem State.setP_th_core (s : State) (n : Fin 8) (b : Bool) : (s.setP n b).th.core = s.th.core := by unfold State.setP; split <;> rfl
@[simp] theorem State.setP_th_ctx (s : State) (n : Fin 8) (b : Bool) : (s.setP n b).th.ctx = s.th.ctx := by unfold State.setP; split <;> rfl
@[simp] theorem State.setP_th_slot (s : State) (n : Fin 8) (b : Bool) : (s.setP n b).th.slot = s.th.slot := by unfold State.setP; split <;> rfl
@[simp] theorem State.setP_th_task (s : State) (n : Fin 8) (b : Bool) : (s.setP n b).th.task = s.th.task := by unfold State.setP; split <;> rfl
@[simp] theorem State.setP_th_eddy (s : State) (n : Fin 8) (b : Bool) : (s.setP n b).th.eddy = s.th.eddy := by unfold State.setP; split <;> rfl
@[simp] theorem State.setP_th_pc (s : State) (n : Fin 8) (b : Bool) : (s.setP n b).th.pc = s.th.pc := by unfold State.setP; split <;> rfl
@[simp] theorem State.setP_th_handler (s : State) (n : Fin 8) (b : Bool) : (s.setP n b).th.handler = s.th.handler := by unfold State.setP; split <;> rfl
@[simp] theorem State.setP_th_exited (s : State) (n : Fin 8) (b : Bool) : (s.setP n b).th.exited = s.th.exited := by unfold State.setP; split <;> rfl
@[simp] theorem State.setP_th_w (s : State) (n : Fin 8) (b : Bool) : (s.setP n b).th.w = s.th.w := by unfold State.setP; split <;> rfl
@[simp] theorem State.setP_th_wbase (s : State) (n : Fin 8) (b : Bool) : (s.setP n b).th.wbase = s.th.wbase := by unfold State.setP; split <;> rfl
@[simp] theorem State.setP_th_wvalid (s : State) (n : Fin 8) (b : Bool) : (s.setP n b).th.wvalid = s.th.wvalid := by unfold State.setP; split <;> rfl
@[simp] theorem State.setP_th_wsp (s : State) (n : Fin 8) (b : Bool) : (s.setP n b).th.wsp = s.th.wsp := by unfold State.setP; split <;> rfl
@[simp] theorem State.setP_th_g (s : State) (n : Fin 8) (b : Bool) : (s.setP n b).th.g = s.th.g := by unfold State.setP; split <;> rfl
@[simp] theorem State.setP_th_lc (s : State) (n : Fin 8) (b : Bool) : (s.setP n b).th.lc = s.th.lc := by unfold State.setP; split <;> rfl
@[simp] theorem State.setP_th_v (s : State) (n : Fin 8) (b : Bool) : (s.setP n b).th.v = s.th.v := by unfold State.setP; split <;> rfl
@[simp] theorem State.setP_th_m (s : State) (n : Fin 8) (b : Bool) : (s.setP n b).th.m = s.th.m := by unfold State.setP; split <;> rfl
@[simp] theorem State.setP_th_q (s : State) (n : Fin 8) (b : Bool) : (s.setP n b).th.q = s.th.q := by unfold State.setP; split <;> rfl
@[simp] theorem State.setP_th_k (s : State) (n : Fin 8) (b : Bool) : (s.setP n b).th.k = s.th.k := by unfold State.setP; split <;> rfl
@[simp] theorem State.setP_th_flags (s : State) (n : Fin 8) (b : Bool) : (s.setP n b).th.flags = s.th.flags := by unfold State.setP; split <;> rfl
@[simp] theorem State.setP_th_tsm (s : State) (n : Fin 8) (b : Bool) : (s.setP n b).th.tsm = s.th.tsm := by unfold State.setP; split <;> rfl
@[simp] theorem State.setP_th_rsm (s : State) (n : Fin 8) (b : Bool) : (s.setP n b).th.rsm = s.th.rsm := by unfold State.setP; split <;> rfl
@[simp] theorem State.setP_th_tepc (s : State) (n : Fin 8) (b : Bool) : (s.setP n b).th.tepc = s.th.tepc := by unfold State.setP; split <;> rfl
@[simp] theorem State.setP_th_tcause (s : State) (n : Fin 8) (b : Bool) : (s.setP n b).th.tcause = s.th.tcause := by unfold State.setP; split <;> rfl
@[simp] theorem State.setP_th_tval (s : State) (n : Fin 8) (b : Bool) : (s.setP n b).th.tval = s.th.tval := by unfold State.setP; split <;> rfl
@[simp] theorem State.setP_th_tscratch (s : State) (n : Fin 8) (b : Bool) : (s.setP n b).th.tscratch = s.th.tscratch := by unfold State.setP; split <;> rfl
@[simp] theorem State.setP_th_tvec (s : State) (n : Fin 8) (b : Bool) : (s.setP n b).th.tvec = s.th.tvec := by unfold State.setP; split <;> rfl
@[simp] theorem State.setP_th_tstep (s : State) (n : Fin 8) (b : Bool) : (s.setP n b).th.tstep = s.th.tstep := by unfold State.setP; split <;> rfl
@[simp] theorem State.setP_th_icount (s : State) (n : Fin 8) (b : Bool) : (s.setP n b).th.icount = s.th.icount := by unfold State.setP; split <;> rfl
@[simp] theorem State.setP_th_wait (s : State) (n : Fin 8) (b : Bool) : (s.setP n b).th.wait = s.th.wait := by unfold State.setP; split <;> rfl
@[simp] theorem State.setP_th_msgs (s : State) (n : Fin 8) (b : Bool) : (s.setP n b).th.msgs = s.th.msgs := by unfold State.setP; split <;> rfl
@[simp] theorem State.setP_th_rngs (s : State) (n : Fin 8) (b : Bool) : (s.setP n b).th.rngs = s.th.rngs := by unfold State.setP; split <;> rfl

/-! ### joinAll -/

@[simp] theorem State.joinAll_bd (s : State) (l : List (BitVec 8)) : (s.joinAll l).bd = s.bd := rfl
@[simp] theorem State.joinAll_core (s : State) (l : List (BitVec 8)) : (s.joinAll l).core = s.core := rfl
@[simp] theorem State.joinAll_cx (s : State) (l : List (BitVec 8)) : (s.joinAll l).cx = s.cx := rfl
@[simp] theorem State.joinAll_ths (s : State) (l : List (BitVec 8)) : (s.joinAll l).ths = s.ths := rfl
@[simp] theorem State.joinAll_bds (s : State) (l : List (BitVec 8)) : (s.joinAll l).bds = s.bds := rfl
@[simp] theorem State.joinAll_cores (s : State) (l : List (BitVec 8)) : (s.joinAll l).cores = s.cores := rfl
@[simp] theorem State.joinAll_cxs (s : State) (l : List (BitVec 8)) : (s.joinAll l).cxs = s.cxs := rfl
@[simp] theorem State.joinAll_mem (s : State) (l : List (BitVec 8)) : (s.joinAll l).mem = s.mem := rfl
@[simp] theorem State.joinAll_poison (s : State) (l : List (BitVec 8)) : (s.joinAll l).poison = s.poison := rfl
@[simp] theorem State.joinAll_host (s : State) (l : List (BitVec 8)) : (s.joinAll l).host = s.host := rfl
@[simp] theorem State.joinAll_reqs (s : State) (l : List (BitVec 8)) : (s.joinAll l).reqs = s.reqs := rfl
@[simp] theorem State.joinAll_pkts (s : State) (l : List (BitVec 8)) : (s.joinAll l).pkts = s.pkts := rfl
@[simp] theorem State.joinAll_groups (s : State) (l : List (BitVec 8)) : (s.joinAll l).groups = s.groups := rfl
@[simp] theorem State.joinAll_agenda (s : State) (l : List (BitVec 8)) : (s.joinAll l).agenda = s.agenda := rfl
@[simp] theorem State.joinAll_free (s : State) (l : List (BitVec 8)) : (s.joinAll l).free = s.free := rfl
@[simp] theorem State.joinAll_nextTag (s : State) (l : List (BitVec 8)) : (s.joinAll l).nextTag = s.nextTag := rfl
@[simp] theorem State.joinAll_iss (s : State) (l : List (BitVec 8)) : (s.joinAll l).iss = s.iss := rfl

/-! ### putInt -/

@[simp] theorem State.putInt_bd (t : Ty) (d : SDst) (r : Nat × Fl) (s : State) : (s.putInt t d r).bd = s.bd := rfl
@[simp] theorem State.putInt_core (t : Ty) (d : SDst) (r : Nat × Fl) (s : State) : (s.putInt t d r).core = s.core := rfl
@[simp] theorem State.putInt_cx (t : Ty) (d : SDst) (r : Nat × Fl) (s : State) : (s.putInt t d r).cx = s.cx := rfl
@[simp] theorem State.putInt_ths (t : Ty) (d : SDst) (r : Nat × Fl) (s : State) : (s.putInt t d r).ths = s.ths := rfl
@[simp] theorem State.putInt_bds (t : Ty) (d : SDst) (r : Nat × Fl) (s : State) : (s.putInt t d r).bds = s.bds := rfl
@[simp] theorem State.putInt_cores (t : Ty) (d : SDst) (r : Nat × Fl) (s : State) : (s.putInt t d r).cores = s.cores := rfl
@[simp] theorem State.putInt_cxs (t : Ty) (d : SDst) (r : Nat × Fl) (s : State) : (s.putInt t d r).cxs = s.cxs := rfl
@[simp] theorem State.putInt_mem (t : Ty) (d : SDst) (r : Nat × Fl) (s : State) : (s.putInt t d r).mem = s.mem := rfl
@[simp] theorem State.putInt_poison (t : Ty) (d : SDst) (r : Nat × Fl) (s : State) : (s.putInt t d r).poison = s.poison := rfl
@[simp] theorem State.putInt_host (t : Ty) (d : SDst) (r : Nat × Fl) (s : State) : (s.putInt t d r).host = s.host := rfl
@[simp] theorem State.putInt_reqs (t : Ty) (d : SDst) (r : Nat × Fl) (s : State) : (s.putInt t d r).reqs = s.reqs := rfl
@[simp] theorem State.putInt_pkts (t : Ty) (d : SDst) (r : Nat × Fl) (s : State) : (s.putInt t d r).pkts = s.pkts := rfl
@[simp] theorem State.putInt_groups (t : Ty) (d : SDst) (r : Nat × Fl) (s : State) : (s.putInt t d r).groups = s.groups := rfl
@[simp] theorem State.putInt_agenda (t : Ty) (d : SDst) (r : Nat × Fl) (s : State) : (s.putInt t d r).agenda = s.agenda := rfl
@[simp] theorem State.putInt_free (t : Ty) (d : SDst) (r : Nat × Fl) (s : State) : (s.putInt t d r).free = s.free := rfl
@[simp] theorem State.putInt_nextTag (t : Ty) (d : SDst) (r : Nat × Fl) (s : State) : (s.putInt t d r).nextTag = s.nextTag := rfl
@[simp] theorem State.putInt_iss (t : Ty) (d : SDst) (r : Nat × Fl) (s : State) : (s.putInt t d r).iss = s.iss := rfl
@[simp] theorem State.putInt_th_core (t : Ty) (d : SDst) (r : Nat × Fl) (s : State) : (s.putInt t d r).th.core = s.th.core := by cases d <;> rfl
@[simp] theorem State.putInt_th_ctx (t : Ty) (d : SDst) (r : Nat × Fl) (s : State) : (s.putInt t d r).th.ctx = s.th.ctx := by cases d <;> rfl
@[simp] theorem State.putInt_th_slot (t : Ty) (d : SDst) (r : Nat × Fl) (s : State) : (s.putInt t d r).th.slot = s.th.slot := by cases d <;> rfl
@[simp] theorem State.putInt_th_task (t : Ty) (d : SDst) (r : Nat × Fl) (s : State) : (s.putInt t d r).th.task = s.th.task := by cases d <;> rfl
@[simp] theorem State.putInt_th_eddy (t : Ty) (d : SDst) (r : Nat × Fl) (s : State) : (s.putInt t d r).th.eddy = s.th.eddy := by cases d <;> rfl
@[simp] theorem State.putInt_th_pc (t : Ty) (d : SDst) (r : Nat × Fl) (s : State) : (s.putInt t d r).th.pc = s.th.pc := by cases d <;> rfl
@[simp] theorem State.putInt_th_handler (t : Ty) (d : SDst) (r : Nat × Fl) (s : State) : (s.putInt t d r).th.handler = s.th.handler := by cases d <;> rfl
@[simp] theorem State.putInt_th_exited (t : Ty) (d : SDst) (r : Nat × Fl) (s : State) : (s.putInt t d r).th.exited = s.th.exited := by cases d <;> rfl
@[simp] theorem State.putInt_th_wbase (t : Ty) (d : SDst) (r : Nat × Fl) (s : State) : (s.putInt t d r).th.wbase = s.th.wbase := by cases d <;> rfl
@[simp] theorem State.putInt_th_wvalid (t : Ty) (d : SDst) (r : Nat × Fl) (s : State) : (s.putInt t d r).th.wvalid = s.th.wvalid := by cases d <;> rfl
@[simp] theorem State.putInt_th_wsp (t : Ty) (d : SDst) (r : Nat × Fl) (s : State) : (s.putInt t d r).th.wsp = s.th.wsp := by cases d <;> rfl
@[simp] theorem State.putInt_th_v (t : Ty) (d : SDst) (r : Nat × Fl) (s : State) : (s.putInt t d r).th.v = s.th.v := by cases d <;> rfl
@[simp] theorem State.putInt_th_m (t : Ty) (d : SDst) (r : Nat × Fl) (s : State) : (s.putInt t d r).th.m = s.th.m := by cases d <;> rfl
@[simp] theorem State.putInt_th_p (t : Ty) (d : SDst) (r : Nat × Fl) (s : State) : (s.putInt t d r).th.p = s.th.p := by cases d <;> rfl
@[simp] theorem State.putInt_th_q (t : Ty) (d : SDst) (r : Nat × Fl) (s : State) : (s.putInt t d r).th.q = s.th.q := by cases d <;> rfl
@[simp] theorem State.putInt_th_k (t : Ty) (d : SDst) (r : Nat × Fl) (s : State) : (s.putInt t d r).th.k = s.th.k := by cases d <;> rfl
@[simp] theorem State.putInt_th_tsm (t : Ty) (d : SDst) (r : Nat × Fl) (s : State) : (s.putInt t d r).th.tsm = s.th.tsm := by cases d <;> rfl
@[simp] theorem State.putInt_th_rsm (t : Ty) (d : SDst) (r : Nat × Fl) (s : State) : (s.putInt t d r).th.rsm = s.th.rsm := by cases d <;> rfl
@[simp] theorem State.putInt_th_tepc (t : Ty) (d : SDst) (r : Nat × Fl) (s : State) : (s.putInt t d r).th.tepc = s.th.tepc := by cases d <;> rfl
@[simp] theorem State.putInt_th_tcause (t : Ty) (d : SDst) (r : Nat × Fl) (s : State) : (s.putInt t d r).th.tcause = s.th.tcause := by cases d <;> rfl
@[simp] theorem State.putInt_th_tval (t : Ty) (d : SDst) (r : Nat × Fl) (s : State) : (s.putInt t d r).th.tval = s.th.tval := by cases d <;> rfl
@[simp] theorem State.putInt_th_tscratch (t : Ty) (d : SDst) (r : Nat × Fl) (s : State) : (s.putInt t d r).th.tscratch = s.th.tscratch := by cases d <;> rfl
@[simp] theorem State.putInt_th_tvec (t : Ty) (d : SDst) (r : Nat × Fl) (s : State) : (s.putInt t d r).th.tvec = s.th.tvec := by cases d <;> rfl
@[simp] theorem State.putInt_th_tstep (t : Ty) (d : SDst) (r : Nat × Fl) (s : State) : (s.putInt t d r).th.tstep = s.th.tstep := by cases d <;> rfl
@[simp] theorem State.putInt_th_icount (t : Ty) (d : SDst) (r : Nat × Fl) (s : State) : (s.putInt t d r).th.icount = s.th.icount := by cases d <;> rfl
@[simp] theorem State.putInt_th_wait (t : Ty) (d : SDst) (r : Nat × Fl) (s : State) : (s.putInt t d r).th.wait = s.th.wait := by cases d <;> rfl
@[simp] theorem State.putInt_th_msgs (t : Ty) (d : SDst) (r : Nat × Fl) (s : State) : (s.putInt t d r).th.msgs = s.th.msgs := by cases d <;> rfl
@[simp] theorem State.putInt_th_rngs (t : Ty) (d : SDst) (r : Nat × Fl) (s : State) : (s.putInt t d r).th.rngs = s.th.rngs := by cases d <;> rfl

@[simp] theorem State.flag_th_flags (s : State) (f : Fl) : (s.flag f).th.flags = s.th.flags ||| f := rfl
@[simp] theorem State.setV_th_v (s : State) (n : Fin 64) (v : VWord) : (s.setV n v).th.v = s.th.v.set n v := rfl
@[simp] theorem State.setM_th_m (s : State) (n : Fin 8) (v : MWord) : (s.setM n v).th.m = s.th.m.set n v := rfl
@[simp] theorem State.setPort_th_q (s : State) (q : Fin 8) (p : Option Port) : (s.setPort q p).th.q = s.th.q.set q p := rfl
@[simp] theorem State.jump_target (s : State) (p : Word) : (s.jump p).iss.target = some p := rfl
@[simp] theorem State.jump_mode (s : State) (p : Word) : (s.jump p).iss.mode = s.iss.mode := rfl
@[simp] theorem State.jump_res (s : State) (p : Word) : (s.jump p).iss.res = s.iss.res := rfl

end Sys2Proof.Machine
end

