-- ==== Sys2Proof/Laws/Ops.lean ====
section
/-! SUPPORT. What each shared operation can do, once: beginning and ending a meaning, and the accesses, which never touch the issue
unit in progress. -/
namespace Sys2Proof.Machine
open Sys2Proof

/-- What a sequence that ends well has passed through. -/
theorem Stop.passed {α β : Type} {x : Except Stop α} {f : α → Except Stop β} {y : β} (h : (x >>= f) = .ok y) :
    ∃ a, x = .ok a ∧ f a = .ok y := by
  rcases x with e | a
  · exact nomatch h
  · exact ⟨a, rfl, h⟩

/-- A step that keeps a part of the state keeps it through a list. -/
theorem foldl_keeps {α β : Type} {γ : Type} (p : β → γ) (f : β → α → β) (h : ∀ b a, p (f b a) = p b) (l : List α) (b : β) :
    p (l.foldl f b) = p b := by
  induction l generalizing b with
  | nil => rfl
  | cons a l ih => rw [List.foldl_cons, ih, h]

/-! ### Observing operands -/

/-- Observing operands of the vector half that a lee lends wakes its banks; of everything else, nothing changes. -/
theorem State.wakeRegs_frame (s : State) (l : List (BitVec 8)) :
    s.wakeRegs l = { s with core := { s.core with banks := (s.wakeRegs l).core.banks } } := by
  unfold State.wakeRegs Core.wakeBank; split
  · split
    · split <;> rfl
    · rfl
  · rfl

@[simp] theorem State.wakeRegs_th (s : State) (l : List (BitVec 8)) : (s.wakeRegs l).th = s.th := by rw [State.wakeRegs_frame]
@[simp] theorem State.joined_iss (s : State) (l : List (BitVec 8)) : (s.joined l).iss = s.iss := by
  unfold State.joined; rw [State.wakeRegs_frame]; rfl
@[simp] theorem State.joined_th (s : State) (l : List (BitVec 8)) : (s.joined l).th = l.foldl Thread.join s.th := by
  unfold State.joined; rw [State.wakeRegs_th]; rfl

/-- Operands outside v32 to v63 wake nothing. -/
theorem State.wakeRegs_low {s : State} {l : List (BitVec 8)} (h : ∀ sp ∈ l, sp.toNat < 0x60 ∨ 0x80 ≤ sp.toNat) : s.wakeRegs l = s := by
  have : (l.any fun sp => 0x60 ≤ sp.toNat && sp.toNat < 0x80) = false := by
    rw [List.any_eq_false]; intro sp hs; have := h sp hs; simp; omega
  unfold State.wakeRegs; split
  · rw [this]; rfl
  · rfl

theorem State.joined_low {s : State} {l : List (BitVec 8)} (h : ∀ sp ∈ l, sp.toNat < 0x60 ∨ 0x80 ≤ sp.toNat) :
    s.joined l = s.joinAll l := State.wakeRegs_low h

/-! ### Beginning and ending a meaning -/

theorem State.begin_ok {s : State} {ds ss : List (BitVec 8)}
    (hp : s.present (ds.map (fun d => (true, d)) ++ ss.map fun a => (false, a)) = .ok ()) (hs : s.settled (ds ++ ss) = true) :
    s.begin ds ss = .ok (s.joined (ds ++ ss)) := by simp only [State.begin, hp, hs]; rfl

theorem State.begin_block {s : State} {ds ss : List (BitVec 8)}
    (hp : s.present (ds.map (fun d => (true, d)) ++ ss.map fun a => (false, a)) = .ok ()) (hs : s.settled (ds ++ ss) = false) :
    s.begin ds ss = .error .block := by simp only [State.begin, hp, hs]; rfl

theorem State.begin_absent {s : State} {ds ss : List (BitVec 8)} {e : Stop}
    (hp : s.present (ds.map (fun d => (true, d)) ++ ss.map fun a => (false, a)) = .error e) :
    s.begin ds ss = .error e := by simp only [State.begin, hp]; rfl

theorem State.begin_inv {s u : State} {ds ss : List (BitVec 8)} (h : s.begin ds ss = .ok u) :
    s.present (ds.map (fun d => (true, d)) ++ ss.map fun a => (false, a)) = .ok () ∧ s.settled (ds ++ ss) = true ∧
      u = s.joined (ds ++ ss) := by
  obtain ⟨⟨⟩, hp, h⟩ := Stop.passed h
  split at h
  · next hs => exact ⟨hp, hs, (Except.ok.inj h).symm⟩
  · exact nomatch h

theorem State.noEddy_ok {s : State} (h : s.th.eddy = none) (op : Nat) : s.noEddy op = .ok () := by simp [State.noEddy, h]

theorem State.beginTh_ok {s : State} {op : Nat} {ds ss : List (BitVec 8)}
    (hp : s.present (ds.map (fun d => (true, d)) ++ ss.map fun a => (false, a)) = .ok ()) (he : s.th.eddy = none)
    (hs : s.settled (ds ++ ss) = true) : s.beginTh op ds ss = .ok (s.joined (ds ++ ss)) := by
  simp only [State.beginTh, hp, State.noEddy_ok he, State.begin_ok hp hs]; rfl

theorem State.finish_ok {s u : State} (hm : s.iss.mode = .single) (hr : u.iss.res = .done) :
    s.finish (.ok u) = .next u.retire := by simp [State.finish, hm, hr]

theorem State.finish_parked {s u : State} (hm : s.iss.mode = .single) (hr : u.iss.res = .parked) :
    s.finish (.ok u) = .next u := by simp [State.finish, hm, hr]

theorem State.finish_stop {s : State} (hm : s.iss.mode = .single) (e : Stop) :
    s.finish (.error e) = .next (s.stopped e) := by simp [State.finish, hm]

/-- A meaning never faults and is never refused. -/
theorem State.finish_next (s : State) (r : Except Stop State) : ∃ t, s.finish r = .next t := by
  unfold State.finish; split <;> exact ⟨_, rfl⟩

theorem State.alu_ok {s : State} {ds ss : List (BitVec 8)} {f : State → State} (hm : s.iss.mode = .single)
    (hp : s.present (ds.map (fun d => (true, d)) ++ ss.map fun a => (false, a)) = .ok ()) (hs : s.settled (ds ++ ss) = true)
    (hr : (f (s.joined (ds ++ ss))).iss.res = .done) :
    s.alu ds ss f = .next (f (s.joined (ds ++ ss))).retire := by
  unfold State.alu; rw [State.begin_ok hp hs]; exact State.finish_ok hm hr

theorem State.vec_ok {s u : State} {n : Nat} {ds ss : List (BitVec 8)} {f : State → Except Stop State} (hm : s.iss.mode = .single)
    (hp : s.present (ds.map (fun d => (true, d)) ++ ss.map fun a => (false, a)) = .ok ()) (hs : s.settled (ds ++ ss) = true)
    (hf : f (s.joined (ds ++ ss)) = .ok u) (hr : u.iss.res = .done) :
    s.vec n ds ss f = .next (u.hold n).retire := by
  have : (do let j ← s.begin ds ss; let v ← f j; .ok (v.hold n)) = (.ok (u.hold n) : Except Stop State) := by
    rw [State.begin_ok hp hs]; exact congrArg (· >>= fun v => Except.ok (v.hold n)) hf
  exact (congrArg s.finish this).trans (State.finish_ok hm hr)

theorem State.vec_stop {s : State} {n : Nat} {ds ss : List (BitVec 8)} {f : State → Except Stop State} {e : Stop}
    (hm : s.iss.mode = .single)
    (hp : s.present (ds.map (fun d => (true, d)) ++ ss.map fun a => (false, a)) = .ok ()) (hs : s.settled (ds ++ ss) = true)
    (hf : f (s.joined (ds ++ ss)) = .error e) : s.vec n ds ss f = .next (s.stopped e) := by
  have : (do let j ← s.begin ds ss; let v ← f j; .ok (v.hold n)) = (.error e : Except Stop State) := by
    rw [State.begin_ok hp hs]; exact congrArg (· >>= fun v => Except.ok (v.hold n)) hf
  exact (congrArg s.finish this).trans (State.finish_stop hm e)

/-! ### What an access leaves in the home slices -/

/-- A line's write-back changes what its tier holds, the tree over it, and, where its counter is full, its poison. -/
theorem State.writeBack_frame (s : State) (a : Nat) : s.writeBack a = { s with
    poison := (s.writeBack a).poison, tier := (s.writeBack a).tier, tnodes := (s.writeBack a).tnodes } := by
  unfold State.writeBack State.setNode; dsimp only; split <;> rfl

theorem State.evictLine_frame (s : State) (a : Nat) : s.evictLine a = { s with
    lines := (s.evictLine a).lines, poison := (s.evictLine a).poison, tier := (s.evictLine a).tier
    tnodes := (s.evictLine a).tnodes } := by
  unfold State.evictLine; split
  · rfl
  · dsimp only; split
    · rw [State.writeBack_frame]
    · rfl

/-- A touch of a line changes nothing but the lines that the slices and the tiers hold, and the tree over them. -/
theorem State.touchLine_frame (w : Bool) (a : Nat) (s : State) : s.touchLine w a = { s with
    lines := (s.touchLine w a).lines, poison := (s.touchLine w a).poison, tier := (s.touchLine w a).tier
    tnodes := (s.touchLine w a).tnodes } := by
  unfold State.touchLine; dsimp only; split
  · rfl
  · split
    · rfl
    · split
      · split
        · rw [State.evictLine_frame]
        · rfl
      · rfl

@[simp] theorem State.touchLine_iss (w : Bool) (a : Nat) (s : State) : (s.touchLine w a).iss = s.iss := by rw [State.touchLine_frame]
@[simp] theorem State.touchLine_mem (w : Bool) (a : Nat) (s : State) : (s.touchLine w a).mem = s.mem := by rw [State.touchLine_frame]
@[simp] theorem State.touchLine_host (w : Bool) (a : Nat) (s : State) : (s.touchLine w a).host = s.host := by rw [State.touchLine_frame]
@[simp] theorem State.touchLine_core (w : Bool) (a : Nat) (s : State) : (s.touchLine w a).core = s.core := by rw [State.touchLine_frame]
@[simp] theorem State.touchLine_reqs (w : Bool) (a : Nat) (s : State) : (s.touchLine w a).reqs = s.reqs := by rw [State.touchLine_frame]

@[simp] theorem State.touchLines_iss (w : Bool) (a n : Nat) (s : State) : (s.touchLines w a n).iss = s.iss :=
  foldl_keeps State.iss _ (fun b _ => State.touchLine_iss w _ b) _ s

/-! ### Accesses leave the issue unit alone -/

@[simp] theorem State.applied_iss (c : Fin 6) (a : Nat) (s : State) : (s.applied c a).iss = s.iss := State.touchLine_iss ..

@[simp] theorem State.perform_iss (s : State) (k : Fin 6) (c : List (Nat × Byte × Byte)) : (s.perform k c).iss = s.iss :=
  foldl_keeps State.iss _ (fun b a => State.applied_iss k a b) _ _

@[simp] theorem State.spoiled_iss (r : Req) (s : State) : (s.spoiled r).iss = s.iss := by unfold State.spoiled; split <;> rfl

@[simp] theorem State.performReq_iss (s : State) (r : Req) : (s.performReq r).iss = s.iss := by
  unfold State.performReq
  split
  · dsimp only; split <;> simp
  · unfold State.performAmo; dsimp only; split <;> simp
  · rfl

@[simp] theorem State.flush_iss (s : State) : s.flush.iss = s.iss := by
  unfold State.flush
  exact foldl_keeps State.iss State.performReq State.performReq_iss _ _

@[simp] theorem State.record_iss (s : State) (k a : Nat) (d : List Byte) : (s.record k a d).iss = s.iss := by
  unfold State.record; split
  · split <;> rfl
  · split <;> rfl

@[simp] theorem State.output_iss (s : State) (a : Nat) (d : List Byte) : (s.output a d).iss = s.iss := by
  unfold State.output; dsimp only; split
  · rfl
  · exact State.record_iss ..

@[simp] theorem State.store_iss (s : State) (w : Bool) (c : List (Nat × Byte × Byte)) (r : Bool) (sc : Scope) (p : Option Nat) :
    (s.store w c r sc p).iss = s.iss := by
  unfold State.store; split
  · dsimp only; split <;> simp
  · dsimp only; split <;> simp

@[simp] theorem State.noteWrite_iss (s : State) (l : List Nat) : (s.noteWrite l).iss = s.iss := rfl

@[simp] theorem State.noteRead_iss (s : State) (p : Spot) (n : Nat) : (s.noteRead p n).iss = s.iss := by
  unfold State.noteRead; split
  · rfl
  · split
    · exact State.record_iss ..
    · exact State.touchLines_iss ..

@[simp] theorem State.noteReads_iss (s : State) (l : List (Nat × Elem)) : (s.noteReads l).iss = s.iss :=
  foldl_keeps State.iss _ (fun b _ => State.noteRead_iss b _ _) l s

theorem State.storeElems_iss {s u : State} {t : Ty} {rnd : Rnd} {sat : Bool} {sc : Scope} {rel : Bool} {port : Option Nat}
    {l : List (Elem × Nat)} (h : s.storeElems t rnd sat sc rel port l = .ok u) : u.iss = s.iss := by
  obtain ⟨fl, -, h⟩ := Stop.passed h
  rw [← Except.ok.inj h]
  simp only [State.flag_iss, State.noteWrite_iss]
  split <;> split <;> simp

theorem State.pop_iss {s : State} {q : Fin 8} {t : Ty} {n : Nat} {act : Nat → Bool} {r : State × List Nat}
    (h : s.pop q t n act = .ok r) : r.1.iss = s.iss := by
  obtain ⟨p, -, h⟩ := Stop.passed h
  obtain ⟨es, -, h⟩ := Stop.passed h
  rw [← Except.ok.inj h]; simp

theorem State.append_iss {s u : State} {q : Fin 8} {t : Ty} {l : List Nat} (h : s.append q t l = .ok u) : u.iss = s.iss := by
  obtain ⟨p, -, h⟩ := Stop.passed h
  obtain ⟨es, -, h⟩ := Stop.passed h
  obtain ⟨v, hv, h⟩ := Stop.passed h
  rw [← Except.ok.inj h]; exact (State.storeElems_iss hv :)

theorem State.vsrc_iss {s : State} {seen : List (Fin 8 × List Nat)} {t : Ty} {n : Nat} {act : Nat → Bool} {a : VSrc}
    {r : State × List (Fin 8 × List Nat) × List Nat} (h : s.vsrc seen t n act a = .ok r) : r.1.iss = s.iss := by
  unfold State.vsrc at h
  split at h
  · rw [← Except.ok.inj h]
  · rw [← Except.ok.inj h]
  · split at h
    · rw [← Except.ok.inj h]
    · obtain ⟨p, hp, h⟩ := Stop.passed h
      rw [← Except.ok.inj h]; exact State.pop_iss hp

theorem State.bsrc_iss {s : State} {seen : List (Fin 8 × List Nat)} {t : Ty} {rnd : Rnd} {sat : Bool} {n : Nat} {act : Nat → Bool}
    {a : BSrc} {r : State × List (Fin 8 × List Nat) × List Nat} (h : s.bsrc seen t rnd sat n act a = .ok r) : r.1.iss = s.iss := by
  unfold State.bsrc at h
  split at h
  · exact State.vsrc_iss h
  · exact State.vsrc_iss h
  · rw [← Except.ok.inj h]; rfl

theorem State.vdst_iss {s u : State} {t : Ty} {l : List Nat} {d : VDst} (h : s.vdst t l d = .ok u) : u.iss = s.iss := by
  unfold State.vdst at h
  split at h
  · rw [← Except.ok.inj h]; rfl
  · rw [← Except.ok.inj h]
  · exact State.append_iss h

theorem State.rdst_iss {s u : State} {t : Ty} {c : Nat} {d : RDst} (h : s.rdst t c d = .ok u) : u.iss = s.iss := by
  unfold State.rdst at h
  split at h
  · rw [← Except.ok.inj h]; rfl
  · exact State.append_iss h

theorem State.gather_iss {s u : State} {t : Ty} {rnd : Rnd} {sat : Bool} {d : VDst} {es : List (Nat × Elem)}
    (h : s.gather t rnd sat d es = .ok u) : u.iss = s.iss := by
  have := State.vdst_iss h; simpa using this

end Sys2Proof.Machine
end

