-- ==== Sys2Proof/Laws/Frame.lean ====
section
/-! SUPPORT. What joining operands leaves unchanged, and how a meaning that works on registers ends. -/
namespace Sys2Proof.Machine
open Sys2Proof

/-- Joining one operand changes only what the operation's completion left: the join mark of the register, and the slice masks. -/
theorem Thread.join_frame (t : Thread) (sp : BitVec 8) :
    t.join sp = { t with w := (t.join sp).w, g := (t.join sp).g, tsm := (t.join sp).tsm, mjn := (t.join sp).mjn } ∧
    (∀ e : Fin 256, (t.join sp).w[e].val = t.w[e].val ∧ (t.join sp).w[e].fut = t.w[e].fut) ∧
    ∀ n : Fin 8, (t.join sp).g[n].val = t.g[n].val ∧ (t.join sp).g[n].fut = t.g[n].fut := by
  unfold Thread.join Thread.updReg Thread.reg?
  cases inRange 0 32 sp with
  | some n =>
    dsimp only
    split
    · exact ⟨rfl, fun _ => ⟨rfl, rfl⟩, fun _ => ⟨rfl, rfl⟩⟩
    · refine ⟨rfl, fun e => ?_, fun _ => ⟨rfl, rfl⟩⟩
      simp only [Fin.getElem_fin, Vector.getElem_set, Thread.regW]
      split
      · rename_i h; have : stackIx t.wbase n.val = e := Fin.ext h; subst this; exact ⟨rfl, rfl⟩
      · exact ⟨rfl, rfl⟩
  | none =>
    dsimp only
    cases inRange 0x20 8 sp with
    | none => exact ⟨rfl, fun _ => ⟨rfl, rfl⟩, fun _ => ⟨rfl, rfl⟩⟩
    | some n =>
      simp only [Option.map_some]
      split
      · exact ⟨rfl, fun _ => ⟨rfl, rfl⟩, fun _ => ⟨rfl, rfl⟩⟩
      · refine ⟨rfl, fun _ => ⟨rfl, rfl⟩, fun e => ?_⟩
        simp only [Fin.getElem_fin, Vector.getElem_set]
        split
        · rename_i h; have : n = e := Fin.ext h; subst this; exact ⟨rfl, rfl⟩
        · exact ⟨rfl, rfl⟩

theorem Thread.joins_frame (l : List (BitVec 8)) (t : Thread) :
    l.foldl Thread.join t = { t with
      w := (l.foldl Thread.join t).w, g := (l.foldl Thread.join t).g, tsm := (l.foldl Thread.join t).tsm
      mjn := (l.foldl Thread.join t).mjn } ∧
    (∀ e : Fin 256, (l.foldl Thread.join t).w[e].val = t.w[e].val ∧ (l.foldl Thread.join t).w[e].fut = t.w[e].fut) ∧
    ∀ n : Fin 8, (l.foldl Thread.join t).g[n].val = t.g[n].val ∧ (l.foldl Thread.join t).g[n].fut = t.g[n].fut := by
  induction l generalizing t with
  | nil => exact ⟨rfl, fun _ => ⟨rfl, rfl⟩, fun _ => ⟨rfl, rfl⟩⟩
  | cons sp l ih =>
    obtain ⟨h1, h2, h3⟩ := ih (t.join sp)
    obtain ⟨j1, j2, j3⟩ := Thread.join_frame t sp
    simp only [List.foldl_cons]
    refine ⟨?_, fun e => ⟨(h2 e).1.trans (j2 e).1, (h2 e).2.trans (j2 e).2⟩,
      fun n => ⟨(h3 n).1.trans (j3 n).1, (h3 n).2.trans (j3 n).2⟩⟩
    rw [h1, j1]

/-- Observing operands changes nothing of a register's value or future, and nothing else than join marks, the slice masks, and the banks
that wake. -/
theorem State.joined_frame (s : State) (l : List (BitVec 8)) :
    s.joined l = { s with th := (s.joined l).th, core := { s.core with banks := (s.joined l).core.banks } } ∧
    (s.joined l).th = { s.th with
      w := (s.joined l).th.w, g := (s.joined l).th.g, tsm := (s.joined l).th.tsm, mjn := (s.joined l).th.mjn } ∧
    (∀ e : Fin 256, (s.joined l).th.w[e].val = s.th.w[e].val ∧ (s.joined l).th.w[e].fut = s.th.w[e].fut) ∧
    ∀ n : Fin 8, (s.joined l).th.g[n].val = s.th.g[n].val ∧ (s.joined l).th.g[n].fut = s.th.g[n].fut := by
  refine ⟨?_, ?_⟩
  · unfold State.joined; rw [State.wakeRegs_frame]; rfl
  · rw [State.joined_th]; exact Thread.joins_frame l s.th

/-- How a meaning ends, whatever it read: with the state it reached, before or after its unit retired, or with the unit's stop. -/
theorem State.finish_ends {s t : State} {r : Except Stop State} (h : s.finish r = .next t) :
    (∃ e, t = s.stopped e ∨ t = { s with iss := { s.iss with res := .stop e } }) ∨ ∃ u, r = .ok u ∧ (t = u.retire ∨ t = u) := by
  unfold State.finish at h
  split at h
  · injection h with h; subst h; refine .inr ⟨_, rfl, ?_⟩; split
    · exact .inr rfl
    · exact .inl rfl
  · injection h with h; exact .inl ⟨_, .inl h.symm⟩
  · injection h with h; exact .inr ⟨_, rfl, .inr h.symm⟩
  · injection h with h; exact .inl ⟨_, .inr h.symm⟩

/-- The same for a meaning that first observes its operands. -/
theorem State.begin_ends {s t : State} {ds ss : List (BitVec 8)} {f : State → Except Stop State}
    (h : s.finish (s.begin ds ss >>= f) = .next t) :
    (∃ e, t = s.stopped e ∨ t = { s with iss := { s.iss with res := .stop e } }) ∨
      ∃ u, (t = u.retire ∨ t = u) ∧ f (s.joined (ds ++ ss)) = .ok u := by
  refine (State.finish_ends h).imp_right fun ⟨u, hu, ht⟩ => ⟨u, ht, ?_⟩
  obtain ⟨j, hj, hu⟩ := Stop.passed hu
  rwa [← (State.begin_inv hj).2.2]

/-- The same for a scalar instruction. -/
theorem State.alu_ends {s t : State} {ds ss : List (BitVec 8)} {f : State → State} (h : s.alu ds ss f = .next t) :
    (∃ e, t = s.stopped e ∨ t = { s with iss := { s.iss with res := .stop e } }) ∨
      ∃ u, (t = u.retire ∨ t = u) ∧ u = f (s.joined (ds ++ ss)) :=
  (State.begin_ends (f := fun j => .ok (f j)) h).imp_right fun ⟨u, ht, hu⟩ => ⟨u, ht, (Except.ok.inj hu).symm⟩

/-- The same for a vector instruction. -/
theorem State.vec_ends {s t : State} {n : Nat} {ds ss : List (BitVec 8)} {f : State → Except Stop State} (h : s.vec n ds ss f = .next t) :
    (∃ e, t = s.stopped e ∨ t = { s with iss := { s.iss with res := .stop e } }) ∨
      ∃ u v, (t = u.retire ∨ t = u) ∧ f (s.joined (ds ++ ss)) = .ok v ∧ u = v.hold n := by
  refine (State.begin_ends (f := fun j => f j >>= fun v => .ok (v.hold n)) h).imp_right fun ⟨u, ht, hu⟩ => ?_
  obtain ⟨v, hv, hu⟩ := Stop.passed hu
  exact ⟨u, v, ht, hv, (Except.ok.inj hu).symm⟩

/-- A bounded search over an option, without evaluating the numbers it compares. -/
theorem any_some_of {α : Type} {P : α → Prop} [DecidablePred P] {o : Option α} {x : α} (h : o = some x) (hp : P x) :
    (o.any fun y => decide (P y)) = true := by rw [h]; exact decide_eq_true hp

end Sys2Proof.Machine
end

