-- ==== Sys2Proof/Laws/Memory.lean ====
section
/-! SUPPORT. The canonical form of memories: every operation on a memory keeps it, and reads after a write. -/
namespace Sys2Proof.Machine
open Sys2Proof

/-- A memory in its form from a bound on is so from any lower bound. -/
theorem Memory.wfFrom_mono {m : Memory} {lo hi : Nat} (h : lo ≤ hi) (w : m.wfFrom hi = true) : m.wfFrom lo = true := by
  cases m with
  | nil => rfl
  | cons c r =>
    simp only [Memory.wfFrom, Bool.and_eq_true, decide_eq_true_eq] at w ⊢
    exact ⟨⟨Nat.le_trans h w.1.1, w.1.2⟩, w.2⟩

/-- No address below the bound of the form is listed. -/
theorem Memory.wfFrom_le {m : Memory} {lo : Nat} (w : m.wfFrom lo = true) : ∀ c ∈ m, lo ≤ c.1 := by
  induction m generalizing lo with
  | nil => simp
  | cons d r ih =>
    simp only [Memory.wfFrom, Bool.and_eq_true, decide_eq_true_eq] at w
    intro c hc
    rcases List.mem_cons.mp hc with rfl | h
    · exact w.1.1
    · have := ih w.2 c h; omega

theorem Memory.wfFrom_set {m : Memory} {lo a : Nat} (b : Byte) (h : lo ≤ a) (w : m.wfFrom lo = true) : (m.set a b).wfFrom lo = true := by
  induction m generalizing lo with
  | nil =>
    simp only [Memory.set]
    split
    · rfl
    · simp only [Memory.wfFrom, Bool.and_eq_true, decide_eq_true_eq]
      exact ⟨⟨h, by assumption⟩, trivial⟩
  | cons c r ih =>
    obtain ⟨x, v⟩ := c
    simp only [Memory.wfFrom, Bool.and_eq_true, decide_eq_true_eq] at w
    obtain ⟨⟨hx, hv⟩, hr⟩ := w
    simp only [Memory.set]
    split
    · split
      · simp only [Memory.wfFrom, Bool.and_eq_true, decide_eq_true_eq]
        exact ⟨⟨hx, hv⟩, hr⟩
      · simp only [Memory.wfFrom, Bool.and_eq_true, decide_eq_true_eq]
        exact ⟨⟨h, by assumption⟩, ⟨by omega, hv⟩, hr⟩
    · split
      · split
        · exact Memory.wfFrom_mono (by omega) hr
        · subst_vars
          simp only [Memory.wfFrom, Bool.and_eq_true, decide_eq_true_eq]
          exact ⟨⟨h, by assumption⟩, hr⟩
      · simp only [Memory.wfFrom, Bool.and_eq_true, decide_eq_true_eq]
        exact ⟨⟨hx, hv⟩, ih (by omega) hr⟩

/-- Writing a byte keeps the form. -/
theorem Memory.wf_set {m : Memory} (a : Nat) (b : Byte) (w : m.wf = true) : (m.set a b).wf = true := Memory.wfFrom_set b (Nat.zero_le a) w

/-- Writing bytes keeps the form. -/
theorem Memory.wf_put (l : List Byte) {m : Memory} (a : Nat) (w : m.wf = true) : (m.put a l).wf = true := by
  induction l generalizing m a with
  | nil => exact w
  | cons b r ih => exact ih _ (Memory.wf_set a b w)

/-- Writing bytes under masks keeps the form. -/
theorem Memory.wf_putMasked (l : List (Nat × Byte × Byte)) {m : Memory} (w : m.wf = true) : (m.putMasked l).wf = true := by
  induction l generalizing m with
  | nil => exact w
  | cons c r ih => exact ih (Memory.wf_set c.1 _ w)

theorem Memory.wfFrom_filter (p : Nat × Byte → Bool) {m : Memory} {lo : Nat} (w : m.wfFrom lo = true) : Memory.wfFrom lo (m.filter p) = true := by
  induction m generalizing lo with
  | nil => rfl
  | cons c r ih =>
    simp only [Memory.wfFrom, Bool.and_eq_true, decide_eq_true_eq] at w
    rw [List.filter_cons]
    split
    · simp only [Memory.wfFrom, Bool.and_eq_true, decide_eq_true_eq]
      exact ⟨w.1, ih w.2⟩
    · exact Memory.wfFrom_mono (by omega) (ih w.2)

/-- Dropping bytes keeps the form. -/
theorem Memory.wf_filter (p : Nat × Byte → Bool) {m : Memory} (w : m.wf = true) : Memory.wf (m.filter p) = true := Memory.wfFrom_filter p w

/-- Clearing a range keeps the form. -/
theorem Memory.wf_clear (a n : Nat) {m : Memory} (w : m.wf = true) : (m.clear a n).wf = true := Memory.wf_filter _ w

theorem Memory.wfFrom_shift {m : Memory} {lo base new : Nat} (h : base ≤ lo) (w : m.wfFrom lo = true) :
    (Memory.shift m base new).wfFrom (lo - base + new) = true := by
  induction m generalizing lo with
  | nil => rfl
  | cons c r ih =>
    simp only [Memory.wfFrom, Bool.and_eq_true, decide_eq_true_eq] at w
    simp only [Memory.shift, List.map_cons, Memory.wfFrom, Bool.and_eq_true, decide_eq_true_eq]
    refine ⟨⟨by omega, w.1.2⟩, ?_⟩
    have := ih (lo := c.1 + 1) (by omega) w.2
    rw [show c.1 + 1 - base + new = c.1 - base + new + 1 by omega] at this
    exact this

/-- A memory of which every address is at or above a bound has its form from that bound on. -/
theorem Memory.wfFrom_of_le {m : Memory} {lo : Nat} (w : m.wf = true) (h : ∀ c ∈ m, lo ≤ c.1) : m.wfFrom lo = true := by
  cases m with
  | nil => rfl
  | cons c r =>
    simp only [Memory.wf, Memory.wfFrom, Bool.and_eq_true, decide_eq_true_eq] at w ⊢
    exact ⟨⟨h c (.head _), w.1.2⟩, w.2⟩

/-- Moving a memory down by a bound under its addresses keeps the form. -/
theorem Memory.wf_shift {m : Memory} {base : Nat} (new : Nat) (w : m.wf = true) (h : ∀ c ∈ m, base ≤ c.1) : (Memory.shift m base new).wf = true :=
  Memory.wfFrom_mono (Nat.zero_le _) (Memory.wfFrom_shift (Nat.le_refl base) (Memory.wfFrom_of_le w h))

/-- Merging listed bytes in at new addresses keeps the form. -/
theorem Memory.wf_fold (f : Nat × Byte → Nat) (l : List (Nat × Byte)) {m : Memory} (w : m.wf = true) :
    (l.foldl (fun (m : Memory) c => m.set (f c) c.2) m).wf = true := by
  induction l generalizing m with
  | nil => exact w
  | cons c r ih => exact ih (Memory.wf_set _ _ w)

/-- A frame's bytes, moved to the start of a page, are in the form. -/
theorem State.wf_frameBytes (s : State) (f : Nat) (w : s.mem.wf = true) : (s.frameBytes f).wf = true := by
  have := Memory.wf_shift (base := f) 0 (Memory.wf_filter (fun c => f ≤ c.1 && c.1 < f + 65536) w) (by
    intro c hc
    have := List.mem_filter.mp hc
    simp at this
    omega)
  simpa [State.frameBytes, Memory.shift] using this

/-- A byte below the form's bound is not listed. -/
theorem Memory.get_below {m : Memory} {lo a : Nat} (h : a < lo) (w : m.wfFrom lo = true) : m.get a = 0 := by
  induction m generalizing lo with
  | nil => rfl
  | cons c r ih =>
    simp only [Memory.wfFrom, Bool.and_eq_true, decide_eq_true_eq] at w
    simp only [Memory.get]
    rw [if_neg (by omega)]
    exact ih (by omega) w.2

theorem Memory.get_setFrom {m : Memory} {lo a : Nat} (b : Byte) (c : Nat) (w : m.wfFrom lo = true) :
    (m.set a b).get c = if c = a then b else m.get c := by
  induction m generalizing lo with
  | nil =>
    simp only [Memory.set]
    split <;> simp_all [Memory.get]
  | cons d r ih =>
    obtain ⟨x, v⟩ := d
    simp only [Memory.wfFrom, Bool.and_eq_true, decide_eq_true_eq] at w
    have out : ∀ e, e ≤ x → Memory.get r e = 0 := fun e h => Memory.get_below (by omega) w.2
    simp only [Memory.set]
    split
    · next h =>
      split
      · next hb =>
        by_cases hc : c = a
        · subst hc hb
          simp only [Memory.get, if_neg (show ¬ c = x by omega), out c (by omega), if_true]
        · simp [hc]
      · simp [Memory.get]
    · split
      · next h =>
        subst h
        split
        · next hb =>
          subst hb
          by_cases hc : c = a
          · simp [hc, out a (Nat.le_refl a)]
          · simp [Memory.get, hc]
        · by_cases hc : c = a <;> simp [Memory.get, hc]
      · next h =>
        simp only [Memory.get, ih w.2]
        by_cases hc : c = x
        · subst hc
          simp [show ¬ c = a by omega]
        · simp [hc]

/-- A byte written reads as written, and every other byte as before. -/
theorem Memory.get_set {m : Memory} (a : Nat) (b : Byte) (c : Nat) (w : m.wf = true) : (m.set a b).get c = if c = a then b else m.get c :=
  Memory.get_setFrom b c w

end Sys2Proof.Machine
end

