-- ==== Sys2Proof/Machine/Flit.lean ====
section
/-! DEFINITION. What requests, answers, packets and mailbox records look like as bits (R411, R413, R426 to R428). Nothing in the machine reads
them back: the records of State hold the same facts by name. -/
namespace Sys2Proof.Machine
open Sys2Proof

/-- The head flit (Table 14-1). -/
structure Head where
  dst : BitVec 16
  src : BitVec 16
  type : BitVec 6
  cls : BitVec 2
  ctx : BitVec 7
  key : BitVec 7
  scope : BitVec 3
  clk : Bool
  len : BitVec 10
  pois : BitVec 8
  tag : BitVec 48
  addr : BitVec 64
  word : BitVec 64
  deriving DecidableEq, Repr

def Head.bits (h : Head) : BitVec 256 :=
  h.dst ++ h.src ++ h.type ++ h.cls ++ h.ctx ++ h.key ++ h.scope ++ BitVec.ofBool h.clk ++ h.len ++ h.pois ++ 0#4 ++ h.tag ++ h.addr ++ h.word

/-- The traffic class of a packet type (Table 14-2); none for a type that is not in the table, which a router drops (R427). -/
def typeClass (t : Nat) : Option (BitVec 2) :=
  if t = 0 then none
  else if t ≤ 3 || t = 6 then some 0
  else if t = 4 || t = 5 || t = 7 || t = 8 || t = 0x0F then some 1
  else if t = 9 || t = 0x0A || t = 0x10 then some 2
  else if t ≤ 0x0E || t = 0x11 then some 3
  else none

/-- The clock flit (R428): the count of site k at bits 40k + 39:40k, bits 255:240 zero. -/
def clkFlit (k : Clk) : BitVec 256 := 0#16 ++ k[5] ++ k[4] ++ k[3] ++ k[2] ++ k[1] ++ k[0]

/-! ### Engine addresses (Table 13-2) -/

def engAddr (site row col unit : Nat) : BitVec 16 := BitVec.ofNat 3 site ++ BitVec.ofNat 6 row ++ BitVec.ofNat 4 col ++ BitVec.ofNat 3 unit

/-- A unit of a logical core, on the physical core it stands on (R390). -/
def State.coreAddr (s : State) (core unit : Nat) : BitVec 16 :=
  let p := (s.phys? core).getD core
  engAddr (p / 768) (p / 16 % 48) (p % 16) unit

/-- A home slice: unit 6 of its die, with its number among the die's 16 in bits 12:3. -/
def sliceAddr (slice : Nat) : BitVec 16 := BitVec.ofNat 3 (slice / 16) ++ BitVec.ofNat 10 (slice % 16) ++ 6#3

/-- Who asks: a pipeline, its die's context-save engine (service 0), or an endpoint of the IOD. -/
def State.whoAddr (s : State) : Who → BitVec 16
  | .thr k => s.coreAddr k.core 0
  | .save k => BitVec.ofNat 3 (s.coreSite k.core).val ++ 0#10 ++ 7#3
  | .peer _ _ => engAddr 4 0 0 2

/-- The place a request goes to: its home slice, or the host link of the IOD. -/
def homeAddr (pa : Nat) : BitVec 16 := if noHome pa then engAddr 4 0 0 3 else sliceAddr (home pa)

/-! ### Requests, answers and packets -/

def ReqBody.type : ReqBody → Nat
  | .read _ => 1 | .write _ => 2 | .amo .. => 3 | .data .. => 4 | .ack .. => 5 | .probe => 6 | .echo => 7

/-- An answer goes back to the party that asked. -/
def ReqBody.isAnswer : ReqBody → Bool
  | .data .. | .echo | .ack .. => true
  | _ => false

/-- The bytes a packet carries after its head. -/
def ReqBody.len : ReqBody → Nat
  | .write c => c.length
  | .data b _ => b.length
  | .amo 8 .. => 8
  | _ => 0

/-- The head flit of a request or an answer under its requester's tag; bits 51:0 of the address are the physical address. A read's length stands
in the len field: DEDUCED (log 52), for no other field can hold it. -/
def State.reqHead (s : State) (tag : Nat) (r : Req) : Head :=
  let me := s.whoAddr r.who
  let it := match r.body with | .probe | .echo => sliceAddr r.pa | _ => homeAddr r.pa
  { dst := if r.body.isAnswer then me else it, src := if r.body.isAnswer then it else me
    type := BitVec.ofNat 6 r.body.type, cls := (typeClass r.body.type).getD 0, ctx := BitVec.ofNat 7 r.ctx, key := BitVec.ofNat 7 r.key
    scope := r.sc.code, clk := r.clk.isSome, len := BitVec.ofNat 10 (match r.body with | .read n => n | b => b.len)
    pois := if r.pois then 1 else match r.body with | .data _ st => if st = 1 then 1 else 0 | _ => 0
    tag := BitVec.ofNat 48 tag
    addr := match r.body with
      | .ack p _ => BitVec.ofNat 64 p
      | .probe | .echo => 0
      | .read _ | .data .. => BitVec.ofNat 64 (r.pa / 64 * 64 % 2 ^ 52)
      | _ => BitVec.ofNat 64 (r.pa % 2 ^ 52)
    word := match r.body with
      | .amo _ _ _ b _ _ => b
      | .write c => BitVec.ofNat 64 ((c.map fun x => 2 ^ (x.1 % 64)).sum)
      | .probe => BitVec.ofNat 64 r.sc.code.toNat
      | _ => 0 }

/-- A packet's type. -/
def Pkt.type : Pkt → Nat
  | .msg _ => 9 | .link .. => 0x0B | .arrival .. => 0x0C | .release .. => 0x0D | .gang .. => 0x0E | .refuse .. => 0x0F | .window .. => 0x11

/-- The address and the word of a packet (Table 14-2). -/
def Pkt.addr : Pkt → Word
  | .msg m => m.dst
  | .link _ _ east _ _ => if east then 0 else 1
  | .arrival _ _ n _ _ | .release _ _ n _ _ _ _ => BitVec.ofNat 64 n
  | .gang .. => 0
  | .refuse _ r => BitVec.ofNat 64 r
  | .window p _ => BitVec.ofNat 64 (p % 16)

def Pkt.word : Pkt → Word
  | .msg m => if m.greg.isSome then m.data.setWidth 64 else 0
  | .link _ _ _ w _ => w
  | .arrival _ _ _ _ w => (w.map fun x => x.setWidth 64).getD 0
  | .release _ _ _ ph st _ _ => (ph ++ st).setWidth 64
  | .window _ w => BitVec.ofNat 64 w
  | _ => 0

/-! ### Mailbox records (R413) -/

/-- The sender word: task, rectangle row and column, thread, and the eddy mark. -/
def State.senderWord (s : State) (m : Msg) : Nat :=
  let t := (s.cx? m.src.ctx).bind (·.task? m.srcTask)
  let row := coreRow m.src.core - (t.map (·.lrow)).getD 0
  let col := coreCol m.src.core - (t.map (·.lcol)).getD 0
  m.srcTask % 2 ^ 16 + 2 ^ 16 * (row % 64) + 2 ^ 22 * (col % 16) + 2 ^ 26 * (m.src.slot % 8) + (if 8 ≤ m.src.slot then 2 ^ 31 else 0)

/-- The 128 bytes of a record (Table 13-4). -/
def State.mailRecord (s : State) (m : Msg) : List Byte :=
  leBytes m.dst.toNat 8 ++ leBytes (s.senderWord m) 8 ++
  [if m.held then 2 else if m.greg.isSome then 1 else 0, BitVec.ofNat 8 (m.greg.getD 0)] ++ List.replicate 6 0 ++
  leBytes m.seq 8 ++ leBytes m.data.toNat 96

end Sys2Proof.Machine
end

