-- ==== Sys2Proof/Tests/Slice0.lean ====
section
/-! SUPPORT. Tests: words written out from the encoding tables of the spec and the instructions they stand for, words refused by name,
ill-formed terms refused by each check of WellFormed, and single instructions on a small state, with results reckoned by hand from the
rules named. -/
namespace Sys2Proof.Tests
open Sys2Proof Sys2Proof.Machine
set_option Elab.async false

/-! ### Decoding (R72 to R85) -/

def decodesAll (l : List (IWord × Slot)) : Bool := l.all fun p => decide ((decode p.1).toOption = some p.2)

theorem test_decode_scalar : decodesAll [
    (0x0100010203FF088000000000, ⟨false, 0, .add .i32 true (.w 1) (.reg (.w 2)) (.reg (.w 3))⟩),
    (0x0200213839FF380000000007, ⟨false, 0, .sub .n8 false (.g 1) (.reg .zero) (.imm 7)⟩),
    (0x0300030102FF000000000000, ⟨false, 0, .mul .i64 false (.w 3) (.reg (.w 1)) (.reg (.w 2))⟩),
    (0x0400040506FF200000000000, ⟨false, 0, .mulh .n64 (.w 4) (.reg (.w 5)) (.reg (.w 6))⟩),
    (0x0500070809391000FFFFFFFF, ⟨false, 0, .madd .i16 false (.w 7) (.reg (.w 8)) (.reg (.w 9)) (.imm 0xFFFFFFFF)⟩),
    (0x06000A280BFF188000000000, ⟨false, 0, .div .i8 true (.w 10) (.reg (.bc 0)) (.reg (.w 11))⟩),
    (0x07002D0C0DFF280000000000, ⟨false, 0, .rem .n32 (.lc 1) (.reg (.w 12)) (.reg (.w 13))⟩),
    (0x08000E0FFFFF080000000000, ⟨false, 0, .abs .i32 false (.w 14) (.reg (.w 15))⟩),
    (0x0900101112FF300000000000, ⟨false, 0, .min .n16 (.w 16) (.reg (.w 17)) (.reg (.w 18))⟩),
    (0x0A00131415FF000000000000, ⟨false, 0, .max .i64 (.w 19) (.reg (.w 20)) (.reg (.w 21))⟩),
    (0x0B00161718FF000000000000, ⟨false, 0, .and .i64 (.w 22) (.reg (.w 23)) (.reg (.w 24))⟩),
    (0x0C00191A1BFF000000000000, ⟨false, 0, .or .i64 (.w 25) (.reg (.w 26)) (.reg (.w 27))⟩),
    (0x0D001C1D1EFF280000000000, ⟨false, 0, .xor .n32 (.w 28) (.reg (.w 29)) (.reg (.w 30))⟩),
    (0x0E001F0001FF000000000000, ⟨false, 0, .andn .i64 (.w 31) (.reg (.w 0)) (.reg (.w 1))⟩),
    (0x0F020C0C39FF000000000001, ⟨false, 2, .shl .i64 false (.w 12) (.reg (.w 12)) (.imm 1)⟩),
    (0x1000030339FF000000000001, ⟨false, 0, .shr .i64 (.w 3) (.reg (.w 3)) (.imm 1)⟩),
    (0x1100010203FF180000000000, ⟨false, 0, .sar .i8 (.w 1) (.reg (.w 2)) (.reg (.w 3))⟩),
    (0x1200040506FF280000000000, ⟨false, 0, .rot .n32 (.w 4) (.reg (.w 5)) (.reg (.w 6))⟩),
    (0x13000001FFFF280000000000, ⟨false, 0, .clz .n32 (.w 0) (.reg (.w 1))⟩),
    (0x14000102FFFF280000000000, ⟨false, 0, .ctz .n32 (.w 1) (.reg (.w 2))⟩),
    (0x15000203FFFF280000000000, ⟨false, 0, .popc .n32 (.w 2) (.reg (.w 3))⟩),
    (0x16000304FFFF280000000000, ⟨false, 0, .brev .n32 (.w 3) (.reg (.w 4))⟩),
    (0x17000405FFFF280000000000, ⟨false, 0, .bswap .n32 (.w 4) (.reg (.w 5))⟩),
    (0x18000C0A0BFF000000000000, ⟨false, 0, .bext .i64 (.w 12) (.reg (.w 10)) (.reg (.w 11))⟩),
    (0x190001020304000000000000, ⟨false, 0, .bins (.w 1) (.reg (.w 2)) (.reg (.w 3)) (.reg (.w 4))⟩),
    (0x1A000102FFFF180000000000, ⟨false, 0, .sext .i8 (.w 1) (.reg (.w 2))⟩),
    (0x1B000102FFFF280000000000, ⟨false, 0, .zext .n32 (.w 1) (.reg (.w 2))⟩),
    (0x1C0001A8FFFF000000000000, ⟨false, 0, .mov .i64 (.s (.w 1)) .lnkw⟩),
    (0x1C00A922FFFF280000000000, ⟨false, 0, .mov .n32 .lnke (.s (.reg (.g 2)))⟩),
    (0x1D001AFF00FAF4EEE8E0D4C0, ⟨false, 0, .movi (.w 26) 0x00FAF4EEE8E0D4C0⟩),
    (0x1E00010203FF0800FFFFFFF8, ⟨false, 0, .lea .i32 (.w 1) ⟨.w 2, 0xFFFFFFF8⟩ (some (.w 3))⟩),
    (0x1F50010203FF380000000000, ⟨false, 0, .setc .ge .n8 (.w 1) (.reg (.w 2)) (.reg (.w 3))⟩),
    (0x20000118FF00400000000000, ⟨false, 0, .cvt .f .i64 .rne false (.w 1) (.reg (.w 24))⟩),
    (0x2120B90939FF000000000008, ⟨false, 0, .cmp .lt .i64 1 (.reg (.w 9)) (.imm 8)⟩),
    (0x2270B9BABBFF000000000000, ⟨false, 0, .pand true true true 1 2 3⟩),
    (0x2310BCBDBEFF000000000000, ⟨false, 0, .por true false false 4 5 6⟩),
    (0x2440BFB8B9FF000000000000, ⟨false, 0, .pxor false false true 7 0 1⟩),
    (0x2510B905FFFF000000000000, ⟨false, 0, .pmov true (.ps 1 (.reg (.w 5)))⟩),
    (0x250006BAFFFF000000000000, ⟨false, 0, .pmov false (.sp (.w 6) 2)⟩),
    (0x2610010239BB000000000005, ⟨false, 0, .sel true (.w 1) (.reg (.w 2)) (.imm 5) 3⟩)] = true := by decide +kernel

theorem test_decode_control : decodesAll [
    (0x2800FFFFFFFF00FFFFFFFFFC, ⟨false, 0, .br ⟨0x1FFFFFFFFF, 4⟩⟩),
    (0x2930FF0102FF280000000011, ⟨false, 0, .brc .le .n32 (.w 1) (.w 2) ⟨2, 1⟩⟩),
    (0x2A00FF05FFFF000000000000, ⟨false, 0, .bri (.w 5)⟩),
    (0x2B00FFFFFFFF00000000000B, ⟨false, 0, .call ⟨1, 3⟩⟩),
    (0x2C00FF06FFFF000000000000, ⟨false, 0, .calli (.w 6)⟩),
    (0x2D00FFFFFFFF00000000002A, ⟨false, 0, .tcall ⟨5, 2⟩⟩),
    (0x2E0BFFFFFFFF000000000000, ⟨true, 3, .ret⟩),
    (0x2F00FF08FFFF000000000019, ⟨false, 0, .loop 0 (.w 8) ⟨3, 1⟩⟩),
    (0x3010FFFFFFFF000000000000, ⟨false, 0, .lbrk 1⟩),
    (0x3100FF01FFFF000000000000, ⟨false, 0, .wspill (.w 1)⟩),
    (0x3200FF02FFFF000000000000, ⟨false, 0, .wfill (.w 2)⟩),
    (0x3300FFFFFFFF000000000000, ⟨false, 0, .exit⟩),
    (0x3400FFFFFFFF000000000000, ⟨false, 0, .nop⟩),
    (0x3500FFFFFFFF000000000000, ⟨false, 0, .yield⟩)] = true := by decide +kernel

theorem test_decode_vector : decodesAll [
    (0x4000444180FF400000000000, ⟨false, 0, .vadd .f .rne false (.v 4) (.v 1) (.q 0) none⟩),
    (0x4100444180FF400000000000, ⟨false, 0, .vsub .f .rne false (.v 4) (.v 1) (.q 0) none⟩),
    (0x4200444180FF400000000000, ⟨false, 0, .vmul .f .rne false (.v 4) (.v 1) (.q 0) none⟩),
    (0x43007F4142B34B8000000000, ⟨false, 0, .vfma .bf .rup true 63 (.v 1) (.v 2) (some 3)⟩),
    (0x44007F4142B34B8000000000, ⟨false, 0, .vfms .bf .rup true 63 (.v 1) (.v 2) (some 3)⟩),
    (0x4500404105B7500000000000, ⟨false, 0, .vdiv .h .rne false (.v 0) (.v 1) (.s (.reg (.w 5))) (some 7)⟩),
    (0x46004087FFFF410000000000, ⟨false, 0, .vsqrt .f .rtz false (.v 0) (.q 7) none⟩),
    (0x4700814243FF300000000000, ⟨false, 0, .vmin .n16 (.q 1) (.v 2) (.v 3) none⟩),
    (0x4800814243FF300000000000, ⟨false, 0, .vmax .n16 (.q 1) (.v 2) (.v 3) none⟩),
    (0x49004142FFFF188000000000, ⟨false, 0, .vabs .i8 true (.v 1) (.v 2) none⟩),
    (0x4A004142FFFF188000000000, ⟨false, 0, .vneg .i8 true (.v 1) (.v 2) none⟩),
    (0x4B00414239FF2800000000FF, ⟨false, 0, .vand .n32 (.v 1) (.v 2) (.s (.imm 255)) none⟩),
    (0x4C00414239FF2800000000FF, ⟨false, 0, .vor .n32 (.v 1) (.v 2) (.s (.imm 255)) none⟩),
    (0x4D00414239FF2800000000FF, ⟨false, 0, .vxor .n32 (.v 1) (.v 2) (.s (.imm 255)) none⟩),
    (0x4E00414243FF088000000000, ⟨false, 0, .vshl .i32 true (.v 1) (.v 2) (.v 3) none⟩),
    (0x4F00414243FF100000000000, ⟨false, 0, .vshr .i16 (.v 1) (.v 2) (.v 3) none⟩),
    (0x5000414243FF100000000000, ⟨false, 0, .vsar .i16 (.v 1) (.v 2) (.v 3) none⟩),
    (0x51004142FFB0440000000000, ⟨false, 0, .vrcp .f .rna false (.v 1) (.v 2) (some 0)⟩),
    (0x52004142FFB0440000000000, ⟨false, 0, .vrsq .f .rna false (.v 1) (.v 2) (some 0)⟩),
    (0x53004142FFB0440000000000, ⟨false, 0, .vexp2 .f .rna false (.v 1) (.v 2) (some 0)⟩),
    (0x54004142FFB0440000000000, ⟨false, 0, .vlog2 .f .rna false (.v 1) (.v 2) (some 0)⟩),
    (0x5560B14243B4400000000000, ⟨false, 0, .vcmp .un .f 1 (.v 2) (.v 3) (some 4)⟩),
    (0x5600414243B4280000000000, ⟨false, 0, .vsel .n32 (.v 1) (.v 2) (.v 3) 4⟩),
    (0x5700414243FF380000000000, ⟨false, 0, .vshuf .n8 (.v 1) (.v 2) (.v 3) none⟩),
    (0x58004139FFFF400041800000, ⟨false, 0, .vbcast .f (.v 1) (.s (.imm 0x41800000)) none⟩),
    (0x5900014203FF100000000000, ⟨false, 0, .vlaneGet .i16 (.w 1) (.v 2) (.reg (.w 3))⟩),
    (0x5910410203FF280000000000, ⟨false, 0, .vlanePut .n32 (.v 1) (.reg (.w 2)) (.reg (.w 3))⟩),
    (0x5A008142FFFF280000000000, ⟨false, 0, .vmov .n32 (.q 1) (.v 2) none⟩),
    (0x5B008144FFFF400000000000, ⟨false, 0, .vsum false .f .rne false (.q 1) (.v 4) none⟩),
    (0x5C100144FFB1088000000000, ⟨false, 0, .vrmax true .i32 .rne true (.s (.w 1)) (.v 4) (some 1)⟩),
    (0x5D003844FFFF500000000000, ⟨false, 0, .vrmin false .h .rne false (.s .zero) (.v 4) none⟩),
    (0x5E10214445FF4A0000000000, ⟨false, 0, .vdot true .bf .rdn false (.s (.g 1)) (.v 4) (.v 5) none⟩),
    (0x5F50414243FF000000000000, ⟨false, 0, .vpack 1 2 (.v 1) (.v 2) (.v 3)⟩),
    (0x60504142FFFF000000000000, ⟨false, 0, .vunpk 5 1 (.v 2)⟩),
    (0x61104142FF08480000000000, ⟨false, 0, .vcvt 1 .bf .f .rne false (.v 1) (.v 2)⟩),
    (0x623045420907780000000000, ⟨false, 0, .vquant 3 .q4 .rne 5 (.v 2) (.reg (.w 9)) (.w 7)⟩)] = true := by decide +kernel

theorem test_decode_memory : decodesAll [
    (0x63000102FFFF09B400000010, ⟨false, 0, .ld .i32 .rtz true .dev .acq (.w 1) ⟨.w 2, 16⟩ none⟩),
    (0x6400FF0203045028FFFFFFFF, ⟨false, 0, .st .h .rne false .die .rel ⟨.w 2, 0xFFFFFFFF⟩ (some (.w 3)) (.w 4)⟩),
    (0x65004120FFB2580000000060, ⟨false, 0, .vld .e4m3 .rne false .core .rlx (.v 1) ⟨.g 0, 96⟩ none (some 2)⟩),
    (0x6600FF02FF43404000000000, ⟨false, 0, .vst .f .rne false .sys .rlx ⟨.w 2, 0⟩ none (.v 3)⟩),
    (0x6700FF024304433000000000, ⟨false, 0, .vqst .rup .dev .rlx ⟨.w 2, 0⟩ (.v 3) (.w 4)⟩),
    (0x6800410243B4280000000000, ⟨false, 0, .vgath .n32 .rne false .core .rlx (.v 1) ⟨.w 2, 0⟩ (.v 3) (some 4)⟩),
    (0x6900B1024344280000000000, ⟨false, 0, .vscat .n32 .rne false .core .rlx (some 1) ⟨.w 2, 0⟩ (.v 3) (.v 4)⟩),
    (0x6A0080010203403000000000, ⟨false, 0, .sbind false .f .rne false .dev 0 (.reg (.w 1)) (.reg (.w 2)) (.reg (.w 3))⟩),
    (0x6B00FF87FFFF000000000000, ⟨false, 0, .sfree 7⟩),
    (0x6C00FF810239000000000009, ⟨false, 0, .sseek 1 (.reg (.w 2)) (.imm 9)⟩),
    (0x6D000182FFFF000000000000, ⟨false, 0, .sstatPos (.w 1) 2⟩),
    (0x6D100182FFFF000000000000, ⟨false, 0, .sstatCfg (.w 1) 2⟩),
    (0x6D200182FFFF000000000000, ⟨false, 0, .sstatBase (.w 1) 2⟩),
    (0x6E00FF81FFFF003800000000, ⟨false, 0, .sflush .dev .rel 1⟩),
    (0x6F000102FFFF000000000000, ⟨false, 0, .tlook (.w 1) (.reg (.w 2))⟩),
    (0x7000FF010203000000000000, ⟨false, 0, .tset (.reg (.w 1)) (.reg (.w 2)) (.reg (.w 3))⟩),
    (0x7100FF39FFFF0000000001FF, ⟨false, 0, .tinvEnt (.imm 511)⟩),
    (0x7110FF01FFFF000000000000, ⟨false, 0, .tinvTag (.reg (.w 1))⟩),
    (0x7120FFFFFFFF000000000000, ⟨false, 0, .tinvAll⟩)] = true := by decide +kernel

theorem test_decode_matrix : decodesAll [
    (0x8000383838FF040806000000, ⟨false, 0, .mrow 2 1 3 .zero .zero .zero⟩),
    (0x811038010F10000000000240, ⟨false, 0, .mgeom true 0x240 .zero (.w 1) (.w 15) (.w 16)⟩),
    (0x8200381213FF05F0000003C9, ⟨false, 0, .mslab 0x3C9 1 31 .zero (.w 18) (.w 19)⟩),
    (0x830014A0FFFF480807000000, ⟨false, 0, .mma .feed ⟨.bf, 0, false, 0, 1, 0, 3, true⟩ (.w 20) 0⟩),
    (0x842014A342447FC7C0000000, ⟨false, 0, .mmas (.regs 2 4) ⟨.q4, 1, true, 7, 0, 31, 0, false⟩ (.w 20) 3⟩),
    (0x850038A0FFFF003E00000000, ⟨false, 0, .mzero 15 true .zero 0⟩),
    (0x860043A038FF003C80000000, ⟨false, 0, .mread 15 2 3 0 .zero⟩),
    (0x870001A1430401FC40000000, ⟨false, 0, .mwrite 127 1 (.w 1) 1 3 (.w 4)⟩),
    (0x880017A00F10403208000000, ⟨false, 0, .mquant .f .rne false .dev 0x82 (.w 23) 0 (.w 15) (.w 16)⟩),
    (0x8900381111FF000000000000, ⟨false, 0, .skeep .zero (.w 17) (.w 17)⟩),
    (0x8A00010203FF000000000000, ⟨false, 0, .mscale (.w 1) (.w 2) (.w 3)⟩),
    (0x8B0021A0A2FF000000000000, ⟨false, 0, .mmerge (.g 1) 0 2⟩),
    (0x8C0041A302FF00FCA0000000, ⟨false, 0, .mtrans 63 5 1 3 (.w 2)⟩),
    (0x8D3001FFFFFF000000000000, ⟨false, 0, .mlink .fin (.w 1)⟩),
    (0x8E0001FFFFFF000000000000, ⟨false, 0, .mstatEng (.w 1)⟩),
    (0x8E1001A2FFFF000000000000, ⟨false, 0, .mstatTile (.w 1) 2⟩),
    (0x8F00FFFFFFFF000000000000, ⟨false, 0, .mwait⟩)] = true := by decide +kernel

theorem test_decode_async_1 : decodesAll [
    (0x90000E0B0C0D00B000000000, ⟨false, 0, .cpyMem true .dev (.w 14) (.w 11) (.w 12) (.w 13)⟩),
    (0x901038900C0D003000000000, ⟨false, 0, .cpyRing .dev .zero 0 (.w 12) (.w 13)⟩),
    (0x911001020304003000BF003F, ⟨false, 0, .cpy2d true false .dev 191 63 (.w 1) (.w 2) (.w 3) (.w 4)⟩),
    (0x92000102030400300009FFFF, ⟨false, 0, .cpyg .dev 9 0xFFFF (.w 1) (.w 2) (.w 3) (.w 4)⟩),
    (0x930001020304004000030007, ⟨false, 0, .cpys .sys 3 7 (.w 1) (.w 2) (.w 3) (.w 4)⟩),
    (0x940001020304003000000003, ⟨false, 0, .cpyf .dev 3 (.w 1) (.w 2) (.w 3) (.w 4)⟩),
    (0x9500380EFFFF000000000000, ⟨false, 0, .fwait .zero (.w 14)⟩),
    (0x9600B923FFFF000000000000, ⟨false, 0, .ftest 1 (.g 3)⟩),
    (0x9700FF01FFFF000000000000, ⟨false, 0, .fcancel (.w 1)⟩),
    (0x98002102FFFF000000000000, ⟨false, 0, .fpass (.g 1) (.w 2)⟩),
    (0x99000139FFFF000080000001, ⟨false, 0, .fany (.w 1) (.imm 0x80000001)⟩),
    (0x9A00900F10FF000000000000, ⟨false, 0, .kinitOwn 0 (.reg (.w 15)) (.reg (.w 16))⟩),
    (0x9A109F0102FF000000000000, ⟨false, 0, .kinitPeer 15 (.reg (.w 1)) (.reg (.w 2))⟩),
    (0x9B00129039FF000000000001, ⟨false, 0, .kwaitFill (.w 18) 0 (.imm 1)⟩),
    (0x9B10129102FF000000000000, ⟨false, 0, .kwaitFree (.w 18) 1 (.reg (.w 2))⟩),
    (0x9C00FF90FFFF000000000000, ⟨false, 0, .kfree 0⟩),
    (0x9D00FF9302FF000000000000, ⟨false, 0, .kadvFill 3 (.reg (.w 2))⟩),
    (0x9D10FF9039FF000000000001, ⟨false, 0, .kadvDrain 0 (.imm 1)⟩),
    (0x9E1001020304003FFFFFFFFF, ⟨false, 0, .hread (.two 0xFFFFFFFFF) .dev (.w 1) (.w 2) (.w 3) (.w 4)⟩),
    (0x9F00FFFFFFFF000000000000, ⟨false, 0, .hret⟩),
    (0xA000010243FF002800000000, ⟨false, 0, .msendQ .die .rel (.w 1) (.w 2) 3⟩),
    (0xA010010203FF000000000007, ⟨false, 0, .msendDep .core .rlx 7 (.w 1) (.w 2) (.w 3)⟩),
    (0xA020010243FF003000000000, ⟨false, 0, .msendSpec .dev .rlx (.w 1) (.w 2) 3⟩),
    (0xA100FFFFFFFF000000000000, ⟨false, 0, .mcommit⟩),
    (0xA200FFFFFFFF000000000000, ⟨false, 0, .mabort⟩),
    (0xA30041FFFFFF002400000000, ⟨false, 0, .mrecvPop .die .acq 1⟩),
    (0xA31001FFFFFF000000000000, ⟨false, 0, .mrecvCnt (.w 1)⟩),
    (0xA400010203FF283C00000004, ⟨false, 0, .amoAdd .n32 .dev Ord.ar (.w 1) ⟨.w 2, 4⟩ (.w 3)⟩),
    (0xA410010203FF283C00000004, ⟨false, 0, .amoAnd .n32 .dev Ord.ar (.w 1) ⟨.w 2, 4⟩ (.w 3)⟩),
    (0xA420010203FF283C00000004, ⟨false, 0, .amoOr .n32 .dev Ord.ar (.w 1) ⟨.w 2, 4⟩ (.w 3)⟩),
    (0xA430010203FF283C00000004, ⟨false, 0, .amoXor .n32 .dev Ord.ar (.w 1) ⟨.w 2, 4⟩ (.w 3)⟩),
    (0xA440010203FF283C00000004, ⟨false, 0, .amoMin .n32 .dev Ord.ar (.w 1) ⟨.w 2, 4⟩ (.w 3)⟩),
    (0xA450010203FF283C00000004, ⟨false, 0, .amoMax .n32 .dev Ord.ar (.w 1) ⟨.w 2, 4⟩ (.w 3)⟩),
    (0xA460010203FF283C00000004, ⟨false, 0, .amoSwap .n32 .dev Ord.ar (.w 1) ⟨.w 2, 4⟩ (.w 3)⟩),
    (0xA470010203FF413000000000, ⟨false, 0, .amoFadd .rtz .dev .rlx (.w 1) ⟨.w 2, 0⟩ (.w 3)⟩),
    (0xA50001020304003C00000000, ⟨false, 0, .cas .i64 .dev Ord.ar (.w 1) ⟨.w 2, 0⟩ (.w 3) (.w 4)⟩),
    (0xA600FFFFFFFF004800000000, ⟨false, 0, .fence .sys .rel⟩),
    (0xA730FF01FFFF000000000000, ⟨false, 0, .barm 3 (.reg (.w 1))⟩),
    (0xA82001FFFFFF002000000000, ⟨false, 0, .barr 2 .die (.w 1)⟩),
    (0xA920FFFFFFFF002000000000, ⟨false, 0, .barw 2 .die⟩)] = true := by decide +kernel

theorem test_decode_async_2 : decodesAll [
    (0xAA00FFFFFFFF000000000000, ⟨false, 0, .wfe⟩),
    (0xAB00FFFFFFFF000000000000, ⟨false, 0, .sevCore⟩),
    (0xAB10FF01FFFF000000000000, ⟨false, 0, .sevThr (.reg (.w 1))⟩),
    (0xAC00010203FF000000000000, ⟨false, 0, .gang (.w 1) (.w 2) (.w 3)⟩),
    (0xAD00FFFFFFFF000000000000, ⟨false, 0, .gdetach⟩),
    (0xAE00FFFFFFFF000000000000, ⟨false, 0, .gjoin⟩),
    (0xAF00010203FF301400000008, ⟨false, 0, .rld .n16 .row .acq (.w 1) ⟨.w 2, 8⟩ (.w 3)⟩),
    (0xB000FF020304401800000000, ⟨false, 0, .rst .f .row .rel ⟨.w 2, 0⟩ (.w 3) (.w 4)⟩),
    (0xB100010203FF0040FF000000, ⟨false, 0, .nsend 255 0 (.w 1) (.w 2) (.w 3)⟩),
    (0xB20001020304004801E00000, ⟨false, 0, .nput .rel 1 7 (.w 1) (.w 2) (.w 3) (.w 4)⟩),
    (0xB300010203040044FF000000, ⟨false, 0, .nget .acq 255 0 (.w 1) (.w 2) (.w 3) (.w 4)⟩),
    (0xB400010203FF0040FF600000, ⟨false, 0, .ncoll 255 3 (.w 1) (.w 2) (.w 3)⟩),
    (0xB5000139FFFF00000000003F, ⟨false, 0, .nstatPkts (.w 1) (.imm 63)⟩),
    (0xB5100139FFFF00000000003F, ⟨false, 0, .nstatMarks (.w 1) (.imm 63)⟩),
    (0xB5200139FFFF00000000003F, ⟨false, 0, .nstatRetx (.w 1) (.imm 63)⟩),
    (0xB5300139FFFF00000000003F, ⟨false, 0, .nstatRtt (.w 1) (.imm 63)⟩)] = true := by decide +kernel

theorem test_decode_system : decodesAll [
    (0xC0000139FFFF000000000000, ⟨false, 0, .sysr (.w 1) (.imm 0)⟩),
    (0xC100FF3901FF000000000004, ⟨false, 0, .sysw (.imm 4) (.reg (.w 1))⟩),
    (0xC200FFFFFFFF000000000000, ⟨false, 0, .tret⟩),
    (0xC300FF18FFFF000000000000, ⟨false, 0, .trap (.reg (.w 24))⟩),
    (0xC400FF39FFFF00000000000B, ⟨false, 0, .phintPt 11⟩),
    (0xC410BEFFFFFF000000000000, ⟨false, 0, .phintTest 6⟩),
    (0xC506FFFFFFFF000000000000, ⟨false, 6, .heatAck⟩),
    (0xC510FF39FFFF000000000008, ⟨false, 0, .heatCap (.imm 8)⟩),
    (0xC520FFFFFFFF000000000000, ⟨false, 0, .heatUncap⟩),
    (0xC600010203FF000000000000, ⟨false, 0, .wpres (.w 1) (.reg (.w 2)) (.reg (.w 3))⟩),
    (0xC700010203FF000000000000, ⟨false, 0, .wsplit (.w 1) (.reg (.w 2)) (.reg (.w 3))⟩),
    (0xC800010203FF000000000000, ⟨false, 0, .wdeleg (.w 1) (.reg (.w 2)) (.reg (.w 3))⟩),
    (0xC9003802FFFF000000000000, ⟨false, 0, .wsurr .zero (.reg (.w 2))⟩),
    (0xCA000102FFFF000000000000, ⟨false, 0, .wqryState (.w 1) (.reg (.w 2))⟩),
    (0xCA100102FFFF000000000000, ⟨false, 0, .wqryAmt (.w 1) (.reg (.w 2))⟩),
    (0xCA200102FFFF000000000000, ⟨false, 0, .wqryUsed (.w 1) (.reg (.w 2))⟩),
    (0xCA300102FFFF000000000000, ⟨false, 0, .wqrySerial (.w 1) (.reg (.w 2))⟩),
    (0xCA400102FFFF000000000000, ⟨false, 0, .wqryCtx (.w 1) (.reg (.w 2))⟩),
    (0xCA500102FFFF000000000000, ⟨false, 0, .wqryArg (.w 1) (.reg (.w 2))⟩),
    (0xCB0020FFFFFF000000000000, ⟨false, 0, .wtimeLo (.g 0)⟩),
    (0xCB1021FFFFFF000000000000, ⟨false, 0, .wtimeHi (.g 1)⟩),
    (0xCB2022FFFFFF000000000000, ⟨false, 0, .wtimeAge (.g 2)⟩),
    (0xCC00010239FF000000000001, ⟨false, 0, .xinv (.w 1) (.reg (.w 2)) (.imm 1)⟩),
    (0xCD000102FFFF000000000000, ⟨false, 0, .xprobe (.w 1) (.reg (.w 2))⟩),
    (0xCE0001020304000000000000, ⟨false, 0, .xmapNew (.w 1) (.reg (.w 2)) (.reg (.w 3)) (.reg (.w 4))⟩),
    (0xCE1001020304000000000000, ⟨false, 0, .xmapAttr (.w 1) (.reg (.w 2)) (.reg (.w 3)) (.reg (.w 4))⟩),
    (0xCF00010203FF000000000000, ⟨false, 0, .xunmap (.w 1) (.reg (.w 2)) (.reg (.w 3))⟩),
    (0xD000010239FF0000000000FF, ⟨false, 0, .svsave (.w 1) (.reg (.w 2)) (.imm 255)⟩),
    (0xD100010203FF000000000000, ⟨false, 0, .svload (.w 1) (.reg (.w 2)) (.reg (.w 3))⟩),
    (0xD2000102FFFF000000000000, ⟨false, 0, .svsize (.w 1) (.reg (.w 2))⟩),
    (0xD300FFFFFFFF000000000000, ⟨false, 0, .dbrk⟩),
    (0xD400FFFFFFFF000000000000, ⟨false, 0, .dstep⟩),
    (0xD5000102FFFF000000000000, ⟨false, 0, .cmark (.w 1) (.reg (.w 2))⟩),
    (0xD60001FFFFFF000000000000, ⟨false, 0, .hnote (.w 1)⟩),
    (0xD700FFFFFFFF000000000000, ⟨false, 0, .idle⟩)] = true := by decide +kernel

/-- Refused by the check named: no opcode, no function, no register of the position, a reserved field. -/
def refuses (w : IWord) (e : DecErr) : Bool := match decode w with | .error f => decide (f = e) | .ok _ => false

theorem test_refuse_opcode : refuses 0 (.opcode 0) = true ∧ refuses 0xFF00FFFFFFFF000000000000 (.opcode 0xFF) = true := by decide +kernel
theorem test_refuse_function : refuses 0x0110010203FF000000000000 (.function 0x01 1) = true := by decide +kernel
theorem test_refuse_operand : refuses 0x0100410203FF000000000000 (.operand 0 0x41) = true ∧ refuses 0x010001020303000000000000 (.operand 3 3) = true := by
  decide +kernel
theorem test_refuse_field : refuses 0x0100010203FF400000000000 (.field 0x400000000000) = true ∧
    refuses 0x0100010203FF000000000001 (.field 1) = true := by decide +kernel

/-- A word by its number, and the instruction that step runs from it (log 15). -/
theorem test_table_word : decodeTableWord 96 0x0100010203FF000000000000 = some (.add .i64 false (.w 1) (.reg (.w 2)) (.reg (.w 3))) ∧
    decodeTableWord 96 0 = none := by decide +kernel

/-! ### Well-formedness: each check refuses -/

theorem test_wf_types : ([.add .f false (.w 1) (.reg (.w 1)) (.reg (.w 1)), .abs .n8 false (.w 1) (.reg (.w 1)), .bext .i32 (.w 1) (.reg (.w 1)) (.reg (.w 1)), .sext .n8 (.w 1) (.reg (.w 1)), .zext .i8 (.w 1) (.reg (.w 1)), .cvt .s8 .i64 .rne false (.w 1) (.reg (.w 1)), .cvt .i64 .bf .rne false (.w 1) (.imm 1), .cmp .eq .e4m3 1 (.reg (.w 1)) (.reg (.w 1)), .vdiv .i8 .rne false (.v 1) (.v 2) (.v 3) none, .vand .f (.v 1) (.v 2) (.v 3) none, .vmov .q4 (.v 1) (.v 2) none, .vquant 0 .f .rne 1 (.v 2) (.imm 0) (.w 1), .amoAdd .i8 .dev .rlx (.w 1) ⟨.w 1, 0⟩ (.w 2), .cas .f .dev .rlx (.w 1) ⟨.w 1, 0⟩ (.w 2) (.w 3), .rld .e4m3 .dev .rlx (.w 1) ⟨.w 1, 0⟩ (.w 2), .mma .feed ⟨.i8, 0, false, 0, 0, 0, 0, false⟩ .zero 0] : List Instr).all (fun i => !i.wf) = true := by decide
theorem test_wf_immediates : ([.add .i64 false (.w 1) (.imm 1) (.imm 2), .madd .i64 false (.w 1) (.imm 1) (.reg (.w 1)) (.imm 2), .bins (.w 1) (.reg (.w 1)) (.imm 1) (.imm 2), .sel false (.w 1) (.imm 1) (.imm 2) 1, .sysw (.imm 1) (.imm 2), .tset (.imm 1) (.imm 1) (.imm 2), .xmapNew .zero (.imm 1) (.imm 2) (.imm 1), .vlanePut .i8 (.v 1) (.imm 1) (.imm 2)] : List Instr).all (fun i => !i.wf) = true := by decide
theorem test_wf_conditions : ([.setc .un .i64 (.w 1) (.reg (.w 1)) (.reg (.w 1)), .brc .un .i64 (.w 1) (.w 2) ⟨0, 0⟩, .cmp .un .i8 1 (.reg (.w 1)) (.reg (.w 1)), .vcmp .un .n8 1 (.v 1) (.v 2) none] : List Instr).all (fun i => !i.wf) = true := by decide
theorem test_wf_ports_and_rounding : ([.vadd .f .rne false (.q 1) (.v 2) (.v 3) (some 0), .vsel .i8 (.q 1) (.v 2) (.v 3) 0, .vadd .i8 .rtz false (.v 1) (.v 2) (.v 3) none, .vsum false .i8 .rne false (.s (.w 1)) (.v 1) none, .vsum true .f .rne false (.s .zero) (.v 1) none, .vdot true .f .rne false (.q 1) (.v 1) (.v 2) none, .vrmax false .f .rne false (.q 1) (.v 1) (some 1)] : List Instr).all (fun i => !i.wf) = true := by decide
theorem test_wf_orders : ([.ld .i64 .rne false .dev .rel (.w 1) ⟨.w 1, 0⟩ none, .st .i64 .rne false .dev .acq ⟨.w 1, 0⟩ none (.w 1), .vqst .rne .dev Ord.ar ⟨.w 1, 0⟩ (.v 1) (.w 1), .msendQ .dev .acq .zero (.w 1) 1, .mrecvPop .dev .rel 1, .fence .dev .rlx, .nput .acq 0 0 .zero (.w 1) (.w 2) (.w 3), .nget .rel 0 0 .zero (.w 1) (.w 2) (.w 3)] : List Instr).all (fun i => !i.wf) = true := by decide
theorem test_wf_ranges : ([.vcvt 4 .n8 .f .rne false (.v 1) (.v 2), .vquant 4 .e4m3 .rne 1 (.v 2) (.imm 0) (.w 1), .mgeom false 0x440 .zero (.w 1) (.w 2) (.w 3), .mslab 3 0 0 .zero (.w 1) (.w 2), .mma .feed ⟨.bf, 0, false, 7, 1, 0, 0, false⟩ .zero 0, .mmas .feed ⟨.bf, 0, false, 0, 0, 31, 1, false⟩ .zero 0, .mquant .f .rne false .dev (-128) .zero 0 (.w 1) (.w 2), .cpy2d true true .dev 0 0 .zero (.w 1) (.w 2) (.w 3)] : List Instr).all (fun i => !i.wf) = true := by decide

/-! ### Single instructions -/

/-- Readable, writable and executable, raw, under key 0: 64 KiB at 0x10000, and 64 KiB of code that is no data at 0x20000. -/
def dataPage : Pte := { va := 0x10000, lvl := 4, ctl := leafCtl 0 0 true true false true false rawAttr 0 0, loc := 0x10000 }
def codePage : Pte := { va := 0x20000, lvl := 4, ctl := leafCtl 0 0 false false true true false rawAttr 0 0, loc := 0x20000 }

/-- A task of one row of two cores, placed on logical cores 0 and 1. -/
def rigTask : Task :=
  { num := 0, entry := 0x20000, rows := 1, cols := 2, thr := 2, heat := .gale, spad := 1024, preds := [], st := .placed }

/-- A running context with one thread on core 0 and one, in gjoin, on core 1, which hold the engines; a line of code at 0x20000 whose five slots are legal targets; a
window of 4 KiB; and core 0 due for a clk. -/
def rig : State := { State.reset with
  th := { pc := 0x20000, started := true, wsp := 0x10000 }
  bd := { nthr := 2, lines := 8, base := 0, caps := BitVec.allOnes 64, heat := .gale, lee := true, lent := true }
  core := { holder := some 0, tlb := [⟨0, dataPage⟩], slots := Vector.replicate 64 (some (0, 0)) }
  cx := { slots := 8, quota := capReset, ptes := [dataPage, codePage], tasks := [rigTask], running := true }
  ths := [{ core := 1, pc := 0x20000, started := true, wait := some (.gjoin false) }]
  bds := [{ core := 1, nthr := 2, lines := 8, base := 0, caps := BitVec.allOnes 64, heat := .gale, lee := true, lent := true }]
  cores := [{ id := 1, holder := some 0 }]
  mem := [(0x2003C, 0x20), (0x2003D, 0x7C)]
  agenda := [.clk 0] }

/-- The rig with values in w registers of its window. -/
def rigW (l : List (Fin 32 × Word)) : State := l.foldl (fun s x => s.put (.w x.1) x.2) rig

def after (o : Host.Outcome State Fault Refusal) (p : State → Bool) : Bool := match o with | .next s => p s | _ => false

/-- Register w1 and the flags after an instruction on the rig with values in w2, w3 and w4. -/
def w1 (i : Instr) (a b c : Word) (x : Word) (f : Fl := 0) : Bool :=
  after (exec i (rigW [(2, a), (3, b), (4, c)])) fun s => decide (s.sreg (.w 1) = x) && decide (s.th.flags = f)

/-- The trap that an instruction takes, on a state with a handler. -/
def traps (i : Instr) (s : State) (cause val : Word) : Bool :=
  after (exec i { s with th := { s.th with tvec := 0x20000 } }) fun t =>
    decide (t.th.tcause = cause) && decide (t.th.tval = val) && t.th.handler && decide (t.th.pc = 0x20000) && decide (t.th.tepc = s.th.pc)

theorem test_add : w1 (.add .i8 false (.w 1) (.reg (.w 2)) (.reg (.w 3))) 0x7F 0x1 0x0 0xFFFFFFFFFFFFFF80 = true ∧ w1 (.add .n8 true (.w 1) (.reg (.w 2)) (.reg (.w 3))) 0xFF 0x1 0x0 0xFF Fl.is = true := by decide +kernel
theorem test_sub : w1 (.sub .n32 false (.w 1) (.reg (.w 2)) (.reg (.w 3))) 0x0 0x1 0x0 0xFFFFFFFF = true ∧ w1 (.sub .i32 true (.w 1) (.reg (.w 2)) (.reg (.w 3))) 0x80000000 0x1 0x0 0xFFFFFFFF80000000 Fl.is = true := by decide +kernel
theorem test_mul : w1 (.mul .i16 false (.w 1) (.reg (.w 2)) (.reg (.w 3))) 0x8000 0x8000 0x0 0x0 = true ∧ w1 (.mul .n16 true (.w 1) (.reg (.w 2)) (.reg (.w 3))) 0x8000 0x2 0x0 0xFFFF Fl.is = true := by decide +kernel
theorem test_mulh : w1 (.mulh .i64 (.w 1) (.reg (.w 2)) (.reg (.w 3))) 0xFFFFFFFFFFFFFFFF 0x2 0x0 0xFFFFFFFFFFFFFFFF = true ∧ w1 (.mulh .n64 (.w 1) (.reg (.w 2)) (.reg (.w 3))) 0xFFFFFFFFFFFFFFFF 0x2 0x0 0x1 = true := by decide +kernel
theorem test_madd : w1 (.madd .i64 false (.w 1) (.reg (.w 2)) (.reg (.w 3)) (.reg (.w 4))) 0x3 0xFFFFFFFFFFFFFFFC 0x5 0xFFFFFFFFFFFFFFF9 = true := by decide +kernel
theorem test_div : w1 (.div .i64 false (.w 1) (.reg (.w 2)) (.reg (.w 3))) 0xFFFFFFFFFFFFFFF9 0x2 0x0 0xFFFFFFFFFFFFFFFD = true ∧ w1 (.div .n8 false (.w 1) (.reg (.w 2)) (.reg (.w 3))) 0x9 0x0 0x0 0xFF Fl.dz = true ∧ w1 (.div .i8 true (.w 1) (.reg (.w 2)) (.reg (.w 3))) 0x80 0xFFFFFFFFFFFFFFFF 0x0 0x7F Fl.is = true := by decide +kernel
theorem test_rem : w1 (.rem .i64 (.w 1) (.reg (.w 2)) (.reg (.w 3))) 0xFFFFFFFFFFFFFFF9 0x2 0x0 0xFFFFFFFFFFFFFFFF = true ∧ w1 (.rem .i64 (.w 1) (.reg (.w 2)) (.reg (.w 3))) 0x5 0x0 0x0 0x5 Fl.dz = true := by decide +kernel
theorem test_abs : w1 (.abs .i8 false (.w 1) (.reg (.w 2))) 0x80 0x0 0x0 0xFFFFFFFFFFFFFF80 = true ∧ w1 (.abs .i8 true (.w 1) (.reg (.w 2))) 0x80 0x0 0x0 0x7F Fl.is = true := by decide +kernel
theorem test_min_max : w1 (.min .i64 (.w 1) (.reg (.w 2)) (.reg (.w 3))) 0xFFFFFFFFFFFFFFFF 0x1 0x0 0xFFFFFFFFFFFFFFFF = true ∧ w1 (.min .n64 (.w 1) (.reg (.w 2)) (.reg (.w 3))) 0xFFFFFFFFFFFFFFFF 0x1 0x0 0x1 = true ∧ w1 (.max .i64 (.w 1) (.reg (.w 2)) (.reg (.w 3))) 0xFFFFFFFFFFFFFFFF 0x1 0x0 0x1 = true := by decide +kernel
theorem test_logic : w1 (.and .i8 (.w 1) (.reg (.w 2)) (.reg (.w 3))) 0xF0 0x9C 0x0 0xFFFFFFFFFFFFFF90 = true ∧ w1 (.or .n8 (.w 1) (.reg (.w 2)) (.reg (.w 3))) 0xF0 0xC 0x0 0xFC = true ∧ w1 (.xor .i64 (.w 1) (.reg (.w 2)) (.reg (.w 3))) 0xFF 0xF 0x0 0xF0 = true ∧ w1 (.andn .i64 (.w 1) (.reg (.w 2)) (.reg (.w 3))) 0xFF 0xF 0x0 0xF0 = true := by decide +kernel
theorem test_shl : w1 (.shl .i8 false (.w 1) (.reg (.w 2)) (.reg (.w 3))) 0x1 0x8 0x0 0x0 = true ∧ w1 (.shl .i8 true (.w 1) (.reg (.w 2)) (.reg (.w 3))) 0x40 0x1 0x0 0x7F Fl.is = true := by decide +kernel
theorem test_shr_sar : w1 (.shr .n64 (.w 1) (.reg (.w 2)) (.reg (.w 3))) 0xFFFFFFFFFFFFFFFF 0x40 0x0 0x0 = true ∧ w1 (.sar .i64 (.w 1) (.reg (.w 2)) (.reg (.w 3))) 0xFFFFFFFFFFFFFFFE 0x40 0x0 0xFFFFFFFFFFFFFFFF = true ∧ w1 (.sar .n8 (.w 1) (.reg (.w 2)) (.reg (.w 3))) 0x80 0x1 0x0 0xC0 = true := by decide +kernel
theorem test_rot : w1 (.rot .n8 (.w 1) (.reg (.w 2)) (.reg (.w 3))) 0x81 0x9 0x0 0x3 = true := by decide +kernel
theorem test_counts : w1 (.clz .n32 (.w 1) (.reg (.w 2))) 0x1 0x0 0x0 0x1F = true ∧ w1 (.ctz .n8 (.w 1) (.reg (.w 2))) 0x0 0x0 0x0 0x8 = true ∧ w1 (.popc .i16 (.w 1) (.reg (.w 2))) 0xFFFFFFFFFFFFFFFF 0x0 0x0 0x10 = true := by decide +kernel
theorem test_reversals : w1 (.brev .n8 (.w 1) (.reg (.w 2))) 0x1 0x0 0x0 0x80 = true ∧ w1 (.bswap .n32 (.w 1) (.reg (.w 2))) 0x11223344 0x0 0x0 0x44332211 = true := by decide +kernel
theorem test_bext : w1 (.bext .i64 (.w 1) (.reg (.w 2)) (.reg (.w 3))) 0xF0 0x404 0x0 0xFFFFFFFFFFFFFFFF = true ∧ w1 (.bext .n64 (.w 1) (.reg (.w 2)) (.reg (.w 3))) 0xF0 0x404 0x0 0xF = true ∧ w1 (.bext .n64 (.w 1) (.reg (.w 2)) (.reg (.w 3))) 0xFFFFFFFFFFFFFFFF 0x7F3C 0x0 0xF = true := by decide +kernel
theorem test_bins : w1 (.bins (.w 1) (.reg (.w 2)) (.reg (.w 3)) (.reg (.w 4))) 0xFFFF 0x0 0x404 0xFF0F = true := by decide +kernel
theorem test_extensions : w1 (.sext .i8 (.w 1) (.reg (.w 2))) 0x80 0x0 0x0 0xFFFFFFFFFFFFFF80 = true ∧ w1 (.zext .n16 (.w 1) (.reg (.w 2))) 0xFFFFFFFFFFFFFFFF 0x0 0x0 0xFFFF = true := by decide +kernel
theorem test_moves : w1 (.mov .i64 (.s (.w 1)) (.s (.reg (.w 2)))) 0x4D 0x0 0x0 0x4D = true ∧ w1 (.movi (.w 1) 0x123456789ABCDEF0) 0x0 0x0 0x0 0x123456789ABCDEF0 = true := by decide +kernel
theorem test_setc : w1 (.setc .lt .i64 (.w 1) (.reg (.w 2)) (.reg (.w 3))) 0xFFFFFFFFFFFFFFFF 0x0 0x0 0x1 = true ∧ w1 (.setc .lt .n64 (.w 1) (.reg (.w 2)) (.reg (.w 3))) 0xFFFFFFFFFFFFFFFF 0x0 0x0 0x0 = true := by decide +kernel
theorem test_cvt : w1 (.cvt .f .i64 .rne false (.w 1) (.reg (.w 2))) 0x8C00 0x0 0x0 0x470C0000 = true := by decide +kernel
theorem test_lea : w1 (.lea .i64 (.w 1) ⟨.w 2, 0xFFFFFFFF⟩ (some (.w 3))) 0x1000 0x2 0x0 0x100F = true := by decide +kernel
theorem test_sel : w1 (.sel false (.w 1) (.reg (.w 2)) (.reg (.w 3)) 0) 0x5 0x6 0x0 0x5 = true ∧ w1 (.sel true (.w 1) (.reg (.w 2)) (.reg (.w 3)) 0) 0x5 0x6 0x0 0x6 = true := by decide +kernel
theorem test_cmp : after (exec (.cmp .lt .f 1 (.reg (.w 2)) (.reg (.w 3))) (rigW [(2, 0xBF800000), (3, 0)])) (fun s => s.th.p[1]) = true := by decide +kernel
theorem test_call : after (exec (.call ⟨0, 0⟩) rig) (fun s => decide (s.th.pc = 0x20000) && decide (s.th.wbase = 24) && decide (s.th.wvalid = 24) &&
    decide (s.sreg (.w 7) = 0x20001)) = true ∧ traps (.call ⟨1, 0⟩) rig 0x12 0x20040 = true := by decide +kernel
theorem test_ret : traps .ret rig 1 0 = true ∧ traps .ret (rigW [(7, 0x20000)]) 0x21 0 = true := by decide +kernel
theorem test_loop : after (exec (.loop 0 (.w 1) ⟨0, 2⟩) (rigW [(1, 3)])) (fun s => decide (s.th.lc[0] = 3) && decide (s.th.lend[0] = 0x20002) &&
    decide (s.th.lbeg[0] = 0x20001)) = true := by decide +kernel

/-- Vector registers v2 and v3 of the rig. -/
def rigV (a b : VWord) : State := { rig with th := { rig.th with v := (rig.th.v.set 2 a).set 3 b } }
def lane (s : State) (n w k : Nat) : Nat := s.th.v[n]!.toNat / 2 ^ (w * k) % 2 ^ w

/-- Lane 0 of v1, of a width, and the flags after an instruction on v2 and v3. -/
def v1 (i : Instr) (a b : VWord) (w x : Nat) (f : Fl := 0) : Bool :=
  after (exec i (rigV a b)) fun s => decide (lane s 1 w 0 = x) && decide (s.th.flags = f)

theorem test_vadd : v1 (.vadd .i8 .rne true (.v 1) (.v 2) (.v 3) none) 0x7F 1 8 0x7F Fl.is = true ∧
    v1 (.vadd .f .rne false (.v 1) (.v 2) (.v 3) none) 0x3F800000 0x33800000 32 0x3F800000 Fl.nx = true := by decide +kernel
theorem test_vmul : v1 (.vmul .f .rne false (.v 1) (.v 2) (.v 3) none) 0x40000000 0x40400000 32 0x40C00000 = true := by decide +kernel
/-- 1 over 0 in lane 0, 0 over 0 in the others. -/
theorem test_vdiv : v1 (.vdiv .f .rne false (.v 1) (.v 2) (.v 3) none) 0x3F800000 0 32 0x7F800000 (Fl.dz ||| Fl.nv) = true := by decide +kernel
theorem test_vsqrt : v1 (.vsqrt .f .rne false (.v 1) (.v 2) none) 0x40800000 0 32 0x40000000 = true ∧
    v1 (.vsqrt .h .rne false (.v 1) (.v 2) none) 0xBC00 0 16 0x7E00 Fl.nv = true := by decide +kernel
theorem test_vshuf : v1 (.vshuf .n8 (.v 1) (.v 2) (.v 3) none) 0x332211 0x02 8 0x33 = true := by decide +kernel
theorem test_vbcast : after (exec (.vbcast .i16 (.v 1) (.s (.imm 0xABCD)) none) rig) (fun s => decide (lane s 1 16 47 = 0xABCD)) = true := by decide +kernel
theorem test_vcmp : after (exec (.vcmp .lt .i8 1 (.v 2) (.v 3) none) (rigV 0xFF 0)) (fun s => decide (s.th.m[1] = 1)) = true := by decide +kernel
theorem test_vsum : after (exec (.vsum false .i32 .rne true (.s (.w 1)) (.v 2) none) (rigV 0x00000005FFFFFFFD 0)) (fun s => decide (s.sreg (.w 1) = 2)) = true := by
  decide +kernel
theorem test_vcvt : v1 (.vcvt 0 .bf .f .rne false (.v 1) (.v 2)) 0x3F808000 0 16 0x3F80 Fl.nx = true := by decide +kernel

/-- Lane 0 holds 3.1, and SB is 1.0: the block is stored with scale 0x85 and index 15, with no quantiser saturation (R124's example). -/
theorem test_vquant : after (exec (.vquant 0 .q4 .rne 1 (.v 2) (.imm 0x3F800000) (.w 1)) (rigV 0x40466666 0))
    (fun s => decide (s.sreg (.w 1) = 0x85) && decide (lane s 1 4 0 = 15) && !s.th.flags.getLsbD 6) = true := by decide +kernel

theorem test_ld : after (exec (.ld .i8 .rne false .dev .rlx (.w 1) ⟨.w 2, 0⟩ none) { rigW [(2, 0x10000)] with mem := (0x10000, 0x80) :: rig.mem })
    (fun s => decide (s.sreg (.w 1) = 0xFFFFFFFFFFFFFF80)) = true ∧
    traps (.ld .i16 .rne false .dev .rlx (.w 1) ⟨.w 2, 1⟩ none) (rigW [(2, 0x10000)]) 0x31 0x10001 = true := by decide +kernel
theorem test_st : after (exec (.st .n16 .rne false .dev .rlx ⟨.w 2, 0⟩ none (.w 3)) (rigW [(2, 0x1FFFE), (3, 0xBEEF)]))
    (fun s => decide (s.ownByte 0x1FFFE = 0xEF) && decide (s.ownByte 0x1FFFF = 0xBE)) = true ∧
    traps (.st .n16 .rne false .dev .rlx ⟨.w 2, 0⟩ none (.w 3)) (rigW [(2, 0x10001)]) 0x31 0x10001 = true := by decide +kernel

theorem test_sysr : after (exec (.sysr (.w 1) (.imm 0x41)) rig) (fun s => decide (s.sreg (.w 1) = 0)) = true ∧
    traps (.sysr (.w 1) (.imm 6)) rig 0x17 6 = true := by decide +kernel
theorem test_sysw : traps (.sysw (.imm 0) (.imm 1)) rig 0x17 0 = true ∧
    after (exec (.sysw (.imm 5) (.imm 9)) rig) (fun s => decide (s.th.tscratch = 9)) = true := by decide +kernel
/-- A software trap's tepc is the slot after it; a breakpoint's is its own. -/
theorem test_trap : after (exec (.trap (.imm 42)) { rig with th := { rig.th with tvec := 0x20000 } }) (fun t =>
    decide (t.th.tcause = 0x63) && decide (t.th.tval = 42) && decide (t.th.tepc = 0x20001)) = true ∧ traps .dbrk rig 0x64 0x20000 = true := by decide +kernel
theorem test_tret : after (exec .tret { rig with th := { rig.th with handler := true, tepc := 0x20003 } })
    (fun s => !s.th.handler && decide (s.th.pc = 0x20003)) = true ∧ traps .tret rig 0x60 0xC2 = true := by decide +kernel

theorem test_cpy_parks_a_future : after (exec (.cpyMem false .dev (.w 1) (.w 2) (.w 3) (.w 4)) (rigW [(2, 0x10000), (3, 0x11000), (4, 64)]))
    (fun s => decide (s.bd.copies.length = 1)) = true := by decide +kernel
theorem test_mzero : after (exec (.mzero 127 true .zero 0) rig) (fun s => decide (s.core.eng.queue.length = 1)) = true ∧
    traps (.mzero 127 true .zero 1) rig 0x40 0x8502 = true := by decide +kernel
theorem test_wqry : after (exec (.wqryState (.w 1) (.imm 7)) rig) (fun s => decide (s.sreg (.w 1) = 0)) = true := by decide +kernel

/-! ### A word from reset (log 15) -/

/-- add w21 <- zero, 0x40000 runs as the first instruction. -/
theorem test_first_step : after (step (State.reset.withFetchWord 96 0x0100153839FF000000040000))
    (fun s => decide (s.th.icount = 1) && decide (s.sreg (.w 21) = 0x40000) && decide (s.th.pc = 0x4000000001)) = true := by decide +kernel
/-- A word of zeros is the illegal-opcode trap, which ends the task, since no handler is installed. -/
theorem test_first_step_illegal : after (step (State.reset.withFetchWord 96 0)) (fun s => s.th.exited && decide (s.cx.failCause = 0x13)) = true := by
  decide +kernel
end Sys2Proof.Tests
end

