-- ==== Sys2Proof/Tests/Witness.lean ====
section
/-! SUPPORT. Witnesses: for each statement with hypotheses, small states and operands that meet those of its clauses, at the ends of their
ranges. -/
namespace Sys2Proof.Tests
open Sys2Proof Sys2Proof.Machine Sys2Proof.Ob
set_option Elab.async false

theorem ready {ds ss : List (BitVec 8)} {s : State}
    (h : (decide (s.iss.mode = Mode.single) && decide (s.iss.res = .done) &&
      decide ((s.present (ds.map (fun d => (true, d)) ++ ss.map fun a => (false, a))).toOption = some ()) && s.settled (ds ++ ss)) = true) :
    Ready ds ss s := by
  simp only [Bool.and_eq_true, decide_eq_true_eq] at h
  refine ⟨⟨h.1.1.1, h.1.1.2⟩, ?_, h.2⟩
  have h' := h.1.2
  revert h'
  cases s.present (ds.map (fun d => (true, d)) ++ ss.map fun a => (false, a)) <;> simp [Except.toOption]

/-- An operation that answers x. -/
theorem ok {ε α : Type} {x : Except ε α} {a : α} (h : x.toOption = some a) : x = .ok a := by
  cases x with
  | ok b => simpa [Except.toOption] using h
  | error e => simp [Except.toOption] at h

/-- The hypotheses of a clause: the operands are ready, and its condition holds of the state in which they are joined. -/
def Hyp (ds ss : List (BitVec 8)) (c : State → Prop) (s : State) : Prop := Ready ds ss s ∧ c (s.joined (ds ++ ss))

/-- An operation answers. -/
def Answered {α : Type} (x : Except Stop α) : Prop := ∃ a, x = .ok a

theorem answers {α : Type} {x : Except Stop α} (h : x.toOption.isSome = true) : Answered x := by
  cases x with
  | ok a => exact ⟨a, rfl⟩
  | error e => simp [Except.toOption] at h

/-- The hypotheses of a clause that holds whenever its readings answer. -/
def Met {α : Type} (ds ss : List (BitVec 8)) (f : State → Except Stop α) (s : State) : Prop :=
  Ready ds ss s ∧ Answered (f (s.joined (ds ++ ss)))

/-- As ready and Hyp, for what a matrix instruction, an asynchronous command and a ring instruction ask besides. -/
theorem matReady {ops : List (Bool × BitVec 8)} {ds ss : List (BitVec 8)} {s : State}
    (h : (decide (s.iss.mode = Mode.single) && decide (s.iss.res = .done) &&
      decide ((s.present (ds.map (fun d => (true, d)) ++ ss.map fun a => (false, a))).toOption = some ()) && s.settled (ds ++ ss)) = true)
    (h' : ((s.present ops).toOption == some () && s.th.eddy.isNone && s.holds) = true) : MatReady ops ds ss s := by
  simp only [Bool.and_eq_true, beq_iff_eq, Option.isNone_iff_eq_none] at h'
  exact ⟨ready h, ok h'.1.1, h'.1.2, h'.2⟩

theorem cmdReady {d : FDst} {ss : List (BitVec 8)} {s : State}
    (h : (decide (s.iss.mode = Mode.single) && decide (s.iss.res = .done) &&
      decide ((s.present (([] : List (BitVec 8)).map (fun d => (true, d)) ++ ss.map fun a => (false, a))).toOption = some ()) &&
      s.settled ([] ++ ss)) = true)
    (h' : ((s.present ((true, d.spec) :: ss.map fun a => (false, a))).toOption == some () && s.th.eddy.isNone) = true) : CmdReady d ss s := by
  simp only [Bool.and_eq_true, beq_iff_eq, Option.isNone_iff_eq_none] at h'
  exact ⟨ready h, ok h'.1, h'.2⟩

def MatHyp (ops : List (Bool × BitVec 8)) (ds ss : List (BitVec 8)) (c : State → Prop) (s : State) : Prop :=
  MatReady ops ds ss s ∧ c (matJoined ops (ds ++ ss) s)
def CmdHyp (d : FDst) (ss : List (BitVec 8)) (c : State → Prop) (s : State) : Prop := CmdReady d ss s ∧ c (s.joined ss)

theorem err {ε α : Type} {x : Except ε α} (h : x.toOption.isNone = true) : ∃ e, x = .error e := by
  cases x with
  | ok b => simp [Except.toOption] at h
  | error e => exact ⟨e, rfl⟩

theorem witness_ScalarArithmetic : Ready [(SDst.w 8).spec] [(SSrc.reg (.w 1)).spec, (SSrc.reg (.w 2)).spec, (SSrc.imm 3).spec] rig :=
  ready (by decide +kernel)

theorem witness_ScalarDivision :
    Hyp [(SDst.w 8).spec] [(SSrc.reg (.w 1)).spec, (SSrc.reg (.w 2)).spec] (fun j => j.int .i64 (.reg (.w 2)) ≠ 0) (rigW [(2, 1)]) ∧
    Hyp [(SDst.w 8).spec] [(SSrc.reg (.w 1)).spec, (SSrc.reg (.w 2)).spec] (fun j => j.int .i64 (.reg (.w 2)) = 0) rig :=
  ⟨⟨ready (by decide +kernel), by decide +kernel⟩, ready (by decide +kernel), by decide +kernel⟩

theorem witness_ScalarBits : Ready [(SDst.w 8).spec] [(SSrc.reg (.w 1)).spec, (SSrc.reg (.w 2)).spec, (SSrc.imm 3).spec] rig :=
  ready (by decide +kernel)

/-- Addresses just below and at 2⁵⁶; a word in a link register, and none; room at the next member of the chain, and a queue of words on
the way to it that leaves none. -/
theorem witness_ScalarMoves :
    Hyp [(SDst.w 8).spec] [(SReg.w 1).spec] (fun j => (leaAddr j .i64 ⟨.w 1, 0⟩ none).toNat < 2 ^ 56) (rigW [(1, 0x00FFFFFFFFFFFFFF)]) ∧
    Hyp [(SDst.w 8).spec] [(SReg.w 1).spec] (fun j => 2 ^ 56 ≤ (leaAddr j .i64 ⟨.w 1, 0⟩ none).toNat) (rigW [(1, 0x0100000000000000)]) ∧
    Hyp [(SDst.w 8).spec] [0xA8] (fun j => j.core.lnkw = some 7) { rig with core := { rig.core with lnkw := some 7 } } ∧
    Hyp [(SDst.w 8).spec] [0xA9] (fun j => j.core.lnke = some 7) { rig with core := { rig.core with lnke := some 7 } } ∧
    Hyp [(SDst.w 8).spec] [0xA8] (fun j => j.core.lnkw = none) rig ∧
    Hyp [0xA9] [(SSrc.reg (.w 1)).spec] (fun j => j.linkRoom (j.linkPeer true) true = true) rig ∧
    Hyp [0xA9] [(SSrc.reg (.w 1)).spec] (fun j => j.linkRoom (j.linkPeer true) true = false)
      { rig with pkts := [.link 1 0 true 0 0] } ∧
    Ready [0xB9] [0xBA, 0xBB, (SSrc.reg (.w 1)).spec] rig :=
  ⟨⟨ready (by decide +kernel), by decide +kernel⟩, ⟨ready (by decide +kernel), by decide +kernel⟩,
   ⟨ready (by decide +kernel), by decide +kernel⟩, ⟨ready (by decide +kernel), by decide +kernel⟩,
   ⟨ready (by decide +kernel), by decide +kernel⟩, ⟨ready (by decide +kernel), by decide +kernel⟩,
   ⟨ready (by decide +kernel), by decide +kernel⟩, ready (by decide +kernel)⟩

/-- 200 and 201 resident entries at a call, 24 and 23 at a return. -/
theorem witness_CallsAndWindows :
    (Hyp [0x1F] [] (fun j => j.checkTarget (j.tgt ⟨0, 1⟩) = .ok () ∧ j.th.wvalid ≤ 200) { rig with th := { rig.th with wvalid := 200 } }) ∧
    (Hyp [0x1F] [] (fun j => j.checkTarget (j.tgt ⟨0, 1⟩) = .ok () ∧ 200 < j.th.wvalid) { rig with th := { rig.th with wvalid := 201 } }) ∧
    (Hyp [0x1F] [(SReg.w 1).spec] (fun j => j.checkTarget (j.sreg (.w 1)) = .ok () ∧ j.th.wvalid ≤ 200) (rigW [(1, 0x20004)])) ∧
    (Hyp [] [0x07] (fun j => j.checkTarget (j.sreg (.w 7)) = .ok () ∧ 24 ≤ j.th.wvalid)
      { rigW [(7, 0x20000)] with th := { (rigW [(7, 0x20000)]).th with wvalid := 24 } }) ∧
    (Hyp [] [0x07] (fun j => j.checkTarget (j.sreg (.w 7)) = .ok () ∧ j.th.wvalid < 24)
      { rigW [(7, 0x20000)] with th := { (rigW [(7, 0x20000)]).th with wvalid := 23 } }) ∧
    (Fresh rig ∧ rig.th.eddy = none ∧ rig.checkTarget (rig.tgt ⟨0, 0⟩) = .ok ()) :=
  ⟨⟨ready (by decide +kernel), ok (by decide +kernel), by decide +kernel⟩, ⟨ready (by decide +kernel), ok (by decide +kernel), by decide +kernel⟩,
   ⟨ready (by decide +kernel), ok (by decide +kernel), by decide +kernel⟩, ⟨ready (by decide +kernel), ok (by decide +kernel), by decide +kernel⟩,
   ⟨ready (by decide +kernel), ok (by decide +kernel), by decide +kernel⟩, ⟨rfl, rfl⟩, rfl, ok (by decide +kernel)⟩

/-- A loop of count 0 and of count 1; a break of an inactive and of an active loop; a unit at the end of loop 1 and of loop 0 at their last
pass. -/
theorem witness_Loops :
    Hyp [] [(SReg.w 1).spec] (fun j => (j.sreg (.w 1)).setWidth 32 ≠ (0 : W32)) (rigW [(1, 1)]) ∧
    Hyp [] [(SReg.w 1).spec] (fun j => (j.sreg (.w 1)).setWidth 32 = (0 : W32) ∧ j.afterEnd (j.tgt ⟨0, 3⟩) = .ok 0x20004) rig ∧
    (Fresh rig ∧ rig.th.lc[(0 : Fin 2)] = 0) ∧
    (Fresh { rig with th := { rig.th with lc := #v[1, 0], lend := #v[0x20004, 0] } } ∧
      State.afterEnd { rig with th := { rig.th with lc := #v[1, 0], lend := #v[0x20004, 0] } } 0x20004 = .ok 0x20040) ∧
    (rig.iss.target = none ∧ rig.iss.pair = false ∧ rig.th.exited = false ∧ rig.th.tstep = false ∧ rig.th.lc = #v[0, 0]) ∧
    (let s : State := { rig with th := { rig.th with lc := #v[0, 1], lend := #v[0, 0x20000] } }
     s.iss.target = none ∧ s.iss.pair = false ∧ s.th.exited = false ∧ s.th.tstep = false ∧ s.th.lc = #v[0, 1] ∧ s.th.lend[1] = s.th.pc) ∧
    (let s : State := { rig with th := { rig.th with lc := #v[2, 0], lend := #v[0x20000, 0] } }
     s.iss.target = none ∧ s.iss.pair = false ∧ s.th.exited = false ∧ s.th.tstep = false ∧ s.th.lc = #v[2, 0] ∧ s.th.lend[0] = s.th.pc) :=
  ⟨⟨ready (by decide +kernel), by decide +kernel⟩, ⟨ready (by decide +kernel), by decide +kernel, ok (by decide +kernel)⟩, ⟨⟨rfl, rfl⟩, rfl⟩,
   ⟨⟨rfl, rfl⟩, ok (by decide +kernel)⟩, by decide +kernel, by decide +kernel, by decide +kernel⟩

/-- One entry resident and one asked for; all 24 asked for back; counts 0 and one too many. -/
theorem witness_SpillAndFill :
    (let s : State := { rigW [(1, 1)] with th := { (rigW [(1, 1)]).th with wvalid := 1, wsp := 0x1FFF8 } }
     Hyp [] [(SReg.w 1).spec] (fun j => 0 < (j.sreg (.w 1)).toNat ∧ (j.sreg (.w 1)).toNat ≤ j.th.wvalid ∧ j.th.w[j.th.below 0 0].fut = none ∧
       (j.words j.th.wsp true 1).toOption.isSome = true) s) ∧
    (let s : State := { rigW [(1, 224)] with th := { (rigW [(1, 224)]).th with wsp := 0x10700 } }
     Hyp [] [(SReg.w 1).spec] (fun j => 0 < (j.sreg (.w 1)).toNat ∧ (j.sreg (.w 1)).toNat ≤ 224 - j.th.wvalid ∧
       (j.words (j.th.wsp - BitVec.ofNat 64 (8 * 224)) false 224).toOption.isSome = true) s) ∧
    Hyp [] [(SReg.w 1).spec] (fun j => (j.sreg (.w 1)).toNat = 0) rig ∧
    Hyp [] [(SReg.w 1).spec] (fun j => j.th.wvalid < (j.sreg (.w 1)).toNat) (rigW [(1, 1)]) ∧
    Hyp [] [(SReg.w 1).spec] (fun j => 224 - j.th.wvalid < (j.sreg (.w 1)).toNat) (rigW [(1, 225)]) :=
  ⟨⟨ready (by decide +kernel), by decide +kernel⟩, ⟨ready (by decide +kernel), by decide +kernel⟩, ⟨ready (by decide +kernel), by decide +kernel⟩,
   ⟨ready (by decide +kernel), by decide +kernel⟩, ready (by decide +kernel), by decide +kernel⟩

theorem witness_ControlTransfers :
    Hyp [] [] (fun j => j.checkTarget (j.tgt ⟨0, 4⟩) = .ok ()) rig ∧
    Hyp [] [(SReg.w 1).spec, (SReg.w 2).spec]
      (fun j => condHolds .eq .i64 (wrapInt .i64 (j.int .i64 (.reg (.w 1)))) (wrapInt .i64 (j.int .i64 (.reg (.w 2)))) = true ∧
        j.checkTarget (j.tgt ⟨0, 4⟩) = .ok ()) rig ∧
    Hyp [] [(SReg.w 1).spec, (SReg.w 2).spec]
      (fun j => condHolds .ne .i64 (wrapInt .i64 (j.int .i64 (.reg (.w 1)))) (wrapInt .i64 (j.int .i64 (.reg (.w 2)))) = false) rig ∧
    Hyp [] [(SReg.w 1).spec] (fun j => j.checkTarget (j.sreg (.w 1)) = .ok ()) (rigW [(1, 0x20002)]) ∧
    (Fresh rig ∧ rig.th.eddy = none ∧ rig.th.gang = .none) ∧
    Fresh { rig with th := { rig.th with eddy := some ⟨0, Vector.replicate 4 0⟩ } } :=
  ⟨⟨ready (by decide +kernel), ok (by decide +kernel)⟩, ⟨ready (by decide +kernel), by decide +kernel, ok (by decide +kernel)⟩,
   ⟨ready (by decide +kernel), by decide +kernel⟩, ⟨ready (by decide +kernel), ok (by decide +kernel)⟩, ⟨⟨rfl, rfl⟩, rfl, rfl⟩, rfl, rfl⟩

/-- The rig with port 0 reading .f in rows of 2, and port 1 appending .f, from the data page. -/
def rigQ : State := { rig with th := { rig.th with
  q := #v[some ⟨false, .f, .rne, false, .core, 0x10000, 2, 4, 8, 0, 0⟩, some ⟨true, .f, .rne, false, .core, 0x10100, 24, 4, 96, 3, 0⟩,
    none, none, none, none, none, none] } }

/-- A register destination with a scalar source, and a port popped twice whose lanes are appended to another's last row. -/
theorem witness_VectorLanes :
    Met [(VDst.v 4).spec] [(VSrc.v 1).spec, (BSrc.s (.imm 7)).spec, specOf 0xB0 (2 : Fin 8)] (fun j => do
      let x ← j.vsrc [] .i16 48 (active j.src (some 2) 16) (.v 1)
      let y ← State.bsrc x.1 x.2.1 .i16 .rne false 48 (active j.src (some 2) 16) (.s (.imm 7))
      let r := merged j .i16 (some 2) (.v 4) (((x.2.2.zip y.2.2).zip (j.prior 16 48 (.v 4))).map fun z =>
        fitInt .i16 false (intOf .i16 z.1.1 + intOf .i16 z.1.2))
      (y.1.flag r.2).vdst .i16 r.1 (.v 4)) rig ∧
    Met [(VDst.q 1).spec] [(VSrc.q 0).spec, (BSrc.q 0).spec] (fun j => do
      let x ← j.vsrc [] .f 24 (active j.src none 32) (.q 0)
      let y ← State.bsrc x.1 x.2.1 .f .rne false 24 (active j.src none 32) (.q 0)
      let r := merged j .f none (.q 1) (((x.2.2.zip y.2.2).zip (j.prior 32 24 (.q 1))).map fun z => fBin .f .rne false Val.mul z.1.1 z.1.2)
      (y.1.flag r.2).vdst .f r.1 (.q 1)) rigQ ∧
    Met [(VDst.q 1).spec] [(VSrc.q 0).spec] (fun j => do
      let x ← j.vsrc [] .f 24 (active j.src none 32) (.q 0)
      let r := merged j .f none (.q 1) (x.2.2.map (fUn .f .rne false Val.sqrt))
      (x.1.flag r.2).vdst .f r.1 (.q 1)) rigQ :=
  ⟨⟨ready (by decide +kernel), answers (by decide +kernel)⟩, ⟨ready (by decide +kernel), answers (by decide +kernel)⟩,
   ready (by decide +kernel), answers (by decide +kernel)⟩

theorem witness_VectorMoves :
    Met [specOf 0xB0 (1 : Fin 8)] [(VSrc.q 0).spec, (BSrc.v 3).spec] (fun j => do
      let p ← j.vsrc [] .f 24 (active j.src none 32) (.q 0)
      State.bsrc p.1 p.2.1 .f .rne false 24 (active j.src none 32) (.v 3)) rigQ ∧
    Met [(VDst.q 1).spec] [(VSrc.v 2).spec, (BSrc.v 3).spec, specOf 0xB0 (1 : Fin 8)] (fun j => do
      let p ← j.vsrc [] .f 24 (fun _ => true) (.v 2)
      let q ← State.bsrcQuiet p.1 p.2.1 .f 24 (fun _ => true) (.v 3)
      q.1.vdst .f ((p.2.2.zip q.2.2).zipIdx.map fun z => if active j.src (some 1) 32 z.2 then z.1.1 else z.1.2) (.q 1)) rigQ ∧
    Met [(VDst.v 5).spec] [(VSrc.v 2).spec, (VSrc.q 0).spec] (fun j => do
      let p ← j.vsrc [] .f 24 (active j.src none 32) (.v 2)
      let q ← State.vsrc p.1 p.2.1 .f 24 (active j.src none 32) (.q 0)
      q.1.vdst .f (merged j .f none (.v 5) (q.2.2.map fun i => (p.2.2.getD (i % 24) 0, 0))).1 (.v 5)) rigQ ∧
    Met [(VDst.q 1).spec] [(BSrc.s (.imm 1)).spec] (fun j => do
      let p ← j.bsrc [] .f .rne false 24 (active j.src none 32) (.s (.imm 1))
      p.1.vdst .f (merged j .f none (.q 1) (p.2.2.map fun i => (i, 0))).1 (.q 1)) rigQ ∧
    Met [(SDst.w 1).spec] [(VSrc.q 0).spec, (SSrc.imm 23).spec] (fun j => j.vsrc [] .f 24 (fun _ => true) (.q 0)) rigQ ∧
    Ready [specOf 0x40 (63 : Fin 64)] [(SSrc.reg (.w 1)).spec, (SSrc.imm 23).spec] rig :=
  ⟨⟨ready (by decide +kernel), answers (by decide +kernel)⟩, ⟨ready (by decide +kernel), answers (by decide +kernel)⟩,
   ⟨ready (by decide +kernel), answers (by decide +kernel)⟩, ⟨ready (by decide +kernel), answers (by decide +kernel)⟩,
   ⟨ready (by decide +kernel), answers (by decide +kernel)⟩, ready (by decide +kernel)⟩

/-- A reduction into a port, with its identity where no lane is active, and a dot product onto an old value. -/
theorem witness_Reductions :
    Met [(RDst.q 1).spec] [(VSrc.v 2).spec, specOf 0xB0 (1 : Fin 8)] (fun j => do
      let x ← j.vsrc [] .f 24 (active j.src (some 1) 32) (.v 2)
      let node (p q : Nat × Fl) : Nat × Fl := ((fBin .f .rne false (Val.add .rne) p.1 q.1).1, p.2 ||| q.2)
      let r := reduceAll node (signBit .f true, 0) (x.2.2.zipIdx.map fun y =>
        (if active j.src (some 1) 32 y.2 then y.1 else signBit .f true, (0 : Fl))) none
      (x.1.flag r.2).rdst .f r.1 (.q 1)) rigQ ∧
    Met [(RDst.s (.w 3)).spec] [(VSrc.q 0).spec, (VSrc.v 2).spec] (fun j => do
      let x ← j.vsrc [] .f 24 (active j.src none 32) (.q 0)
      let y ← State.vsrc x.1 x.2.1 .f 24 (active j.src none 32) (.v 2)
      let r := reduceAll (dotFlt .f .rne false) (.zero true, 0)
        ((x.2.2.zip y.2.2).zipIdx.map fun z => if active j.src none 32 z.2 then dotLeaf .f z.1.1 z.1.2 else (.zero true, 0))
        (some (valueOf .f (j.priorCode .f (.s (.w 3))), 0))
      (y.1.flag r.2).rdst .f (roundF .f .rne false r.1).1 (.s (.w 3))) rigQ :=
  ⟨⟨ready (by decide +kernel), answers (by decide +kernel)⟩, ready (by decide +kernel), answers (by decide +kernel)⟩

theorem witness_PlanesAndQuantiser :
    Met [(VDst.v 1).spec] [(VSrc.v 2).spec, (VSrc.v 3).spec] (fun j => do
      let p ← j.vsrc [] .n8 96 (fun _ => true) (.v 2)
      let q ← State.vsrc p.1 p.2.1 .n8 96 (fun _ => true) (.v 3)
      q.1.vdst .n8 q.2.2 (.v 1)) rig ∧
    Met [specOf 0x40 (1 : Fin 64)] [(VSrc.v 2).spec] (fun j => j.vsrc [] .n8 96 (fun _ => true) (.v 2)) rig ∧
    Met [(VDst.v 1).spec] [(VSrc.v 2).spec] (fun j => j.vsrc [] .q4 (cvtLanes .q4) (fun _ => true) (.v 2)) rig ∧
    Met [specOf 0x40 (1 : Fin 64), (FReg.w 31).spec] [(VSrc.q 0).spec, (SSrc.imm 0x3F800000).spec]
      (fun j => j.vsrc [] .f 24 (fun _ => true) (.q 0)) rigQ :=
  ⟨⟨ready (by decide +kernel), answers (by decide +kernel)⟩, ⟨ready (by decide +kernel), answers (by decide +kernel)⟩,
   ⟨ready (by decide +kernel), answers (by decide +kernel)⟩, ready (by decide +kernel), answers (by decide +kernel)⟩

/-- The last element of the page for a load, the last row of lanes for a vector load, and a gather under an index register. -/
theorem witness_Loads :
    Met [(SDst.w 2).spec] [(SReg.w 1).spec] (fun j => do
      let e ← j.elem .i64 (j.sreg (.w 1) + (0 : W32).signExtend 64) (j.index none) false
      j.elemReady false e) (rigW [(1, 0x1FFF8)]) ∧
    Met [specOf 0x40 (2 : Fin 64)] [(SReg.w 1).spec, (SReg.w 3).spec] (fun j =>
      j.elems .f (j.sreg (.w 1) + (0 : W32).signExtend 64) false
        (((List.range 24).filter fun i => active j.src none 32 i).map fun i => (i, j.index (some (.w 3)) + i))) (rigW [(1, 0x10000), (3, 16360)]) ∧
    Met [specOf 0x40 (2 : Fin 64)] [(SReg.w 1).spec, (VSrc.v 4).spec] (fun j => do
      let y ← j.vsrc [] .f 24 (fun i => active j.src none 32 i) (.v 4)
      y.1.elems .f (j.sreg (.w 1) + (0 : W32).signExtend 64) false
        (((List.range 24).filter fun i => active j.src none 32 i).map fun i => (i, signedLane 32 (y.2.2.getD i 0)))) (rigW [(1, 0x10000)]) :=
  ⟨⟨ready (by decide +kernel), answers (by decide +kernel)⟩, ⟨ready (by decide +kernel), answers (by decide +kernel)⟩,
   ready (by decide +kernel), answers (by decide +kernel)⟩

theorem witness_Stores :
    Met [] [(SReg.w 1).spec, (SReg.w 2).spec] (fun j => do
      let e ← j.elem .i64 (j.sreg (.w 1) + (0 : W32).signExtend 64) (j.index none) true
      j.elemReady true e
      j.storeElems .i64 .rne false .core false none [(e, (j.sreg (.w 2)).toNat)]) (rigW [(1, 0x1FFF8)]) ∧
    Met [] [(SReg.w 1).spec, (VSrc.v 4).spec] (fun j => do
      let y ← j.vsrc [] .f 24 (fun _ => true) (.v 4)
      let es ← y.1.elems .f (j.sreg (.w 1) + (0 : W32).signExtend 64) true
        (((List.range 24).filter fun _ => true).map fun i => (i, j.index none + i))
      y.1.storeElems .f .rne false .core true none (es.map fun z => (z.2, y.2.2.getD z.1 0))) (rigW [(1, 0x00FFFFFFFFF80000)]) ∧
    Met [] [specOf 0xB0 (1 : Fin 8), (SReg.w 1).spec, (VSrc.v 4).spec, (VSrc.q 0).spec] (fun j => do
      let y ← j.vsrc [] .f 24 (fun i => active j.src (some 1) 32 i) (.v 4)
      let z ← State.vsrc y.1 y.2.1 .f 24 (fun i => active j.src (some 1) 32 i) (.q 0)
      let es ← z.1.elems .f (j.sreg (.w 1) + (0 : W32).signExtend 64) true
        (((List.range 24).filter fun i => active j.src (some 1) 32 i).map fun i => (i, signedLane 32 (y.2.2.getD i 0)))
      z.1.storeElems .f .rne false .core false none (es.map fun w => (w.2, z.2.2.getD w.1 0)))
      { rigQ with th := { (rigQ.put (.w 1) 0x10000).th with m := Vector.replicate 8 0x0F } } ∧
    (let e : Pte := { va := 0x10000, lvl := 4, ctl := leafCtl 0 0 true true false true false 0x2C1 0 0, loc := 0x10000 }
     Met [] [(SReg.w 1).spec, (VSrc.v 4).spec, (SReg.w 2).spec] (fun j => do
       let y ← j.vsrc [] .f 24 (fun _ => true) (.v 4)
       let r ← y.1.blockAt (j.sreg (.w 1) + (0 : W32).signExtend 64) y.2.2 ((j.sreg (.w 2)).toNat % 2 ^ 32) .rne
       y.1.scoreAll (r.1.map fun z => (z.1.va, 1)))
       { rigW [(1, 0x10000)] with core := { rig.core with tlb := [⟨0, e⟩] }, cx := { rig.cx with ptes := [e] } }) :=
  ⟨⟨ready (by decide +kernel), answers (by decide +kernel)⟩, ⟨ready (by decide +kernel), answers (by decide +kernel)⟩,
   ⟨ready (by decide +kernel), answers (by decide +kernel)⟩, ready (by decide +kernel), answers (by decide +kernel)⟩

/-- A port bound with rows of 2³² - 1 elements; a seek to the end; an unbound port; the first and the last tag entry. -/
theorem witness_PortsAndTags :
    Hyp [0x80] [(SSrc.reg (.w 1)).spec, (SSrc.reg (.w 2)).spec, (SSrc.reg (.w 3)).spec]
      (fun j => 0 < (j.n64 (.reg (.w 2))).toNat ∧ (j.n64 (.reg (.w 2))).toNat < 2 ^ 32 ∧ ((j.n64 (.reg (.w 3))).extractLsb' 0 32).toNat ≠ 0 ∧
        (j.n64 (.reg (.w 1))).toNat < 2 ^ 56 ∧ j.appending 0 = false) (rigW [(1, 0x00FFFFFFFFFFFFFF), (2, 0xFFFFFFFF), (3, 1)]) ∧
    Hyp [0x80] [(SSrc.reg (.w 1)).spec, (SSrc.reg (.w 2)).spec, (SSrc.reg (.w 3)).spec]
      (fun j => (j.n64 (.reg (.w 2))).toNat = 0 ∨ 2 ^ 32 ≤ (j.n64 (.reg (.w 2))).toNat ∨ ((j.n64 (.reg (.w 3))).extractLsb' 0 32).toNat = 0) rig ∧
    Hyp [] [0x80] (fun j => j.appending 0 = false) rigQ ∧
    Hyp [] [0x80, (SSrc.reg (.w 2)).spec, (SSrc.reg (.w 3)).spec] (fun j =>
      j.th.q[(0 : Fin 8)] = some ⟨false, .f, .rne, false, .core, 0x10000, 2, 4, 8, 0, 0⟩ ∧ (j.n64 (.reg (.w 3))).toNat < 2 ∧
        ((j.n64 (.reg (.w 2))).toNat < 4 ∨ (j.n64 (.reg (.w 2))).toNat = 4 ∧ (j.n64 (.reg (.w 3))).toNat = 0)) (rigQ.put (.w 2) 4) ∧
    Hyp [] [0x82] (fun j => j.th.q[(2 : Fin 8)] = none) rigQ ∧ Ready [(SDst.w 1).spec] [0x80] rigQ ∧
    Hyp [] [0x80] (fun j => j.th.q[(0 : Fin 8)] ≠ none ∧ j.appending 0 = false ∧ j.reqs.any j.owns = false) rigQ ∧
    Hyp [(SDst.w 2).spec] [(SSrc.reg (.w 1)).spec] (fun j => j.holds = true ∧ (j.n64 (.reg (.w 1))).toNat < 2 ^ 56) rig ∧
    Hyp [(SDst.w 2).spec] [(SSrc.reg (.w 1)).spec] (fun j => j.holds = false) { rig with core := { rig.core with holder := none } } ∧
    Hyp [] [(SSrc.reg (.w 1)).spec, (SSrc.reg (.w 2)).spec, (SSrc.reg (.w 3)).spec] (fun j => j.holds = true ∧
      (j.n64 (.reg (.w 1))).toNat < 512 ∧ (j.n64 (.reg (.w 2))).toNat < 2 ^ 56 ∧ (j.n64 (.reg (.w 3))).toNat < j.bd.winSize / 512)
      (rigW [(1, 511), (2, 0x00FFFFFFFFFFFFFF), (3, 7)]) ∧
    Hyp [] [(SSrc.reg (.w 1)).spec, (SSrc.reg (.w 2)).spec, (SSrc.reg (.w 3)).spec] (fun j => j.holds = true ∧ 511 < (j.n64 (.reg (.w 1))).toNat)
      (rigW [(1, 512)]) ∧
    Hyp [] [(SSrc.reg (.w 1)).spec] (fun j => j.holds = true ∧ (j.n64 (.reg (.w 1))).toNat < 512) (rigW [(1, 511)]) ∧
    Hyp [] [(SSrc.reg (.w 1)).spec] (fun j => j.holds = true ∧ (j.n64 (.reg (.w 1))).toNat < 2 ^ 56) rig ∧ Hyp [] [] (fun j => j.holds = true) rig :=
  ⟨⟨ready (by decide +kernel), by decide +kernel⟩,
   ⟨ready (by decide +kernel), by decide +kernel⟩, ⟨ready (by decide +kernel), by decide +kernel⟩, ⟨ready (by decide +kernel), by decide +kernel⟩,
   ⟨ready (by decide +kernel), by decide +kernel⟩, ready (by decide +kernel), ⟨ready (by decide +kernel), by decide +kernel⟩,
   ⟨ready (by decide +kernel), by decide +kernel⟩, ⟨ready (by decide +kernel), by decide +kernel⟩, ⟨ready (by decide +kernel), by decide +kernel⟩,
   ⟨ready (by decide +kernel), by decide +kernel⟩, ⟨ready (by decide +kernel), by decide +kernel⟩, ⟨ready (by decide +kernel), by decide +kernel⟩,
   ready (by decide +kernel), by decide +kernel⟩

/-- The rig with a tile of 128 rows, wide, and one of 1 row, narrow; slab 0 named .q4; 127 in w1. -/
def rigM : State := { rigW [(1, 127), (2, 128)] with
  core := { rig.core with
    eng := {
      acc := #v[{ valid := true, rows := 128, wide := true }, { valid := true, rows := 1 }, {}, {}]
      slabIssued := #v[some .q4, none] } } }

/-- The same with its queue full: two commands that wait. -/
def rigMq : State := rigM.setEng { rigM.core.eng with queue := List.replicate 2 { tag := 1, thr := 0, op := .link .src } }

/-- The first rows of the feed. -/
def feed (rg ng1 : Fin 32) (half both : Bool) : MmaF := ⟨.q4, 0, half, 0, 0, rg, ng1, both⟩

/-- Room for one range in an empty scoreboard and in one of 15, none in one of 16, and none in a full queue. -/
theorem witness_MatrixOperands :
    let ss := [(SReg.w 1).spec, (SReg.w 2).spec, (SReg.w 3).spec]
    let with_ (n : Nat) : State := { rigM with th := { rigM.th with rngs := List.replicate n (extent 1 0 64) } }
    MatHyp (opsD .zero ss) [] ss (fun j => MatRoom j 1) rig ∧ MatHyp (opsD .zero ss) [] ss (fun j => MatRoom j 1) (with_ 15) ∧
    MatHyp (opsD .zero ss) [] ss (fun j => ¬ MatRoom j 1) (with_ 16) ∧ MatHyp (opsD .zero ss) [] ss (fun j => ¬ MatRoom j 0) rigMq ∧
    MatReady (opsD (.w 5) [(SReg.w 1).spec, (SReg.w 2).spec]) [] [(SReg.w 1).spec, (SReg.w 2).spec] rig ∧
    (let s : State := { rig with core := { rig.core with holder := none } }
     Fresh s ∧ s.present (opsD .zero ss) = .ok () ∧ s.th.eddy = none ∧ s.holds = false) :=
  ⟨⟨matReady (by decide +kernel) (by decide +kernel), by unfold MatRoom; decide +kernel⟩,
   ⟨matReady (by decide +kernel) (by decide +kernel), by unfold MatRoom; decide +kernel⟩,
   ⟨matReady (by decide +kernel) (by decide +kernel), by unfold MatRoom; decide +kernel⟩,
   ⟨matReady (by decide +kernel) (by decide +kernel), by unfold MatRoom; decide +kernel⟩,
   matReady (by decide +kernel) (by decide +kernel), ⟨rfl, rfl⟩, ok (by decide +kernel), rfl, rfl⟩

/-- The last row group of a tile of 128 rows (7 of 8 at 16 rows to a step), and one past it; both halves of a wide and of a narrow tile; an
invalid tile; a register feed of an even register, of an odd one, and of two blocks. -/
theorem witness_MatrixStepCommands :
    let ops (t : Fin 4) (src : MmaSrc) := opsD .zero (tSpec t :: feedOps src)
    let g (f : MmaF) (j : State) : Nat := rowsPerStep f.t ((j.core.eng.slabIssued[if f.both then (0 : Fin 2) else f.slot]).getD f.t)
    let fits (f : MmaF) (t : Fin 4) (j : State) : Prop :=
      (f.rg.val + f.ng1.val) * g f j < (j.core.eng.acc[t].rows + g f j - 1) / g f j * g f j
    let wide (f : MmaF) (t : Fin 4) (j : State) : Prop := (f.half || f.both) = true → j.core.eng.acc[t].wide = true
    MatHyp (ops 0 .feed) [] [] (fun j => (Valid 0 j ∧ fits (feed 0 7 false true) 0 j ∧ wide (feed 0 7 false true) 0 j) ∧ MatRoom j 0) rigM ∧
    MatHyp (ops 0 .feed) [] [] (fun j => ¬ MatRoom j 0) rigMq ∧
    MatHyp (ops 2 .feed) [] [] (fun j => ¬ Valid 2 j) rigM ∧
    MatHyp (ops 0 .feed) [] [] (fun j => Valid 0 j ∧ ¬ fits (feed 0 8 false false) 0 j) rigM ∧
    MatHyp (ops 1 .feed) [] [] (fun j => Valid 1 j ∧ fits (feed 0 0 false true) 1 j ∧ ¬ wide (feed 0 0 false true) 1 j) rigM ∧
    MatHyp (ops 1 .feed) [] [] (fun j => Valid 1 j ∧ fits (feed 0 0 true false) 1 j ∧ ¬ wide (feed 0 0 true false) 1 j) rigM ∧
    MatHyp (ops 0 (.regs 2 4)) [] [] (fun j => Valid 0 j ∧ fits (feed 7 0 false false) 0 j) rigM ∧ feedOk (feed 7 0 false false) (.regs 2 4) ∧
    MatReady (ops 0 (.reg 3)) [] [] rigM ∧ ¬ feedOk (feed 7 0 false false) (.reg 3) ∧ ¬ feedOk (feed 6 1 false false) (.reg 2) :=
  ⟨⟨matReady (by decide +kernel) (by decide +kernel), by unfold MatRoom Valid; decide +kernel⟩,
   ⟨matReady (by decide +kernel) (by decide +kernel), by unfold MatRoom; decide +kernel⟩,
   ⟨matReady (by decide +kernel) (by decide +kernel), by unfold Valid; decide +kernel⟩,
   ⟨matReady (by decide +kernel) (by decide +kernel), by unfold Valid; decide +kernel⟩,
   ⟨matReady (by decide +kernel) (by decide +kernel), by unfold Valid; decide +kernel⟩,
   ⟨matReady (by decide +kernel) (by decide +kernel), by unfold Valid; decide +kernel⟩,
   ⟨matReady (by decide +kernel) (by decide +kernel), by unfold Valid; decide +kernel⟩, by unfold feedOk; decide,
   matReady (by decide +kernel) (by decide +kernel), by unfold feedOk; decide, by unfold feedOk; decide⟩

/-- A tile of 128 wide rows shaped at tile 0 and at tile 2, which leaves none; the last row and group of one, and the row past it; a block's
address at and below 2⁵⁶; tiles alike and not; a row past the end of the lanes' chain. -/
theorem witness_MatrixTiles :
    let row_ (r : Nat) (j : State) : Nat := (BitVec.ofNat 64 r + j.sreg (.w 1)).toNat
    let inside (r grp : Nat) (j : State) : Prop := row_ r j < j.core.eng.acc[(0 : Fin 4)].rows ∧ 24 * grp < j.core.eng.acc[(0 : Fin 4)].cols
    let alike (t u : Fin 4) (j : State) : Prop :=
      j.core.eng.acc[t].rows = j.core.eng.acc[u].rows ∧ j.core.eng.acc[t].wide = j.core.eng.acc[u].wide
    let wr := opsD .zero [tSpec 0, specOf 0x40 (1 : Fin 64), (SReg.w 1).spec]
    let qu := opsD (.w 3) [tSpec 0, (SReg.w 1).spec, (SReg.w 2).spec]
    let qs := [(SReg.w 1).spec, (SReg.w 2).spec]
    let s4 : State := rigM.setEng { rigM.core.eng with acc := Vector.replicate 4 { valid := true, rows := 4 } }
    (MatReady (opsD .zero [tSpec 0]) [] [] rigM ∧ (0 : Fin 4).val + (((127 : Fin 128).val + 1) * tileCols true + 2047) / 2048 ≤ 4) ∧
    (MatReady (opsD .zero [tSpec 1]) [] [] rigM ∧ 4 < (1 : Fin 4).val + (((127 : Fin 128).val + 1) * tileCols true + 2047) / 2048) ∧
    MatHyp wr [] [(SReg.w 1).spec] (fun j => Valid 0 j ∧ inside 0 2 j) rigM ∧ MatHyp wr [] [(SReg.w 1).spec] (fun j => Valid 0 j ∧ ¬ inside 1 2 j) rigM ∧
    MatHyp qu [] qs (fun j => (Valid 0 j ∧ (j.sreg (.w 1)).toNat < 2 ^ 56) ∧ MatRoom j 1) (rigM.put (.w 1) 0x00FFFFFFFFFFFFFF) ∧
    MatHyp qu [] qs (fun j => Valid 0 j ∧ 2 ^ 56 ≤ (j.sreg (.w 1)).toNat) (rigM.put (.w 1) 0x0100000000000000) ∧
    MatHyp (opsD .zero [tSpec 0, tSpec 1]) [] [] (fun j => Valid 0 j ∧ Valid 1 j ∧ alike 0 1 j) s4 ∧
    MatHyp (opsD .zero [tSpec 0, tSpec 1]) [] [] (fun j => Valid 0 j ∧ Valid 1 j ∧ ¬ alike 0 1 j) rigM ∧
    MatHyp (opsD .zero [tSpec 0, tSpec 2]) [] [] (fun j => Valid 0 j ∧ ¬ Valid 2 j) rigM ∧
    MatHyp (opsD .zero []) [] [] (fun j => j.laneEnd .src = false) rigM ∧ MatHyp (opsD .zero []) [] [] (fun j => j.laneEnd .fin = true) rigM :=
  ⟨⟨matReady (by decide +kernel) (by decide +kernel), by decide +kernel⟩, ⟨matReady (by decide +kernel) (by decide +kernel), by decide +kernel⟩,
   ⟨matReady (by decide +kernel) (by decide +kernel), by unfold Valid; decide +kernel⟩,
   ⟨matReady (by decide +kernel) (by decide +kernel), by unfold Valid; decide +kernel⟩,
   ⟨matReady (by decide +kernel) (by decide +kernel), by unfold Valid MatRoom; decide +kernel⟩,
   ⟨matReady (by decide +kernel) (by decide +kernel), by unfold Valid; decide +kernel⟩,
   ⟨matReady (by decide +kernel) (by decide +kernel), by unfold Valid; decide +kernel⟩,
   ⟨matReady (by decide +kernel) (by decide +kernel), by unfold Valid; decide +kernel⟩,
   ⟨matReady (by decide +kernel) (by decide +kernel), by unfold Valid; decide +kernel⟩,
   ⟨matReady (by decide +kernel) (by decide +kernel), by decide +kernel⟩, ⟨matReady (by decide +kernel) (by decide +kernel), by decide +kernel⟩⟩

/-- The last row and the last column of a tile of 128 wide rows, the row past the last, a queue that is not empty; no command of the thread's
in the queue, and one. -/
theorem witness_MatrixReads :
    let ops := [(true, specOf 0x40 (1 : Fin 64)), (false, tSpec 0), (false, (SReg.w 1).spec)]
    let acc (j : State) := j.core.eng.acc[(0 : Fin 4)]
    MatHyp ops [] [(SReg.w 1).spec] (fun j => Valid 0 j ∧
      ((BitVec.ofNat 64 0 + j.sreg (.w 1)).toNat < (acc j).rows ∧ 24 * 2 < (acc j).cols) ∧ j.core.eng.queue = []) rigM ∧
    MatHyp ops [] [(SReg.w 1).spec] (fun j => Valid 0 j ∧
      ¬ ((BitVec.ofNat 64 1 + j.sreg (.w 1)).toNat < (acc j).rows ∧ 24 * 2 < (acc j).cols)) rigM ∧
    MatHyp ops [] [(SReg.w 1).spec] (fun j => Valid 0 j ∧
      ((BitVec.ofNat 64 63 + j.sreg (.w 1)).toNat < (acc j).cols ∧ 24 * 5 < (acc j).rows) ∧ j.core.eng.queue = []) (rigM.put (.w 1) 0) ∧
    MatHyp ops [] [(SReg.w 1).spec] (fun j => Valid 0 j ∧
      ((BitVec.ofNat 64 0 + j.sreg (.w 1)).toNat < (acc j).rows ∧ 24 * 2 < (acc j).cols) ∧ j.core.eng.queue ≠ []) rigMq ∧
    MatReady [(true, (SDst.w 1).spec)] [(SDst.w 1).spec] [] rigM ∧ MatReady [(true, (SDst.w 1).spec), (false, tSpec 1)] [(SDst.w 1).spec] [] rigM ∧
    (MatReady [] [] [] rigM ∧ ∀ c ∈ rigM.core.eng.queue, c.thr ≠ rigM.th.slot) ∧
    MatReady [] [] [] rigMq ∧ ∃ c ∈ rigMq.core.eng.queue, c.thr = rigMq.th.slot :=
  ⟨⟨matReady (by decide +kernel) (by decide +kernel), by unfold Valid; decide +kernel⟩,
   ⟨matReady (by decide +kernel) (by decide +kernel), by unfold Valid; decide +kernel⟩,
   ⟨matReady (by decide +kernel) (by decide +kernel), by unfold Valid; decide +kernel⟩,
   ⟨matReady (by decide +kernel) (by decide +kernel), by unfold Valid; decide +kernel⟩,
   matReady (by decide +kernel) (by decide +kernel), matReady (by decide +kernel) (by decide +kernel),
   ⟨matReady (by decide +kernel) (by decide +kernel), by decide +kernel⟩, matReady (by decide +kernel) (by decide +kernel), by decide +kernel⟩

/-- A ring of 2 slots of one line at offset 0 on handle 0, one slot filled; a ring on the other thread of the core, and a view of it on handle
1. -/
def rigK : State := { rig with
  th := { ((rig.th.setRing 0 (.own 0 1 2 1 0 none)).setRing 1 (.view 1 0)) with
    w := (rigW [(1, 512), (2, 0x10000), (3, 512), (4, 1), (5, 2), (6, 3)]).th.w }
  ths := ({ slot := 1, pc := 0x20000 : Thread }.setRing 0 (.own 1024 1 2 0 0 (some (0, 1)))) :: rig.ths }

/-- The same with the peer on the ring's own side: handle 0 has a view on thread 1. -/
def rigKp : State := { rigK with th := rigK.th.setRing 0 (.own 0 1 2 1 0 (some (1, 3))) }

/-- A copy of the largest count to the top of the window, of no bytes, with an address or a count past the end, to a page where the
combination wants the window; a full queue; a ring's slot copied through the owner's handle and a view, and by the wrong party. -/
theorem witness_CopyIssue :
    let ss := [(SReg.w 1).spec, (SReg.w 2).spec, (SReg.w 3).spec]
    let rs := [(SReg.w 2).spec, (SReg.w 3).spec]
    let at_ (x y z : Word) : State := rigW [(1, x), (2, y), (3, z)]
    let big := at_ 0x00FFFFFFFFF80000 0x10000 (2 ^ 40)
    let full (s : State) : State := { s with bd := { s.bd with copies := List.replicate 2 { tag := 1, thr := 0, op := .fill 0 0 0 1, sc := .dev } } }
    let ops : List (Bool × BitVec 8) := [(true, FDst.zero.spec), (false, kSpec 0), (false, (SReg.w 2).spec), (false, (SReg.w 3).spec)]
    let k (h : Fin 16) (r : RingRef) (j : State) : Prop :=
      ringAt j h = some r ∧ RightParty r true ∧ Addr (j.sreg (.w 2)) ∧ 1 ≤ (j.sreg (.w 3)).toNat ∧ (j.sreg (.w 3)).toNat ≤ 512 * r.lines
    CmdHyp (.w 4) ss (fun j => (Addr (j.sreg (.w 1)) ∧ Addr (j.sreg (.w 2))) ∧ isWin (j.sreg (.w 1)).toNat = true ∧
      (j.sreg (.w 3)).toNat ≤ 2 ^ 40 ∧ 0 < (j.sreg (.w 3)).toNat ∧ CopyRoom j 2) big ∧
    CmdHyp (.w 4) ss (fun j => ¬ CopyRoom j 2) (full big) ∧
    CmdHyp (.w 4) ss (fun j => Addr (j.sreg (.w 1)) ∧ (j.sreg (.w 3)).toNat = 0 ∧ isWin (j.sreg (.w 1)).toNat = false) rig ∧
    CmdHyp (.w 4) ss (fun j => ¬ Addr (j.sreg (.w 1))) (at_ 0x0100000000000000 0 0) ∧
    CmdHyp (.w 4) ss (fun j => Addr (j.sreg (.w 1)) ∧ ¬ Addr (j.sreg (.w 2))) (at_ 0 0x0100000000000000 0) ∧
    CmdHyp (.w 4) ss (fun j => Addr (j.sreg (.w 1)) ∧ Addr (j.sreg (.w 2)) ∧ 2 ^ 40 < (j.sreg (.w 3)).toNat) (at_ 0 0 0x10000000001) ∧
    (CmdHyp .zero rs (fun j => k 0 ⟨0, 0, 0, 1, 2, 1, 0, none, false⟩ j ∧ CopyRoom j 0) rigK ∧ rigK.present ops = .ok ()) ∧
    CmdHyp .zero rs (fun j => k 1 ⟨1, 0, 1024, 1, 2, 0, 0, some (0, 1), true⟩ j) rigK ∧
    CmdHyp .zero rs (fun j => ringAt j 0 = some ⟨0, 0, 0, 1, 2, 1, 0, some (1, 3), false⟩ ∧
      ¬ RightParty ⟨0, 0, 0, 1, 2, 1, 0, some (1, 3), false⟩ true) rigKp ∧
    CmdHyp .zero rs (fun j => ringAt j 2 = none) rigK ∧
    CmdHyp .zero rs (fun j => RightParty ⟨0, 0, 0, 1, 2, 1, 0, none, false⟩ true ∧ 512 * 1 < (j.sreg (.w 3)).toNat) (rigK.put (.w 3) 513) := by
  unfold CmdHyp
  exact ⟨⟨cmdReady (by decide +kernel) (by decide +kernel), by unfold Addr CopyRoom CopyCell; decide +kernel⟩,
   ⟨cmdReady (by decide +kernel) (by decide +kernel), by unfold CopyRoom CopyCell; decide +kernel⟩,
   ⟨cmdReady (by decide +kernel) (by decide +kernel), by unfold Addr; decide +kernel⟩,
   ⟨cmdReady (by decide +kernel) (by decide +kernel), by unfold Addr; decide +kernel⟩,
   ⟨cmdReady (by decide +kernel) (by decide +kernel), by unfold Addr; decide +kernel⟩,
   ⟨cmdReady (by decide +kernel) (by decide +kernel), by unfold Addr; decide +kernel⟩,
   ⟨⟨cmdReady (by decide +kernel) (by decide +kernel), by unfold ringAt RightParty Addr CopyRoom CopyCell; decide +kernel⟩, ok (by decide +kernel)⟩,
   ⟨cmdReady (by decide +kernel) (by decide +kernel), by unfold ringAt RightParty Addr; decide +kernel⟩,
   ⟨cmdReady (by decide +kernel) (by decide +kernel), by unfold ringAt RightParty; decide +kernel⟩,
   ⟨cmdReady (by decide +kernel) (by decide +kernel), by unfold ringAt; decide +kernel⟩,
   ⟨cmdReady (by decide +kernel) (by decide +kernel), by unfold RightParty; decide +kernel⟩⟩

/-- The rig with a pending future in w3 and a completed one in w4. -/
def rigF : State := { rig with th := (rig.th.updReg 3 fun _ => { fut := some 7 }).updReg 4 fun _ => { val := 0x100 } }

/-- A completed and a pending register; a mask whose lowest complete register is not its lowest, one with none complete, an empty one and
one of bit 40; fcancel of either, and of the three kinds of operation that it changes. -/
theorem witness_Futures :
    Ready [(SDst.w 8).spec] [(FReg.w 4).spec] rigF ∧
    (Fresh rigF ∧ rigF.present [(true, (SDst.w 8).spec), (false, (FReg.w 3).spec)] = .ok () ∧ rigF.th.eddy = none ∧
      rigF.settled [(FReg.w 3).spec] = false) ∧
    (Fresh rigF ∧ rigF.present [(true, 0xB9), (false, (FReg.w 3).spec)] = .ok () ∧ rigF.th.eddy = none) ∧
    (Fresh rigF ∧ rigF.present [(true, (FDst.w 9).spec), (false, (FReg.w 3).spec)] = .ok () ∧ rigF.th.eddy = none ∧
      rigF.settled [(FDst.w 9).spec] = true ∧ rigF.th.reg? (FReg.w 3).spec = some { fut := some 7 }) ∧
    (rigF.present [(true, (FDst.w 3).spec), (false, (FReg.w 4).spec)] = .ok () ∧ rigF.settled [(FDst.w 3).spec] = false) ∧
    Hyp [(SDst.w 8).spec] [(SSrc.reg (.w 5)).spec] (fun j => let mask := (j.n64 (.reg (.w 5))).toNat
      0 < mask ∧ mask < 2 ^ 40 ∧ mask.testBit 4 = true ∧ j.settled [4] = true ∧
      ∀ k < 4, mask.testBit k = true → j.settled [BitVec.ofNat 8 k] = false) (rigF.put (.w 5) 0x18) ∧
    Hyp [(SDst.w 8).spec] [(SSrc.reg (.w 5)).spec] (fun j => let mask := (j.n64 (.reg (.w 5))).toNat
      0 < mask ∧ mask < 2 ^ 40 ∧ ∀ k < 40, mask.testBit k = true → j.settled [BitVec.ofNat 8 k] = false) (rigF.put (.w 5) 8) ∧
    Hyp [(SDst.w 8).spec] [(SSrc.reg (.w 5)).spec] (fun j => (j.n64 (.reg (.w 5))).toNat = 0) rigF ∧
    Hyp [(SDst.w 8).spec] [(SSrc.reg (.w 5)).spec] (fun j => 2 ^ 40 ≤ (j.n64 (.reg (.w 5))).toNat) (rigF.put (.w 5) 0x10000000000) ∧
    (Fresh rigF ∧ rigF.present [(false, (FReg.w 3).spec)] = .ok () ∧ (rigF.th.reg? (FReg.w 3).spec).bind (·.fut) = some 7) ∧
    (rigF.present [(false, (FReg.w 4).spec)] = .ok () ∧ (rigF.th.reg? (FReg.w 4).spec).bind (·.fut) = none) :=
  ⟨ready (by decide +kernel), ⟨⟨rfl, rfl⟩, ok (by decide +kernel), rfl, by decide +kernel⟩, ⟨⟨rfl, rfl⟩, ok (by decide +kernel), rfl⟩,
   ⟨⟨rfl, rfl⟩, ok (by decide +kernel), rfl, by decide +kernel, by decide +kernel⟩, ⟨ok (by decide +kernel), by decide +kernel⟩,
   ⟨ready (by decide +kernel), by decide +kernel⟩, ⟨ready (by decide +kernel), by decide +kernel⟩, ⟨ready (by decide +kernel), by decide +kernel⟩,
   ⟨ready (by decide +kernel), by decide +kernel⟩, ⟨⟨rfl, rfl⟩, ok (by decide +kernel), by decide +kernel⟩,
   ok (by decide +kernel), by decide +kernel⟩

theorem ringReady {wr : Bool} {k : Fin 16} {ds ss : List (BitVec 8)} {s : State}
    (h : (decide (s.iss.mode = Mode.single) && decide (s.iss.res = .done) &&
      decide ((s.present (ds.map (fun d => (true, d)) ++ ss.map fun a => (false, a))).toOption = some ()) && s.settled (ds ++ ss)) = true)
    (h' : ((s.present (ds.map (fun d => (true, d)) ++ [(wr, kSpec k)] ++ ss.map fun a => (false, a))).toOption == some () &&
      s.th.eddy.isNone) = true) : RingReady wr k ds ss s := by
  simp only [Bool.and_eq_true, beq_iff_eq, Option.isNone_iff_eq_none] at h'
  exact ⟨ready h, ok h'.1, h'.2⟩
def RingHyp (wr : Bool) (k : Fin 16) (ds ss : List (BitVec 8)) (c : State → Prop) (s : State) : Prop :=
  RingReady wr k ds ss s ∧ c (s.joined (ds ++ ss))

/-- A ring at the end of its window, and past it; a count of no lines and slots beyond the field; a view of a thread's ring, and of none; one
slot filled and one free, counts of the ring and past it; a copy into the ring under way; no ring; the owner of a ring that has a peer
filling it. -/
theorem witness_Rings :
    let ab := [(SSrc.reg (.w 1)).spec, (SSrc.reg (.w 2)).spec]
    let b (n : Fin 32) := [(SSrc.reg (.w n)).spec]
    let cnt (n : Fin 32) (j : State) : Nat := (j.n64 (.reg (.w n))).toNat
    let r0 : RingRef := ⟨0, 0, 0, 1, 2, 1, 0, none, false⟩
    let win (off : Word) : State := { rigW [(1, off), (2, 0x20001)] with bd := { rig.bd with lines := 9 } }
    let busy : State := { rigK with bd := { rigK.bd with copies := [{ tag := 1, thr := 0, op := .ring 0 0x10000 512, sc := .dev }] } }
    let asked (j : State) : Prop := cnt 2 j = 1 + 2 * 2 ^ 16
    let good (off : Nat) (j : State) : Prop := (j.n64 (.reg (.w 1))).toNat = off ∧ off % 512 = 0 ∧ off + 1 * 2 * 512 ≤ j.bd.winSize
    let s2 : State := { (rigW [(1, 1)]) with ths := ({ slot := 1 : Thread }.setRing 0 (.own 1024 1 2 0 0 none)) :: rig.ths }
    let there (j : State) : Prop := (j.n64 (.reg (.w 1))).toNat ≠ j.th.slot ∧ (j.n64 (.reg (.w 1))).toNat < 8 ∧ cnt 2 j < 16 ∧
      j.ringOf j.th.core j.th.ctx (j.n64 (.reg (.w 1))).toNat (cnt 2 j) = some ⟨1, 0, 1024, 1, 2, 0, 0, none, false⟩
    RingHyp true 0 [] ab (fun j => asked j ∧ good 3584 j ∧ j.freeReady 0 = .ok ()) (win 3584) ∧
    RingHyp true 0 [] ab (fun j => asked j ∧ ¬ good 4096 j) (win 4096) ∧
    RingHyp true 0 [] ab (fun j => ¬ ∃ lines n : Nat, lines < 128 ∧ n < 512 ∧ cnt 2 j = lines + n * 2 ^ 16) (rigW [(2, 128)]) ∧
    RingHyp true 2 [] ab (fun j => there j ∧ j.freeReady 2 = .ok ()) s2 ∧ (∃ t, s2.thread? ⟨0, 0, 1⟩ = some t ∧ t.task = s2.th.task) ∧
    RingHyp true 2 [] ab (fun j => ¬ there j) rig ∧
    RingHyp false 0 [(SDst.w 8).spec] (b 4) (fun j => Uses j 0 false (cnt 4 j) r0 ∧ cnt 4 j ≤ r0.filled) rigK ∧
    RingHyp false 0 [(SDst.w 8).spec] (b 5) (fun j => Uses j 0 false (cnt 5 j) r0 ∧ r0.filled < cnt 5 j) rigK ∧
    RingHyp false 0 [(SDst.w 8).spec] (b 4) (fun j => Uses j 0 true (cnt 4 j) r0 ∧ cnt 4 j ≤ r0.n - r0.filled) rigK ∧
    RingHyp false 0 [(SDst.w 8).spec] (b 5) (fun j => Uses j 0 true (cnt 5 j) r0 ∧ r0.n - r0.filled < cnt 5 j) rigK ∧
    RingHyp false 0 [] (b 4) (fun j => Uses j 0 true (cnt 4 j) r0 ∧ j.ringBusy j.th.core j.th.ctx r0 = false ∧ cnt 4 j ≤ r0.n - r0.filled) rigK ∧
    RingHyp false 0 [] (b 4) (fun j => Uses j 0 true (cnt 4 j) r0 ∧ j.ringBusy j.th.core j.th.ctx r0 = true) busy ∧
    RingHyp false 0 [] (b 5) (fun j => Uses j 0 true (cnt 5 j) r0 ∧ j.ringBusy j.th.core j.th.ctx r0 = false ∧ r0.n - r0.filled < cnt 5 j) rigK ∧
    RingHyp false 0 [] (b 6) (fun j => ringAt j 0 = some r0 ∧ RightParty r0 true ∧ r0.n < cnt 6 j) rigK ∧
    RingHyp false 0 [] (b 7) (fun j => ringAt j 0 = some r0 ∧ RightParty r0 true ∧ cnt 7 j = 0) rigK ∧
    RingHyp false 0 [] (b 4) (fun j => ringAt j 0 = some ⟨0, 0, 0, 1, 2, 1, 0, some (1, 3), false⟩ ∧
      ¬ RightParty ⟨0, 0, 0, 1, 2, 1, 0, some (1, 3), false⟩ true) rigKp ∧
    RingHyp false 3 [] [] (fun j => ringAt j 3 = none ∧ j.freeReady 3 = .ok ()) rigK ∧ RingHyp false 0 [] [] (fun j => j.freeReady 0 ≠ .ok ()) busy ∧
    (ringAt rigK 1 = some ⟨1, 0, 1024, 1, 2, 0, 0, some (0, 1), true⟩ ∧ rigK.th.exited = false) := by
  have stop : ∀ {x : Except Stop Unit}, x.toOption = none → x ≠ .ok () := by intro x h e; simp [e, Except.toOption] at h
  refine ⟨⟨ringReady (by decide +kernel) (by decide +kernel), by decide +kernel, by decide +kernel, ok (by decide +kernel)⟩,
   ⟨ringReady (by decide +kernel) (by decide +kernel), by decide +kernel⟩,
   ⟨ringReady (by decide +kernel) (by decide +kernel), ?_⟩,
   ⟨ringReady (by decide +kernel) (by decide +kernel), by decide +kernel, ok (by decide +kernel)⟩, ⟨_, rfl, rfl⟩,
   ⟨ringReady (by decide +kernel) (by decide +kernel), by decide +kernel⟩,
   ⟨ringReady (by decide +kernel) (by decide +kernel), by unfold Uses ringAt RightParty; decide +kernel⟩,
   ⟨ringReady (by decide +kernel) (by decide +kernel), by unfold Uses ringAt RightParty; decide +kernel⟩,
   ⟨ringReady (by decide +kernel) (by decide +kernel), by unfold Uses ringAt RightParty; decide +kernel⟩,
   ⟨ringReady (by decide +kernel) (by decide +kernel), by unfold Uses ringAt RightParty; decide +kernel⟩,
   ⟨ringReady (by decide +kernel) (by decide +kernel), by unfold Uses ringAt RightParty; decide +kernel⟩,
   ⟨ringReady (by decide +kernel) (by decide +kernel), by unfold Uses ringAt RightParty; decide +kernel⟩,
   ⟨ringReady (by decide +kernel) (by decide +kernel), by unfold Uses ringAt RightParty; decide +kernel⟩,
   ⟨ringReady (by decide +kernel) (by decide +kernel), by unfold ringAt RightParty; decide +kernel⟩,
   ⟨ringReady (by decide +kernel) (by decide +kernel), by unfold ringAt RightParty; decide +kernel⟩,
   ⟨ringReady (by decide +kernel) (by decide +kernel), by unfold ringAt RightParty; decide +kernel⟩,
   ⟨ringReady (by decide +kernel) (by decide +kernel), by unfold ringAt; decide +kernel, ok (by decide +kernel)⟩,
   ⟨ringReady (by decide +kernel) (by decide +kernel), stop (by decide +kernel)⟩, by unfold ringAt; decide +kernel⟩
  rintro ⟨l, n, h, -, e⟩
  have : ((((rigW [(2, 128)]).joined [(SSrc.reg (.w 1)).spec, (SSrc.reg (.w 2)).spec]).n64 (.reg (.w 2))).toNat) = 128 := by decide +kernel
  simp only [List.nil_append] at e
  omega

/-- A read of one chunk, of no bytes, from an address at 2⁵⁶, and to a handler on no target; a full queue; an eddy's hret and a thread's. -/
theorem witness_HandlerReads :
    let ss := [(SReg.w 1).spec, (SReg.w 2).spec, (SReg.w 3).spec]
    let s := rigW [(1, 0x10000), (2, 0x20000), (3, 192)]
    let full : State := { s with bd := { s.bd with copies := List.replicate 2 { tag := 1, thr := 0, op := .fill 0 0 0 1, sc := .dev } } }
    CmdHyp (.w 4) ss (fun j => hreadShape .one (j.sreg (.w 3)) = some (192, 1, 0) ∧ Addr (j.sreg (.w 1)) ∧ Lands j (j.sreg (.w 2)) ∧
      CopyCell j) s ∧ CmdHyp (.w 4) ss (fun j => ¬ CopyCell j) full ∧
    CmdHyp (.w 4) ss (fun j => hreadShape .one (j.sreg (.w 3)) = none) rig ∧
    CmdHyp (.w 4) ss (fun j => hreadShape .one (j.sreg (.w 3)) ≠ none ∧ ¬ Addr (j.sreg (.w 1))) (s.put (.w 1) 0x0100000000000000) ∧
    CmdHyp (.w 4) ss (fun j => hreadShape .one (j.sreg (.w 3)) ≠ none ∧ Addr (j.sreg (.w 1)) ∧ ∃ e, j.checkTarget (j.sreg (.w 2)) = .error e)
      (s.put (.w 2) 0x20014) ∧
    Fresh { rig with th := { rig.th with slot := 8, eddy := some ⟨0, Vector.replicate 4 0⟩ } } ∧ (Fresh rig ∧ rig.th.eddy = none) :=
  ⟨⟨cmdReady (by decide +kernel) (by decide +kernel), by decide +kernel, by unfold Addr; decide +kernel, ok (by decide +kernel),
    by unfold CopyCell; decide +kernel⟩, ⟨cmdReady (by decide +kernel) (by decide +kernel), by unfold CopyCell; decide +kernel⟩,
    ⟨cmdReady (by decide +kernel) (by decide +kernel), by decide +kernel⟩,
    ⟨cmdReady (by decide +kernel) (by decide +kernel), by unfold Addr; decide +kernel⟩,
    ⟨cmdReady (by decide +kernel) (by decide +kernel), by decide +kernel, by unfold Addr; decide +kernel, err (by decide +kernel)⟩,
    ⟨rfl, rfl⟩, ⟨rfl, rfl⟩, rfl⟩

/-- A message to the other thread of the task, one held and one received. -/
def mail : Msg := { dst := 0x400000, src := ⟨0, 0, 0⟩, srcTask := 0, seq := 0, greg := none, data := 5, rel := false, sc := .core, tag := some 9,
                    held := true }

theorem goodDest {s : State} {w : Word} (h : w.toNat < 2 ^ 29) (t : Task) (h' : s.cx.task? (w.toNat % 2 ^ 16) = some t)
    (hr : w.toNat / 2 ^ 16 % 64 < t.rows) (hc : w.toNat / 2 ^ 22 % 16 < t.cols) (ht : w.toNat / 2 ^ 26 % 8 < t.thr) :
    ∀ e, ¬ BadDest s w e := by
  rintro e (⟨a, -⟩ | ⟨-, a, -⟩ | ⟨-, k, a, b, -⟩)
  · omega
  · rw [h'] at a
    cases a
  · rw [h'] at a
    cases a
    omega

/-- The last thread of the last core of task 0; destinations with bit 29, of a task that is none, and of a column outside; a full pool; a
thread with and without messages and held messages. -/
theorem witness_Messages :
    let ops : List (Bool × BitVec 8) := [(true, (FDst.w 2).spec), (false, (SReg.w 1).spec), (false, specOf 0x40 (3 : Fin 64))]
    let s (w : Word) := rigW [(1, w)]
    let full : State := { s 0x04400000 with bd := { rig.bd with caps := 0 } }
    let j (s : State) : State := (s.joined [(SReg.w 1).spec]).wakeRegs [specOf 0x40 (3 : Fin 64)]
    (Ready [] [(SReg.w 1).spec] (s 0x04400000) ∧ (s 0x04400000).present ops = .ok () ∧
      (∀ e, ¬ BadDest (j (s 0x04400000)) ((j (s 0x04400000)).sreg (.w 1)) e) ∧ (j (s 0x04400000)).poolGrant (j (s 0x04400000)).bd 2 = true ∧
      (j (s 0x04400000)).poolGrant (j (s 0x04400000)).bd 5 = true) ∧
    (Ready [] [(SReg.w 1).spec] full ∧ full.present ops = .ok () ∧ (∀ e, ¬ BadDest (j full) ((j full).sreg (.w 1)) e) ∧
      (j full).poolGrant (j full).bd 2 = false) ∧
    (Ready [] [(SReg.w 1).spec] (s 0x20000000) ∧ BadDest (j (s 0x20000000)) ((j (s 0x20000000)).sreg (.w 1)) (msgStop 1)) ∧
    (Ready [] [(SReg.w 1).spec] (s 1) ∧ BadDest (j (s 1)) ((j (s 1)).sreg (.w 1)) (msgStop 2)) ∧
    (Ready [] [(SReg.w 1).spec] (s 0x00800000) ∧ BadDest (j (s 0x00800000)) ((j (s 0x00800000)).sreg (.w 1)) (msgStop 3)) ∧
    (Ready [] [(SReg.w 1).spec, (SReg.w 2).spec] (s 0x04400000) ∧
       (s 0x04400000).present [(true, (FDst.w 2).spec), (false, (SReg.w 1).spec), (false, (SReg.w 2).spec)] = .ok ()) ∧
    (Fresh rig ∧ rig.present [(true, specOf 0x40 (3 : Fin 64))] = .ok () ∧ rig.th.eddy = none ∧ rig.th.msgs = []) ∧
    (let s : State := { rig with th := { rig.th with msgs := [mail], held := [mail] } }
     Fresh s ∧ s.present [(true, specOf 0x40 (3 : Fin 64))] = .ok () ∧ s.th.eddy = none ∧ s.th.msgs = mail :: []) ∧
    Ready [(SDst.w 1).spec] [] rig :=
  ⟨⟨ready (by decide +kernel), ok (by decide +kernel),
    goodDest (by decide +kernel) rigTask (by decide +kernel) (by decide +kernel) (by decide +kernel) (by decide +kernel), by decide +kernel,
    by decide +kernel⟩,
   ⟨ready (by decide +kernel), ok (by decide +kernel),
    goodDest (by decide +kernel) rigTask (by decide +kernel) (by decide +kernel) (by decide +kernel) (by decide +kernel), by decide +kernel⟩,
   ⟨ready (by decide +kernel), .inl ⟨by decide +kernel, rfl⟩⟩,
   ⟨ready (by decide +kernel), .inr (.inl ⟨by decide +kernel, by decide +kernel, rfl⟩)⟩,
   ⟨ready (by decide +kernel), .inr (.inr ⟨by decide +kernel, rigTask, by decide +kernel, by decide +kernel, rfl⟩)⟩,
   ⟨ready (by decide +kernel), ok (by decide +kernel)⟩, ⟨⟨rfl, rfl⟩, ok (by decide +kernel), rfl, rfl⟩,
   ⟨⟨rfl, rfl⟩, ok (by decide +kernel), rfl, rfl⟩, ready (by decide +kernel)⟩

/-- A page that may be read but not written, one of a block format, a poisoned line. -/
def pageRO : Pte := { dataPage with ctl := leafCtl 0 0 true false false true false rawAttr 0 0 }
def pageQ : Pte := { dataPage with ctl := leafCtl 0 0 true true false true false 2 0 0 }

/-- An atomic in the window, one on the page, at its last aligned address, and one whose value has come, and one whose value has not; an
address at 2⁵⁶, one that is not aligned, one on no page, on one that may not be written, on one that is not raw, in a range of the
scoreboard, and on a poisoned line. -/
theorem witness_Atomics :
    let ss := [(SReg.w 1).spec, (SReg.w 3).spec]
    let at_ (s : State) (w : Word) : State := s.put (.w 1) w
    let ea (j : State) : Word := j.sreg (.w 1) + (0 : W32).signExtend 64
    let with_ (e : Pte) : State := { rig with core := { rig.core with tlb := [⟨0, e⟩] }, cx := { rig.cx with ptes := [e, codePage] } }
    let stops (s : State) (x : Stop) : Prop := (Ready [(SDst.w 2).spec] ss s ∧ s.th.wait = none) ∧
      AmoStop 0 .i64 (s.joined ((SDst.w 2).spec :: ss)) (ea (s.joined ((SDst.w 2).spec :: ss))) x
    (let s := at_ rig 0x00FFFFFFFFF80FF8
     (Ready [(SDst.w 2).spec] ss s ∧ s.th.wait = none) ∧
       AmoPlace 0 .i64 (s.joined ((SDst.w 2).spec :: ss)) (ea (s.joined ((SDst.w 2).spec :: ss))) ⟨true, 0xFF8, rawAttr, 0xFF8, 0x00FFFFFFFFF80FF8⟩) ∧
    (let s := at_ rig 0x1FFF8
     Ready [(SDst.zero).spec] (ss ++ [(SReg.w 4).spec]) s ∧ s.th.wait = none ∧
       AmoPlace 8 .i64 (s.joined ((SDst.zero).spec :: (ss ++ [(SReg.w 4).spec]))) (ea (s.joined ((SDst.zero).spec :: (ss ++ [(SReg.w 4).spec]))))
         ⟨false, 0x1FFF8, rawAttr, 0xFFF8, 0x1FFF8⟩) ∧
    stops (at_ rig 0x0100000000000004) (.trap 2 0x0100000000000004) ∧ stops (at_ rig 0x10004) (.trap 0x31 0x10004) ∧
    (∃ x, stops (at_ rig 0x40000) x) ∧ (∃ x, stops (at_ (with_ pageRO) 0x10000) x) ∧
    stops (at_ (with_ pageQ) 0x10000) (.trap 0x32 0x10000) ∧
    (∃ x, stops { at_ rig 0x10000 with th := { (at_ rig 0x10000).th with rngs := [extent 1 0x10000 64] } } x) ∧
    stops { at_ rig 0x10000 with poison := [0x400] } (.trap 1 0x10000) ∧
    (let s : State := { rig with th := { rig.th with wait := some (.value (some 7)) } }
     Fresh s ∧ s.th.wait = some (.value (some 7))) ∧
    (let s : State := { rig with th := { rig.th with wait := some (.value none) } }
     Fresh s ∧ s.th.wait = some (.value none)) := by
  intro ss at_ ea with_ stops
  have r {s : State} (h : (decide (s.iss.mode = Mode.single) && decide (s.iss.res = .done) &&
      decide ((s.present (([(SDst.w 2).spec] : List (BitVec 8)).map (fun d => (true, d)) ++
        [(SReg.w 1).spec, (SReg.w 3).spec].map fun a => (false, a))).toOption = some ()) &&
        s.settled ([(SDst.w 2).spec] ++ [(SReg.w 1).spec, (SReg.w 3).spec])) = true) (h' : s.th.wait = none) := And.intro (ready h) h'
  exact ⟨⟨r (by decide +kernel) rfl, by unfold Addr; decide +kernel, by decide +kernel, ⟨⟨true, 0xFF8, rawAttr, 0xFF8, 0x00FFFFFFFFF80FF8⟩, ok (by decide +kernel)⟩,
    ok (by decide +kernel), by decide +kernel, ok (by decide +kernel), by decide +kernel, by decide +kernel⟩,
   ⟨ready (by decide +kernel), rfl, by unfold Addr; decide +kernel, by decide +kernel, ⟨⟨false, 0x1FFF8, rawAttr, 0xFFF8, 0x1FFF8⟩, ok (by decide +kernel)⟩,
    ok (by decide +kernel), by decide +kernel, ok (by decide +kernel), by decide +kernel, by decide +kernel⟩,
   ⟨r (by decide +kernel) rfl, .inl ⟨by unfold Addr; decide +kernel, by decide +kernel⟩⟩,
   ⟨r (by decide +kernel) rfl, .inr ⟨by unfold Addr; decide +kernel, .inl ⟨by decide +kernel, by decide +kernel⟩⟩⟩,
   (have ⟨x, h⟩ := err (x := ((at_ rig 0x40000).joined _).spot _ false) (by decide +kernel)
    ⟨x, r (by decide +kernel) rfl, .inr ⟨by unfold Addr; decide +kernel, .inr ⟨by decide +kernel, .inl h⟩⟩⟩),
   (have ⟨x, h⟩ := err (x := ((at_ (with_ pageRO) 0x10000).joined _).spot _ true) (by decide +kernel)
    ⟨x, r (by decide +kernel) rfl, .inr ⟨by unfold Addr; decide +kernel, .inr ⟨by decide +kernel, .inr ⟨⟨⟨false, 0x10000, rawAttr, 0, 0x10000⟩, ok (by decide +kernel)⟩, .inl h⟩⟩⟩⟩),
   ⟨r (by decide +kernel) rfl, .inr ⟨by unfold Addr; decide +kernel, .inr ⟨by decide +kernel, .inr ⟨⟨⟨false, 0x10000, 2, 0, 0x10000⟩, ok (by decide +kernel)⟩, .inr
     ⟨⟨false, 0x10000, 2, 0, 0x10000⟩, ok (by decide +kernel), .inl ⟨by decide +kernel, by decide +kernel⟩⟩⟩⟩⟩⟩,
   (have ⟨x, h⟩ := err (x := (({ at_ rig 0x10000 with th := { (at_ rig 0x10000).th with rngs := [extent 1 0x10000 64] } } : State).joined
      ((SDst.w 2).spec :: ss)).scoreboard 0x10000 8) (by decide +kernel)
    ⟨x, r (by decide +kernel) rfl, .inr ⟨by unfold Addr; decide +kernel, .inr ⟨by decide +kernel, .inr ⟨⟨⟨false, 0x10000, rawAttr, 0, 0x10000⟩,
      ok (by decide +kernel)⟩, .inr ⟨⟨false, 0x10000, rawAttr, 0, 0x10000⟩, ok (by decide +kernel), .inr ⟨by decide +kernel, .inl h⟩⟩⟩⟩⟩⟩),
   ⟨r (by decide +kernel) rfl, .inr ⟨by unfold Addr; decide +kernel, .inr ⟨by decide +kernel, .inr ⟨⟨⟨false, 0x10000, rawAttr, 0, 0x10000⟩,
     ok (by decide +kernel)⟩, .inr ⟨⟨false, 0x10000, rawAttr, 0, 0x10000⟩, ok (by decide +kernel), .inr ⟨by decide +kernel, .inr
      ⟨ok (by decide +kernel), by decide +kernel, .inl (by decide +kernel)⟩⟩⟩⟩⟩⟩⟩,
   ⟨⟨rfl, rfl⟩, rfl⟩, ⟨rfl, rfl⟩, rfl⟩
/-- A store of the rig's thread to a place without a home slice, and one of another thread. -/
def hostStore (t : Nat) : Req := { who := .thr ⟨0, 0, t⟩, ctx := 0, key := 0, pa := 2 ^ 52, rel := false, sc := .dev, port := none,
                                   body := .write [(2 ^ 52, 1, 0xFF)] }

/-- No store on its way, one without a home slice of the thread's own, one of another's; slices touched and none; echoes out and all in. -/
theorem witness_Fences :
    (Fresh rig ∧ rig.th.wait = none ∧ ¬ OutWaits rig .dev ∧ fenceMask rig .rel = 0) ∧
    (let s : State := { rig with reqs := [hostStore 0] }
     Fresh s ∧ s.th.wait = none ∧ OutWaits s .row ∧ OutWaits s .sys) ∧
    (let s : State := { rig with reqs := [hostStore 1], th := { rig.th with tsm := 1 } }
     Fresh s ∧ s.th.wait = none ∧ ¬ OutWaits s .dev ∧ fenceMask s .rel ≠ 0) ∧
    (let s : State := { rig with th := { rig.th with wait := some (.echoes 0), tsm := 1 } }
     Fresh s ∧ s.th.wait = some (.echoes 0) ∧ s.th.eddy = none) ∧
    (let s : State := { rig with th := { rig.th with slot := 8, eddy := some ⟨0, Vector.replicate 4 0⟩, wait := some (.echoes 0), tsm := 1 } }
     Fresh s ∧ s.th.wait = some (.echoes 0)) ∧
    (let s : State := { rig with th := { rig.th with wait := some (.echoes 1) } }
     Fresh s ∧ s.th.wait = some (.echoes (0 + 1))) :=
  ⟨⟨⟨rfl, rfl⟩, rfl, by unfold OutWaits; decide +kernel, by unfold fenceMask; decide +kernel⟩,
   ⟨⟨rfl, rfl⟩, rfl, by unfold OutWaits; decide +kernel, by unfold OutWaits; decide +kernel⟩,
   ⟨⟨rfl, rfl⟩, rfl, by unfold OutWaits; decide +kernel, by unfold fenceMask; decide +kernel⟩,
   ⟨⟨rfl, rfl⟩, rfl, rfl⟩, ⟨⟨rfl, rfl⟩, rfl⟩, ⟨rfl, rfl⟩, rfl⟩

/-- The largest rectangle within the task, of a row of two cores (column 0, row 0: 1 row, 2 columns); one of bit 23; one of two rows; a
counted arrival; an arrival armed and not, within its scope and not; each of the waits. -/
theorem witness_Barriers :
    let a := [(SSrc.reg (.w 1)).spec]
    let w (j : State) : Nat := (j.n64 (.reg (.w 1))).toNat
    let form (j : State) : Prop := w j < 2 ^ 23 ∧ w j / 2 ^ 10 % 8 = 0
    let still (j : State) : Prop := j.core.bar[(3 : Fin 4)].arrived = [] ∧ j.core.bar[(3 : Fin 4)].sent = false
    let inside (j : State) : Prop := rigTask.hasRect (BitVec.ofNat 23 (w j)) = true
    let full (s : State) : State := { s with core := s.core.setBar 3 { armed := true, rect := 0x80000, arrived := [1] } }
    let armed (r : BitVec 23) (x : Bool) : State := { rig with core := rig.core.setBar 3 { armed := x, rect := r } }
    let out : State := { rig with core := { rig.core with holder := none } }
    let eddy : State := { rig with th := { rig.th with slot := 8, eddy := some ⟨0, Vector.replicate 4 0⟩ } }
    (Hyp [] a (fun j => form j ∧ still j ∧ inside j) (rigW [(1, 0x80000)]) ∧ (rigW [(1, 0x80000)]).holds = true ∧
      (rigW [(1, 0x80000)]).cx.task? (rigW [(1, 0x80000)]).th.task = some rigTask) ∧
    Hyp [] a (fun j => ¬ form j) (rigW [(1, 0x800000)]) ∧ Hyp [] a (fun j => form j ∧ ¬ still j) (full (rigW [(1, 0x80000)])) ∧
    Hyp [] a (fun j => form j ∧ still j ∧ ¬ inside j) (rigW [(1, 0x2000)]) ∧
    (Fresh out ∧ out.holds = false) ∧ (Fresh eddy ∧ eddy.holds = true ∧ eddy.present [(false, (SSrc.reg (.w 1)).spec)] = .ok () ∧ eddy.th.eddy ≠ none) ∧
    (Fresh (armed 0 true) ∧ (armed 0 true).th.wait = none ∧ Arrives (armed 0 true) 3 .core ∧ (armed 0 true).present [(true, (FDst.w 2).spec)] = .ok ()) ∧
    (Fresh (armed 0x80000 true) ∧ Arrives (armed 0x80000 true) 3 .row ∧ ¬ OutWaits (armed 0x80000 true) .row ∧
      fenceMask (armed 0x80000 true) .rel = 0) ∧
    NoArrival out 0xA9 3 .row (.trap 3 0x103) ∧ NoArrival eddy 0xA9 3 .row (.trap 0x23 0xA9) ∧
    NoArrival (armed 0x80000 true) 0xA9 3 .core (barStop 3 4) ∧ NoArrival (armed 0x80000 false) 0xA9 3 .row (barStop 3 5) ∧
    (let s : State := { rig with th := { rig.th with wait := some (.barrier 3 (some 0)) } }
     Fresh s ∧ s.th.wait = some (.barrier 3 (some 0))) ∧
    (let s : State := { rig with th := { rig.th with wait := some (.barrier 3 (some 0x15)) } }
     Fresh s ∧ s.th.wait = some (.barrier 3 (some 0x15))) ∧
    (let s : State := { rig with th := { rig.th with wait := some (.barrier 3 none) } }
     Fresh s ∧ s.th.wait = some (.barrier 3 none)) :=
  ⟨⟨⟨ready (by decide +kernel), by decide +kernel⟩, by decide +kernel, by decide +kernel⟩, ⟨ready (by decide +kernel), by decide +kernel⟩,
   ⟨ready (by decide +kernel), by decide +kernel⟩, ⟨ready (by decide +kernel), by decide +kernel⟩, ⟨⟨rfl, rfl⟩, rfl⟩,
   ⟨⟨rfl, rfl⟩, rfl, ok (by decide +kernel), by decide +kernel⟩,
   ⟨⟨rfl, rfl⟩, rfl, by unfold Arrives InScope; decide +kernel, ok (by decide +kernel)⟩,
   ⟨⟨rfl, rfl⟩, by unfold Arrives InScope; decide +kernel, by unfold OutWaits; decide +kernel, by unfold fenceMask; decide +kernel⟩,
   .inl ⟨by decide +kernel, by decide⟩, .inr ⟨by decide +kernel, .inl ⟨by decide +kernel, by decide⟩⟩,
   .inr ⟨by decide +kernel, .inr ⟨by decide +kernel, .inl ⟨by unfold InScope; decide +kernel, rfl⟩⟩⟩,
   .inr ⟨by decide +kernel, .inr ⟨by decide +kernel, .inr ⟨by unfold InScope; decide +kernel, by decide +kernel, rfl⟩⟩⟩,
   ⟨⟨rfl, rfl⟩, rfl⟩, ⟨⟨rfl, rfl⟩, rfl⟩, ⟨rfl, rfl⟩, rfl⟩

theorem witness_Events :
    (Fresh { rig with th := { rig.th with latch := true } }) ∧ (Fresh rig ∧ rig.th.eddy = none ∧ rig.th.latch = false) ∧
    Ready [] [(SSrc.reg (.w 1)).spec] rig :=
  ⟨⟨rfl, rfl⟩, ⟨⟨rfl, rfl⟩, rfl, rfl⟩, ready (by decide +kernel)⟩

/-- A gang of the neighbour's waiting thread; of one that does not wait; a mask that names the own column, one past the sixteen, and one of a
core outside the task; no cell; a leader, of a member with room and without, and one that gathers anew. -/
theorem witness_Gangs :
    let ss := [(SReg.w 1).spec, (SReg.w 2).spec]
    let ops := [(true, (FDst.w 3).spec), (false, (SReg.w 1).spec), (false, (SReg.w 2).spec)]
    let mask (j : State) : Nat := (j.sreg (.w 1)).toNat
    let isReady (j : State) : Prop := ∀ m ∈ (ungang j).gangKeys (mask j) (j.sreg (.w 2)).toNat, ∃ t, (ungang j).thread? m = some t ∧ t.inGjoin = true
    let member (n : Nat) : Thread := { core := 1, pc := 0x20000, started := true, gang := .member ⟨0, 0, 0⟩ (List.replicate n (7, none)) }
    let lead (n : Nat) (s : State) : State := { s with th := { s.th with gang := .leader [⟨1, 0, 0⟩] 3 1 0 }, ths := [member n] }
    let j (s : State) : State := s.joined ss
    (Ready [] ss (rigW [(1, 2)]) ∧ (rigW [(1, 2)]).present ops = .ok () ∧ (rigW [(1, 2)]).th.eddy = none ∧ GangMask (j (rigW [(1, 2)])) 2 ∧
      ¬ MemberFull (j (rigW [(1, 2)])) ∧ isReady (j (rigW [(1, 2)])) ∧
      (ungang (j (rigW [(1, 2)]))).poolGrant (ungang (j (rigW [(1, 2)]))).bd 2 = true) ∧
    (let s : State := { rigW [(1, 2)] with ths := [{ core := 1, pc := 0x20000, started := true }] }
     Ready [] ss s ∧ GangMask (j s) 2 ∧ ¬ MemberFull (j s) ∧ ¬ isReady (j s) ∧ ∀ ns tag n q, (j s).th.gang ≠ .leader ns tag n q) ∧
    (Ready [] ss (rigW [(1, 1)]) ∧ ¬ GangMask (j (rigW [(1, 1)])) 1) ∧ (Ready [] ss (rigW [(1, 0x10000)]) ∧ ¬ GangMask (j (rigW [(1, 0x10000)])) 0x10000) ∧
    (Ready [] ss (rigW [(1, 4)]) ∧ ¬ GangMask (j (rigW [(1, 4)])) 4) ∧
    (let s : State := { rigW [(1, 2)] with bd := { rig.bd with caps := 0 } }
     Ready [] ss s ∧ GangMask (j s) 2 ∧ ¬ MemberFull (j s) ∧ (ungang (j s)).poolGrant (ungang (j s)).bd 2 = false) ∧
    (Ready [] ss (lead 4 (rigW [(1, 2)])) ∧ GangMask (j (lead 4 (rigW [(1, 2)]))) 2 ∧ MemberFull (j (lead 4 (rigW [(1, 2)])))) ∧
    (Ready [] ss (lead 0 (rigW [(1, 2)])) ∧ GangMask (j (lead 0 (rigW [(1, 2)]))) 2 ∧ ¬ MemberFull (j (lead 0 (rigW [(1, 2)]))) ∧
      ¬ isReady (j (lead 0 (rigW [(1, 2)])))) ∧
    (Fresh rig ∧ rig.th.eddy = none ∧ rig.th.gang = .none ∧ rig.th.wait = none ∧ ¬ MemberFull rig) ∧
    (Fresh (lead 3 rig) ∧ ¬ MemberFull (lead 3 rig)) ∧ (Fresh (lead 4 rig) ∧ MemberFull (lead 4 rig)) ∧
    Fresh { rig with th := { rig.th with gang := .member ⟨1, 0, 0⟩ [] } } ∧ Fresh { rig with th := { rig.th with wait := some (.gjoin true) } } ∧
    Fresh { rig with th := { rig.th with wait := some (.gjoin false) } } := by
  intro ss ops mask isReady member lead j
  have noLead (s : State) (h : s.th.gang = .none) : ¬ MemberFull s := by
    rintro ⟨ms, tag, n, q, e, -⟩
    rw [h] at e
    cases e
  have room (n : Nat) (s : State) (hg : s.th.gang = .leader [⟨1, 0, 0⟩] 3 1 0) (h : s.gangHeld ⟨1, 0, 0⟩ < 4) : ¬ MemberFull s := by
    rintro ⟨ms, tag, n, q, e, m, hm, -, h'⟩
    rw [hg] at e
    cases e
    simp only [List.mem_singleton] at hm
    subst hm
    omega
  have inTask (s : State) (h : s.cx.tasks = rig.cx.tasks) (h1 : s.th.task = 0) (h2 : s.th.core = 0) : GangMask s 2 :=
    ⟨by decide, by rw [h2]; decide, fun c hc hb => by
      have : c = 1 := by
        revert hb; revert c; decide
      subst this
      exact ⟨rigTask, by rw [Context.task?, h, h1]; decide +kernel, by rw [h2]; decide⟩⟩
  refine ⟨⟨ready (by decide +kernel), ok (by decide +kernel), rfl, inTask _ rfl rfl rfl, noLead _ rfl, ?_, by decide +kernel⟩,
    ⟨ready (by decide +kernel), inTask _ rfl rfl rfl, noLead _ rfl, ?_, ?_⟩,
    ⟨ready (by decide +kernel), fun h => absurd h.2.1 (by decide +kernel)⟩, ⟨ready (by decide +kernel), fun h => absurd h.1 (by decide)⟩,
    ⟨ready (by decide +kernel), ?_⟩,
    ⟨ready (by decide +kernel), inTask _ rfl rfl rfl, noLead _ rfl, by decide +kernel⟩,
    ⟨ready (by decide +kernel), inTask _ rfl rfl rfl, ?_⟩,
    ⟨ready (by decide +kernel), inTask _ rfl rfl rfl, room 0 _ rfl (by decide +kernel), ?_⟩,
    ⟨⟨rfl, rfl⟩, rfl, rfl, rfl, noLead _ rfl⟩, ⟨⟨rfl, rfl⟩, room 3 _ rfl (by decide +kernel)⟩, ⟨⟨rfl, rfl⟩, ?_⟩, ⟨rfl, rfl⟩, ⟨rfl, rfl⟩, rfl, rfl⟩
  · intro m hm
    rw [show (ungang (j (rigW [(1, 2)]))).gangKeys (mask (j (rigW [(1, 2)]))) ((j (rigW [(1, 2)])).sreg (.w 2)).toNat = [⟨1, 0, 0⟩] by decide +kernel] at hm
    simp only [List.mem_singleton] at hm
    subst hm
    exact ⟨_, rfl, by decide +kernel⟩
  · intro h
    obtain ⟨t, h1, h2⟩ := h ⟨1, 0, 0⟩ (by decide +kernel)
    cases h1
    exact absurd h2 (by decide +kernel)
  · intro ns tag n q h
    have : (j ({ rigW [(1, 2)] with ths := [{ core := 1, pc := 0x20000, started := true }] } : State)).th.gang = .none := rfl
    rw [this] at h
    cases h
  · intro h
    obtain ⟨k, h1, h2⟩ := h.2.2 2 (by decide) (by decide)
    have : (j (rigW [(1, 4)])).cx.task? (j (rigW [(1, 4)])).th.task = some rigTask := by decide +kernel
    rw [this] at h1
    cases h1
    exact absurd h2 (by decide +kernel)
  · exact ⟨[⟨1, 0, 0⟩], 3, 1, 0, rfl, ⟨1, 0, 0⟩, List.mem_singleton.2 rfl, ⟨_, _, _, rfl, rfl⟩, by decide +kernel⟩
  · intro h
    obtain ⟨t, h1, h2⟩ := h ⟨1, 0, 0⟩ (by decide +kernel)
    cases h1
    exact absurd h2 (by decide +kernel)
  · exact ⟨[⟨1, 0, 0⟩], 3, 1, 0, rfl, ⟨1, 0, 0⟩, List.mem_singleton.2 rfl, ⟨_, _, _, rfl, rfl⟩, by decide +kernel⟩
/-- The last element of the neighbour's window, and the neighbour without a window; a column that is none, the own window's end, an address
outside the window, one that is not aligned, one at 2⁵⁶; a gated bank behind the address, and a poisoned element. -/
theorem witness_RemoteScratchpad :
    let ss := [(SReg.w 1).spec, (SReg.w 2).spec]
    let at_ (a c : Word) : State := rigW [(1, a), (2, c)]
    let nb (b : Nat) : Bind :=
      { core := 1, nthr := 2, lines := 8, base := b, caps := BitVec.allOnes 64, heat := .gale, lee := true, lent := true }
    let last : Word := 0x00FFFFFFFFF80FF8
    let ea (j : State) : Word := j.sreg (.w 1) + (0 : W32).signExtend 64
    let col (j : State) : Word := j.sreg (.w 2)
    let j (s : State) : State := s.joined ((SDst.w 3).spec :: ss)
    let bare : State := { at_ last 1 with bds := [] }
    let bad : State := { at_ last 1 with cores := [{ id := 1, holder := some 0, spadPoison := [0xFF8 / 64] }] }
    let high : State := { at_ last 1 with
      bds := [{ nb 512 with lent := false }]
      cores := [{ id := 1, holder := some 0, banks := Vector.replicate 20 .gated }] }
    (Ready [(SDst.w 3).spec] ss (at_ last 1) ∧ RemoteAddr (j (at_ last 1)) .i64 (ea (j (at_ last 1))) (col (j (at_ last 1))) ∧
      RemoteAt (j (at_ last 1)) (ea (j (at_ last 1))) (col (j (at_ last 1))) 0xFF8 ∧ ¬ GatedBank (j (at_ last 1)) 1 0xFF8 ∧
      poisoned ((j (at_ last 1)).core? 1).spadPoison 0xFF8 8 = false) ∧
    (Ready [(SDst.w 3).spec] ss bare ∧ RemoteAddr (j bare) .i64 (ea (j bare)) (col (j bare)) ∧ NoWindow (j bare) (col (j bare))) ∧
    (Ready [(SDst.w 3).spec] ss bad ∧ RemoteAddr (j bad) .i64 (ea (j bad)) (col (j bad)) ∧ RemoteAt (j bad) (ea (j bad)) (col (j bad)) 0xFF8 ∧
      ¬ GatedBank (j bad) 1 0xFF8 ∧ poisoned ((j bad).core? 1).spadPoison 0xFF8 8 = true) ∧
    (Ready [(SDst.w 3).spec] ss high ∧ RemoteAddr (j high) .i64 (ea (j high)) (col (j high)) ∧
      RemoteAt (j high) (ea (j high)) (col (j high)) 0x40FF8 ∧ GatedBank (j high) 1 0x40FF8) ∧
    Ready [] (ss ++ [(SReg.w 4).spec]) (at_ last 1) ∧
    NoRemote (j (at_ 0x0100000000000000 1)) .i64 (ea (j (at_ 0x0100000000000000 1))) 1 (.trap 2 0x0100000000000000) ∧
    NoRemote (j (at_ 0x10000 1)) .i64 (ea (j (at_ 0x10000 1))) 1 (.trap 1 0x10000) ∧
    NoRemote (j (at_ (last + 4) 1)) .i64 (ea (j (at_ (last + 4) 1))) 1 (.trap 0x31 (last + 4)) ∧
    NoRemote (j (at_ last 16)) .i64 (ea (j (at_ last 16))) 16 (.trap 1 last) ∧
    NoRemote (j (at_ (last + 8) 1)) .i64 (ea (j (at_ (last + 8) 1))) 1 (.trap 1 (last + 8)) := by
  intro ss at_ nb last ea col j bare bad high
  have addr (s : State) (a c : Word) (h : ((j s).cx.task? (j s).th.task) = some rigTask) (h1 : a.toNat < 2 ^ 56 ∧ isWin a.toNat = true ∧
      a.toNat % 8 = 0 ∧ c.toNat < 16 ∧ rigTask.holds (remoteCore (j s) c) = true) : RemoteAddr (j s) .i64 a c :=
    ⟨h1.1, h1.2.1, h1.2.2.1, h1.2.2.2.1, rigTask, h, h1.2.2.2.2⟩
  exact ⟨⟨ready (by decide +kernel), addr _ _ _ (by decide +kernel) (by decide +kernel), ⟨nb 0, by decide +kernel, by decide +kernel, by decide +kernel⟩,
     by unfold GatedBank; rintro ⟨b, h, -⟩; exact absurd h (by rw [show leeBank 0xFF8 = none by decide]; simp), by decide +kernel⟩,
   ⟨ready (by decide +kernel), addr _ _ _ (by decide +kernel) (by decide +kernel), fun b h => absurd h (by
     rw [show (j bare).bind? (remoteCore (j bare) (col (j bare))) (j bare).th.ctx = none by decide +kernel]; simp)⟩,
   ⟨ready (by decide +kernel), addr _ _ _ (by decide +kernel) (by decide +kernel), ⟨nb 0, by decide +kernel, by decide +kernel, by decide +kernel⟩,
     by unfold GatedBank; rintro ⟨b, h, -⟩; exact absurd h (by rw [show leeBank 0xFF8 = none by decide]; simp), by decide +kernel⟩,
   ⟨ready (by decide +kernel), addr _ _ _ (by decide +kernel) (by decide +kernel), ⟨{ nb 512 with lent := false }, by decide +kernel, by decide +kernel, by decide +kernel⟩,
     ⟨0, by decide, by decide +kernel⟩⟩, ready (by decide +kernel),
   .inl ⟨by unfold Addr; decide +kernel, by decide +kernel⟩, .inr (.inl ⟨by unfold Addr; decide +kernel, by decide +kernel, by decide +kernel⟩),
   .inr (.inr (.inl ⟨by unfold Addr; decide +kernel, by decide +kernel, by decide +kernel, by decide +kernel⟩)),
   .inr (.inr (.inr (.inl ⟨by unfold Addr; decide +kernel, by decide +kernel, by decide +kernel, fun h => absurd h.2.2.2.1 (by decide),
     by decide +kernel⟩))),
   .inr (.inr (.inr (.inr ⟨addr _ _ _ (by decide +kernel) (by decide +kernel), by decide +kernel, nb 0, by decide +kernel, by decide +kernel⟩)))⟩

/-- A put and a get of 8 bytes that release and acquire, one of no bytes, one whose bytes end off an 8-byte boundary, one from 2⁵⁶, a full
scoreboard; a descriptor of two members and one element, one of none, a poisoned one, one that waits for its page, and an address without
one. -/
theorem witness_NetworkCommands :
    let ss := [(SReg.w 1).spec, (SReg.w 2).spec, (SReg.w 3).spec]
    let cs := [(SReg.w 1).spec, (SReg.w 2).spec]
    let len (j : State) : Nat := (j.sreg (.w 1)).toNat / 2 ^ 32
    let good (j : State) : Prop := len j ≠ 0 ∧ 8 ≤ len j ∧ ((j.sreg (.w 2)).toNat + len j) % 8 = 0 ∧ (j.sreg (.w 2)).toNat % 8 = 0
    let s (a b c : Word) : State := rigW [(1, a), (2, b), (3, c)]
    let full : State := { s 0x800000001 0 0 with th := { (s 0x800000001 0 0).th with rngs := List.replicate 16 (extent 1 0 64) } }
    let coll (m : List (Nat × Byte)) : State := { rigW [(1, 0x10000)] with mem := m }
    let two : List (Nat × Byte) := [(0x10000, 2), (0x10008, 1), (0x10011, 1), (0x10012, 1), (0x10019, 2), (0x1001A, 1), (0x10021, 3), (0x10022, 1)]
    let away : State := { rigW [(1, 0x30000)] with cx := { rig.cx with
      ptes := rig.cx.ptes ++ [{ va := 0x30000, lvl := 4, ctl := leafCtl 1 0 true true false false true rawAttr 0 0, loc := 0 }] } }
    let desc (s : State) : Except (Nat × OpStop) (List Spot × List Byte) := s.flush.opBytes (s.sreg (.w 1)).toNat 64
    CmdHyp (.w 4) ss (fun j => Addr (j.sreg (.w 3)) ∧ good j ∧ NetRoom j 1) (s 0x800000001 0 0x00FFFFFFFFFFFFFF) ∧
    CmdHyp (.w 4) ss (fun j => ¬ Addr (j.sreg (.w 3))) (s 0x800000001 0 0x0100000000000000) ∧
    CmdHyp (.w 4) ss (fun j => Addr (j.sreg (.w 3)) ∧ len j = 0) (s 1 0 0) ∧
    CmdHyp (.w 4) ss (fun j => Addr (j.sreg (.w 3)) ∧ len j ≠ 0 ∧ ¬ good j) (s 0x800000001 1 0) ∧
    CmdHyp (.w 4) ss (fun j => good j ∧ ¬ NetRoom j 1) full ∧
    CmdHyp (.w 4) cs (fun j => Addr (j.sreg (.w 1)) ∧ NetRoom j 2 ∧
      (match desc j with
        | .ok (ps, d) => !ps.any (j.flush.opReadNote ps).opPoison && (ncollCmd (j.flush.opReadNote ps) d (j.sreg (.w 2)).toNat 255 7).isSome
        | .error _ => false) = true) (coll two) ∧
    CmdHyp (.w 4) cs (fun j => Addr (j.sreg (.w 1)) ∧
      (match desc j with
        | .ok (ps, d) => !ps.any (j.flush.opReadNote ps).opPoison && (ncollCmd (j.flush.opReadNote ps) d (j.sreg (.w 2)).toNat 255 7).isNone
        | .error _ => false) = true) (coll []) ∧
    CmdHyp (.w 4) cs (fun j => (match desc j with | .ok (ps, _) => ps.any (j.flush.opReadNote ps).opPoison | .error _ => false) = true)
      { coll [] with poison := [0x400] } ∧
    CmdHyp (.w 4) cs (fun j => Addr (j.sreg (.w 1)) ∧ (match desc j with | .error (_, .fail _) => true | _ => false) = true) rig ∧
    CmdHyp (.w 4) cs (fun j => Addr (j.sreg (.w 1)) ∧ (match desc j with | .error (_, .wait _) => true | _ => false) = true) away ∧
    CmdHyp (.w 4) cs (fun j => ¬ Addr (j.sreg (.w 1))) (s 0x0100000000000000 0 0) ∧
    Ready [(SDst.w 1).spec] [(SSrc.imm 3).spec] rig :=
  ⟨⟨cmdReady (by decide +kernel) (by decide +kernel), by unfold Addr NetRoom; decide +kernel⟩,
   ⟨cmdReady (by decide +kernel) (by decide +kernel), by unfold Addr; decide +kernel⟩,
   ⟨cmdReady (by decide +kernel) (by decide +kernel), by unfold Addr; decide +kernel⟩,
   ⟨cmdReady (by decide +kernel) (by decide +kernel), by unfold Addr; decide +kernel⟩,
   ⟨cmdReady (by decide +kernel) (by decide +kernel), by unfold NetRoom; decide +kernel⟩,
   ⟨cmdReady (by decide +kernel) (by decide +kernel), by unfold Addr NetRoom; decide +kernel⟩,
   ⟨cmdReady (by decide +kernel) (by decide +kernel), by unfold Addr; decide +kernel⟩,
   ⟨cmdReady (by decide +kernel) (by decide +kernel), by decide +kernel⟩,
   ⟨cmdReady (by decide +kernel) (by decide +kernel), by unfold Addr; decide +kernel⟩,
   ⟨cmdReady (by decide +kernel) (by decide +kernel), by unfold Addr; decide +kernel⟩,
   ⟨cmdReady (by decide +kernel) (by decide +kernel), by unfold Addr; decide +kernel⟩, ready (by decide +kernel)⟩
/-- A thread in handler mode, and an eddy. -/
def hnd (s : State) : State := { s with th := { s.th with handler := true } }
def eddyOf (s : State) : State := { s with th := { s.th with slot := 8, eddy := some ⟨0, Vector.replicate 4 0⟩ } }

/-- Register 4 and the first unlisted number; a legal target for tvec and one that is none; wvalid at 224 and 225 in handler mode. -/
theorem witness_SystemRegisters :
    let ss := [(SSrc.imm 4).spec, (SSrc.reg (.w 1)).spec]
    let vs := [(SSrc.imm 0x11).spec, (SSrc.reg (.w 1)).spec]
    let may (n : Nat) (j : State) : Prop := n ∈ taskWrites ∨ j.th.handler = true ∧ n ∈ handlerWrites
    Hyp [(SDst.w 1).spec] [(SSrc.imm 4).spec] (fun j => j.sysReg (j.n64 (.imm 4)).toNat = some 0) rig ∧
    Hyp [(SDst.w 1).spec] [(SSrc.imm 6).spec] (fun j => j.sysReg (j.n64 (.imm 6)).toNat = none) rig ∧ rig.th.eddy = none ∧
    (Ready [(SDst.w 1).spec] [(SSrc.imm 6).spec] (eddyOf rig) ∧ (eddyOf rig).th.eddy ≠ none) ∧
    Hyp [] ss (fun j => may (j.n64 (.imm 4)).toNat j ∧ Lands j (j.n64 (.reg (.w 1))) ∧
       (j.th.setSys (j.n64 (.imm 4)).toNat (j.n64 (.reg (.w 1)))).isSome = true) (rigW [(1, 0x20000)]) ∧
    Hyp [] [(SSrc.imm 0).spec, (SSrc.reg (.w 1)).spec] (fun j => ¬ may (j.n64 (.imm 0)).toNat j) rig ∧
    Hyp [] ss (fun j => (j.n64 (.imm 4)).toNat = 4 ∧ ¬ Lands j (j.n64 (.reg (.w 1)))) rig ∧
    Hyp [] vs (fun j => may (j.n64 (.imm 0x11)).toNat j ∧ (j.n64 (.imm 0x11)).toNat ≠ 4 ∧
      j.th.setSys (j.n64 (.imm 0x11)).toNat (j.n64 (.reg (.w 1))) = none) (hnd (rigW [(1, 225)])) ∧
    Hyp [] vs (fun j => may (j.n64 (.imm 0x11)).toNat j ∧ (j.n64 (.imm 0x11)).toNat ≠ 4 ∧
      (j.th.setSys (j.n64 (.imm 0x11)).toNat (j.n64 (.reg (.w 1)))).isSome = true) (hnd (rigW [(1, 224)])) :=
  ⟨⟨ready (by decide +kernel), by decide +kernel⟩, ⟨ready (by decide +kernel), by decide +kernel⟩, rfl, ⟨ready (by decide +kernel), by decide +kernel⟩,
   ⟨ready (by decide +kernel), by decide +kernel, ok (by decide +kernel), by decide +kernel⟩, ⟨ready (by decide +kernel), by decide +kernel⟩,
   ⟨ready (by decide +kernel), by decide +kernel, fun h => by
     have e : (rig.checkTarget 0).toOption = some () := by rw [show rig.checkTarget 0 = .ok () from h]; rfl
     exact absurd e (by decide +kernel)⟩,
   ⟨ready (by decide +kernel), by decide +kernel⟩, ready (by decide +kernel), by decide +kernel⟩

theorem witness_TrapsAndReturns :
    (let s := hnd { rig with th := { rig.th with tepc := 0x00FFFFFFFFFFFFFF } }
     Fresh s ∧ s.th.eddy = none ∧ s.th.handler = true ∧ Addr s.th.tepc ∧ s.present [(false, (SSrc.imm 6).spec)] = .ok ()) ∧
    (let s := hnd { rig with th := { rig.th with tepc := 0x0100000000000000 } }
     Fresh s ∧ s.th.eddy = none ∧ s.th.handler = true ∧ ¬ Addr s.th.tepc) ∧
    (let s : State := { rig with th := { rig.th with tvec := 0x20000 } }
     Ready [] [(SSrc.imm 6).spec] s ∧ s.th.eddy = none ∧ s.th.handler = false) ∧
    (Fresh (eddyOf rig) ∧ (eddyOf rig).th.eddy ≠ none) :=
  ⟨⟨⟨rfl, rfl⟩, rfl, rfl, by unfold Addr; decide +kernel, ok (by decide +kernel)⟩, ⟨⟨rfl, rfl⟩, rfl, rfl, by unfold Addr; decide +kernel⟩,
   ⟨ready (by decide +kernel), rfl, rfl⟩, ⟨rfl, rfl⟩, by decide +kernel⟩

/-- A pre-emption point with its descriptor line, and without; a line of bad parity, one that is no descriptor, one that is, and one that is
not mapped; a thread that waited at one; caps of 0, 1, 8 and 9. -/
theorem witness_HintsAndHeat :
    let l (s : State) : Word := ((s.th.pc >>> 6) + (1 : W32).signExtend 64) <<< 6
    let hint : State := { rig with mem := rig.mem ++ [(0x2007C, 0xC0), (0x2007D, 0x03)] }
    let badPar : State := { rig with mem := rig.mem ++ [(0x2007C, 0x40)] }
    let cap (n : Nat) (j : State) : Prop := 1 ≤ n ∧ n ≤ 8 ∧ (j.n64 (.reg (.w 1))).toNat = n
    (Fresh hint ∧ hint.th.eddy = none ∧ (∀ x, hint.th.wait ≠ some (.hint x)) ∧ (∃ b, hint.hintLine (l hint) = .ok b)) ∧
    (Fresh rig ∧ (∀ x, rig.th.wait ≠ some (.hint x)) ∧ ∃ e, rig.hintLine (l rig) = .error e) ∧
    (rig.lineAt 0x40000 = none ∧ hint.lineAt (l hint) = some 0x20040 ∧ (lineOf hint.mem 0x20040).lwpOk = true ∧
      (lineOf hint.mem 0x20040).pair = 15 ∧ (lineOf badPar.mem 0x20040).lwpOk = false) ∧
    (let s : State := { rig with th := { rig.th with wait := some (.hint []) } }
     Fresh s ∧ s.th.eddy = none ∧ s.th.wait = some (.hint [])) ∧
    Ready [specOf 0xB8 (1 : Fin 8)] [] rig ∧ (Fresh rig ∧ rig.th.eddy = none) ∧
    Hyp [] [(SSrc.reg (.w 1)).spec] (cap 1) (rigW [(1, 1)]) ∧ Hyp [] [(SSrc.reg (.w 1)).spec] (cap 8) (rigW [(1, 8)]) ∧
    Hyp [] [(SSrc.reg (.w 1)).spec] (fun j => (j.n64 (.reg (.w 1))).toNat = 0) rig ∧
    Hyp [] [(SSrc.reg (.w 1)).spec] (fun j => 8 < (j.n64 (.reg (.w 1))).toNat) (rigW [(1, 9)]) ∧ Ready [(SDst.w 1).spec] [(SSrc.imm 9).spec] rig :=
  ⟨⟨⟨rfl, rfl⟩, rfl, (fun _ h => by cases (show (none : Option Wait) = some (.hint _) from h)), answers (by decide +kernel)⟩,
   ⟨⟨rfl, rfl⟩, (fun _ h => by cases (show (none : Option Wait) = some (.hint _) from h)), err (by decide +kernel)⟩,
   ⟨by decide +kernel, by decide +kernel, by decide +kernel, by decide +kernel, by decide +kernel⟩, ⟨⟨rfl, rfl⟩, rfl, rfl⟩, ready (by decide +kernel), ⟨⟨rfl, rfl⟩, rfl⟩,
   ⟨ready (by decide +kernel), by decide +kernel⟩, ⟨ready (by decide +kernel), by decide +kernel⟩, ⟨ready (by decide +kernel), by decide +kernel⟩,
   ⟨ready (by decide +kernel), by decide +kernel⟩, ready (by decide +kernel)⟩

def SysHyp (mode : Option Bool) (d : FDst) (ss : List (BitVec 8)) (c : State → Prop) (s : State) : Prop := SysCmd mode d ss s ∧ c (s.joined ss)

/-- A record of five classes saved to its end, and one that runs off the page; one of no class read back, one of the wrong mask, and one off
the mapped pages; an address at 2⁵⁶, a mask of 256, the upper registers asked of a bare core, a pending register, a range of the
scoreboard. -/
theorem witness_SaveRecords :
    let ss := [(SSrc.reg (.w 1)).spec, (SSrc.reg (.w 2)).spec]
    let s (a m : Word) : State := hnd (rigW [(1, a), (2, m)])
    let code (s : State) : State := { s with core := { s.core with tlb := [⟨0, dataPage⟩, ⟨0, codePage⟩] } }
    let va (j : State) : Word := j.n64 (.reg (.w 1))
    let m (j : State) : Nat := (j.n64 (.reg (.w 2))).toNat
    let good (j : State) : Prop := Addr (va j) ∧ m j < 256 ∧ j.hasUpper = true
    let rec_ (j : State) : List Byte := (upper (m j) j).saveRecord (m j)
    let clear (j : State) : Prop := j.th.savePending (m j) = false ∧ (upper (m j) j).scoreboard (va j).toNat (rec_ j).length = .ok ()
    let header (j : State) (p : List Byte → Bool) : Prop :=
      (match j.loadBytes (va j) 64 with
        | .ok (some h) => p h.1
        | _ => false) = true
    let bare : State := { s 0x10000 16 with bd := { rig.bd with lee := false, lent := false } }
    let back (n : Nat) : State := { s 0x10000 0 with mem := [(0x10008, 64)] ++ if n = 0 then [] else [(0x10009, 1)] }
    SysHyp (some true) (.w 3) ss (fun j => good j ∧ clear j ∧ ((upper (m j) j).byteSpots (va j) true (rec_ j).length).2 = none) (s 0x10000 0xE5) ∧
    SysHyp (some true) (.w 3) ss (fun j => good j ∧ clear j ∧
      (((upper (m j) j).byteSpots (va j) true (rec_ j).length).2.map Stop.isTrap) = some true) (code (s 0x1FFC0 0xE5)) ∧
    SysHyp (some true) (.w 3) ss (fun j => good j ∧ header j fun h => decide (fieldAt h 0 8 = 0) && decide (fieldAt h 8 8 = classOff 0 0 8)) (back 0) ∧
    SysHyp (some true) (.w 3) ss (fun j => good j ∧ header j fun h => !(decide (fieldAt h 0 8 = 0) && decide (fieldAt h 8 8 = classOff 0 0 8)))
      (back 1) ∧
    SysHyp (some true) (.w 3) ss (fun j => good j ∧ (j.loadBytes (va j) 64).toOption = some none) (code (s 0x1FFF0 0)) ∧
    SysHyp (some true) (.w 3) ss (fun j => ¬ Addr (va j)) (s 0x0100000000000000 0) ∧
    SysHyp (some true) (.w 3) ss (fun j => Addr (va j) ∧ 256 ≤ m j) (s 0x10000 256) ∧
    SysHyp (some true) (.w 3) ss (fun j => Addr (va j) ∧ m j < 256 ∧ (m j).testBit 4 = true ∧ j.hasUpper = false) bare ∧
    SysHyp (some true) (.w 3) ss (fun j => good j ∧ j.th.savePending (m j) = true)
      { s 0x10000 1 with th := (s 0x10000 1).th.updReg 4 fun _ => { fut := some 7 } } ∧
    SysHyp (some true) (.w 3) ss (fun j => good j ∧ j.th.savePending (m j) = false ∧ ∃ e, (upper (m j) j).scoreboard (va j).toNat (rec_ j).length = .error e)
      { s 0x10000 0xE5 with th := { (s 0x10000 0xE5).th with rngs := [extent 1 0x10000 64] } } ∧
    (Fresh rig ∧ rig.present ((true, (FDst.w 3).spec) :: ss.map fun a => (false, a)) = .ok () ∧ rig.th.eddy = none ∧ rig.th.handler = false) := by
  intro ss s code va m good rec_ clear header bare back
  have sys (s : State) (h : (decide (s.iss.mode = Mode.single) && decide (s.iss.res = .done) &&
      decide ((s.present (([] : List (BitVec 8)).map (fun d => (true, d)) ++ ss.map fun a => (false, a))).toOption = some ()) &&
      s.settled ([] ++ ss)) = true)
      (h' : ((s.present ((true, (FDst.w 3).spec) :: ss.map fun a => (false, a))).toOption == some () && s.th.eddy.isNone) = true)
      (hm : s.th.handler = true) : SysCmd (some true) (.w 3) ss s := ⟨cmdReady h h', by rintro m ⟨⟩; exact hm⟩
  exact ⟨⟨sys _ (by decide +kernel) (by decide +kernel) rfl, ⟨by unfold Addr; decide +kernel, by decide +kernel⟩, ⟨by decide +kernel, ok (by decide +kernel)⟩, by decide +kernel⟩,
   ⟨sys _ (by decide +kernel) (by decide +kernel) rfl, ⟨by unfold Addr; decide +kernel, by decide +kernel⟩, ⟨by decide +kernel, ok (by decide +kernel)⟩, by decide +kernel⟩,
   ⟨sys _ (by decide +kernel) (by decide +kernel) rfl, ⟨by unfold Addr; decide +kernel, by decide +kernel⟩, by decide +kernel⟩,
   ⟨sys _ (by decide +kernel) (by decide +kernel) rfl, ⟨by unfold Addr; decide +kernel, by decide +kernel⟩, by decide +kernel⟩,
   ⟨sys _ (by decide +kernel) (by decide +kernel) rfl, ⟨by unfold Addr; decide +kernel, by decide +kernel⟩, by decide +kernel⟩,
   ⟨sys _ (by decide +kernel) (by decide +kernel) rfl, by unfold Addr; decide +kernel⟩,
   ⟨sys _ (by decide +kernel) (by decide +kernel) rfl, by unfold Addr; decide +kernel⟩,
   ⟨sys _ (by decide +kernel) (by decide +kernel) rfl, by unfold Addr; decide +kernel⟩,
   ⟨sys _ (by decide +kernel) (by decide +kernel) rfl, ⟨by unfold Addr; decide +kernel, by decide +kernel⟩, by decide +kernel⟩,
   ⟨sys _ (by decide +kernel) (by decide +kernel) rfl, ⟨by unfold Addr; decide +kernel, by decide +kernel⟩, by decide +kernel, err (by decide +kernel)⟩,
   ⟨rfl, rfl⟩, ok (by decide +kernel), rfl, rfl⟩

/-- The rig with a funding, an empty, a held and a busy slot, and the presence record's page. -/
def rigC (l : List (Fin 32 × Word)) : State := { rigW l with cx := { rig.cx with
  ws := #v[{ st := .funding }, {}, { st := .held }, { st := .held, busy := true }, {}, {}, {}, {}] } }

/-- A record on its page, off a 64-byte boundary, and at 2⁵⁶; a split from slot 2 to slot 1, with a bit that is none of a slot's, of a busy
target, of a busy source, to a slot that is full and to slot 0, and from an empty one; a delegation and a surrender of slot 2, of a busy slot
and of an empty one; a context that surrenders; a query of five kinds and of a sixth. -/
theorem witness_WarrantInstructions :
    let ss := [(SSrc.reg (.w 1)).spec, (SSrc.reg (.w 2)).spec]
    let s (w : Word) : State := rigC [(1, 0x10000), (2, w)]
    let a (j : State) : Word := j.n64 (.reg (.w 1))
    let w (j : State) : Word := j.n64 (.reg (.w 2))
    let st (j : State) (n : Fin 8) : WState := j.cx.ws[n].st
    let busy (j : State) (n : Fin 8) : Prop := j.cx.ws[n].busy = true
    let idle (j : State) : Prop := SlotWord j (w j) 0x707 ∧ ¬ busy j (slotT (w j)) ∧ ¬ busy j (slotS (w j))
    let room (j : State) : Prop := slotT (w j) ≠ 0 ∧ st j (slotT (w j)) = .empty
    let gone : State := { s 2 with cx := { (s 2).cx with surr := true } }
    SysHyp none (.w 6) ss (fun j => RawAddr j (a j)) (s 0) ∧
    SysHyp none (.w 6) ss (fun j => NotRaw j (a j) 0 (warStop 0 5)) (rigC [(1, 0x10020)]) ∧
    SysHyp none (.w 6) ss (fun j => NotRaw j (a j) 0 (.trap 2 0x0100000000000000)) (rigC [(1, 0x0100000000000000)]) ∧
    SysHyp none (.w 6) ss (fun j => idle j ∧ room j ∧ st j (slotS (w j)) = .held ∧ RawAddr j (a j)) (s 0x102) ∧
    SysHyp none (.w 6) ss (fun j => idle j ∧ room j ∧ st j (slotS (w j)) = .funding) (s 0x100) ∧
    SysHyp none (.w 6) ss (fun j => NoSlotWord j (w j) 0x707 (warStop 2 4)) (s 0x10A) ∧
    SysHyp none (.w 6) ss (fun j => NoSlotWord j (w j) 0x707 (warStop 2 6)) gone ∧
    SysHyp none (.w 6) ss (fun j => SlotWord j (w j) 0x707 ∧ busy j (slotT (w j))) (s 0x302) ∧
    SysHyp none (.w 6) ss (fun j => SlotWord j (w j) 0x707 ∧ ¬ busy j (slotT (w j)) ∧ busy j (slotS (w j))) (s 0x103) ∧
    SysHyp none (.w 6) ss (fun j => idle j ∧ ¬ room j) (s 0x202) ∧ SysHyp none (.w 6) ss (fun j => idle j ∧ ¬ room j) (s 2) ∧
    SysHyp none (.w 6) ss (fun j => idle j ∧ room j ∧ ¬ (st j (slotS (w j)) = .funding ∨ st j (slotS (w j)) = .held)) (s 0x105) ∧
    SysHyp none (.w 6) ss (fun j => idle j ∧ room j ∧ st j (slotS (w j)) = .held ∧ NotRaw j (a j) (slotS (w j)) (warStop 2 5)) (rigC [(1, 0x10020), (2, 0x102)]) ∧
    SysHyp none (.w 6) ss (fun j => SlotWord j (w j) 7 ∧ ¬ busy j (slotS (w j)) ∧ st j (slotS (w j)) = .held ∧ RawAddr j (a j)) (s 2) ∧
    SysHyp none (.w 6) ss (fun j => SlotWord j (w j) 7 ∧ busy j (slotS (w j))) (s 3) ∧
    SysHyp none (.w 6) ss (fun j => SlotWord j (w j) 7 ∧ ¬ busy j (slotS (w j)) ∧ slotS (w j) ≠ 0 ∧ st j (slotS (w j)) ≠ .held) (s 1) ∧
    SysHyp none (.w 6) ss (fun j => SlotWord j (w j) 7 ∧ ¬ busy j (slotS (w j)) ∧ slotS (w j) = 0) (s 0) ∧
    Hyp [(SDst.w 7).spec] [(SSrc.reg (.w 2)).spec] (fun j => w j &&& ~~~0x707#64 = 0 ∧ (slotT (w j)).val < 5) (s 0x402) ∧
    Hyp [(SDst.w 7).spec] [(SSrc.reg (.w 2)).spec] (fun j => ¬ ((slotT (w j)).val < 5)) (s 0x500) ∧
    Hyp [(SDst.w 7).spec] [(SSrc.reg (.w 2)).spec] (fun j => ¬ (w j &&& ~~~0x707#64 = 0)) (s 0x800) ∧
    (Ready [(SDst.w 7).spec] [] (s 0) ∧ (s 0).cx.capture = false ∧ (s 0).cx.replay = none) := by
  intro ss s a w st busy idle room gone
  have sys (s : State) (h : (decide (s.iss.mode = Mode.single) && decide (s.iss.res = .done) &&
      decide ((s.present (([] : List (BitVec 8)).map (fun d => (true, d)) ++ ss.map fun a => (false, a))).toOption = some ()) &&
      s.settled ([] ++ ss)) = true)
      (h' : ((s.present ((true, (FDst.w 6).spec) :: ss.map fun a => (false, a))).toOption == some () && s.th.eddy.isNone) = true) :
      SysCmd none (.w 6) ss s := ⟨cmdReady h h', fun _ h => nomatch h⟩
  have raw (s : State) (x : Word) (h : s.cx.pte? x.toNat = some dataPage) (h' : x.toNat < 2 ^ 56 ∧ x.toNat % 64 = 0) : RawAddr s x :=
    ⟨h'.1, h'.2, fun _ e he => by rw [h] at he; cases he; decide⟩
  exact ⟨⟨sys _ (by decide +kernel) (by decide +kernel), raw _ _ (by decide +kernel) (by decide +kernel)⟩,
   ⟨sys _ (by decide +kernel) (by decide +kernel), .inr ⟨by unfold Addr; decide +kernel, fun h => absurd h.2.1 (by decide +kernel), rfl⟩⟩,
   ⟨sys _ (by decide +kernel) (by decide +kernel), .inl ⟨by unfold Addr; decide +kernel, by decide +kernel⟩⟩,
   ⟨sys _ (by decide +kernel) (by decide +kernel), by dsimp only [idle, room, busy, st, SlotWord]; decide +kernel, by decide +kernel, by decide +kernel,
     raw _ _ (by decide +kernel) (by decide +kernel)⟩,
   ⟨sys _ (by decide +kernel) (by decide +kernel), by dsimp only [idle, room, busy, st, SlotWord]; decide +kernel⟩,
   ⟨sys _ (by decide +kernel) (by decide +kernel), .inr (by decide +kernel)⟩,
   ⟨sys _ (by decide +kernel) (by decide +kernel), .inl (by decide +kernel)⟩,
   ⟨sys _ (by decide +kernel) (by decide +kernel), by dsimp only [idle, room, busy, st, SlotWord]; decide +kernel⟩,
   ⟨sys _ (by decide +kernel) (by decide +kernel), by dsimp only [idle, room, busy, st, SlotWord]; decide +kernel⟩,
   ⟨sys _ (by decide +kernel) (by decide +kernel), by dsimp only [idle, room, busy, st, SlotWord]; decide +kernel⟩,
   ⟨sys _ (by decide +kernel) (by decide +kernel), by dsimp only [idle, room, busy, st, SlotWord]; decide +kernel⟩,
   ⟨sys _ (by decide +kernel) (by decide +kernel), by dsimp only [idle, room, busy, st, SlotWord]; decide +kernel⟩,
   ⟨sys _ (by decide +kernel) (by decide +kernel), by dsimp only [idle, room, busy, st, SlotWord]; decide +kernel, by decide +kernel, by decide +kernel,
     .inr ⟨by unfold Addr; decide +kernel, fun h => absurd h.2.1 (by decide +kernel), by decide +kernel⟩⟩,
   ⟨sys _ (by decide +kernel) (by decide +kernel), by dsimp only [idle, room, busy, st, SlotWord]; decide +kernel, by decide +kernel, by decide +kernel,
     raw _ _ (by decide +kernel) (by decide +kernel)⟩,
   ⟨sys _ (by decide +kernel) (by decide +kernel), by dsimp only [idle, room, busy, st, SlotWord]; decide +kernel⟩,
   ⟨sys _ (by decide +kernel) (by decide +kernel), by dsimp only [idle, room, busy, st, SlotWord]; decide +kernel⟩,
   ⟨sys _ (by decide +kernel) (by decide +kernel), by dsimp only [idle, room, busy, st, SlotWord]; decide +kernel⟩,
   ⟨ready (by decide +kernel), by decide +kernel⟩, ⟨ready (by decide +kernel), by decide +kernel⟩, ⟨ready (by decide +kernel), by decide +kernel⟩,
   ready (by decide +kernel), rfl, rfl⟩

/-- A mapped address, one that no page maps, one in the window, and one of a malformed leaf; an address of a translation command below and at
2⁵⁶, and task mode. -/
theorem witness_TranslationCommands :
    let ss := [(SSrc.reg (.w 1)).spec, (SSrc.reg (.w 2)).spec, (SSrc.reg (.w 3)).spec]
    let va (j : State) : Nat := (j.n64 (.reg (.w 1))).toNat
    let out (j : State) : Prop := 2 ^ 56 ≤ va j ∨ isWin (va j) = true
    let bad (j : State) : Prop := j.walkPoison (va j) = true ∨ ∃ p, j.cx.pte? (va j) = some p ∧ p.malformed = true
    let twisted : Pte := { dataPage with loc := 0x10001 }
    let odd : State := { rigW [(1, 0x10000)] with cx := { rig.cx with ptes := [twisted] } }
    Hyp [(SDst.w 7).spec] [(SSrc.reg (.w 1)).spec] (fun j => ¬ out j ∧ ¬ bad j) (rigW [(1, 0x1FFFF)]) ∧
    Hyp [(SDst.w 7).spec] [(SSrc.reg (.w 1)).spec] (fun j => ¬ out j ∧ bad j) odd ∧
    Hyp [(SDst.w 7).spec] [(SSrc.reg (.w 1)).spec] out (rigW [(1, 0x00FFFFFFFFF80000)]) ∧
    Hyp [(SDst.w 7).spec] [(SSrc.reg (.w 1)).spec] out (rigW [(1, 0x0100000000000000)]) ∧
    SysHyp (some true) (.w 6) ss (fun j => Addr (j.n64 (.reg (.w 1)))) (hnd (rigW [(1, 0x00FFFFFFFFFFFFFF)])) ∧
    SysHyp (some true) (.w 6) ss (fun j => ¬ Addr (j.n64 (.reg (.w 1)))) (hnd (rigW [(1, 0x0100000000000000)])) ∧
    (Fresh rig ∧ rig.present ((true, (FDst.w 6).spec) :: ss.map fun a => (false, a)) = .ok () ∧ rig.th.eddy = none ∧ rig.th.handler = false) :=
  ⟨⟨ready (by decide +kernel), by decide +kernel, by
     rintro (h | ⟨p, h, h'⟩)
     · exact absurd h (by decide +kernel)
     · rw [show ((rigW [(1, 0x1FFFF)]).joined ([(SDst.w 7).spec] ++ [(SSrc.reg (.w 1)).spec])).cx.pte?
         ((((rigW [(1, 0x1FFFF)]).joined ([(SDst.w 7).spec] ++ [(SSrc.reg (.w 1)).spec])).n64 (.reg (.w 1))).toNat) = some dataPage by
           decide +kernel] at h
       cases h
       exact absurd h' (by decide +kernel)⟩,
   ⟨ready (by decide +kernel), by decide +kernel, .inr ⟨{ dataPage with loc := 0x10001 }, by decide +kernel, by decide +kernel⟩⟩,
   ⟨ready (by decide +kernel), .inr (by decide +kernel)⟩, ⟨ready (by decide +kernel), .inl (by decide +kernel)⟩,
   ⟨⟨cmdReady (by decide +kernel) (by decide +kernel), by rintro m ⟨⟩; rfl⟩, by unfold Addr; decide +kernel⟩,
   ⟨⟨cmdReady (by decide +kernel) (by decide +kernel), by rintro m ⟨⟩; rfl⟩, by unfold Addr; decide +kernel⟩,
   ⟨rfl, rfl⟩, ok (by decide +kernel), rfl, rfl⟩

/-- A request of the thread of core 0, and one of a peer. -/
def ask (pa : Nat) (body : ReqBody) : Req :=
  { who := .thr ⟨0, 0, 0⟩, ctx := 0, key := 0, pa, rel := false, sc := .core, port := none, body }
def asks (l : List Req) : State := { rig with reqs := l }
def put8 (pa : Nat) : Req := ask pa (.write [(pa, 1, 0xFF)])

/-- A store alone; one behind another to its line, and a release behind any; one whose clock names a write that is not applied (the
least and the most distance), and is not; one to an address nothing stands behind, at either end of the memory of the first tier; one under
another key; the same of an atomic, a read and a probe; each way of an echo, of data and of an acknowledgement. -/
theorem witness_HomeSliceEvents :
    let amo : Req := ask 0x10000 (.amo 0 .i64 .rne 1 0 true)
    let clk (n : BitVec 40) : Req := { put8 0x10000 with clk := some #v[n, 0, 0, 0, 0, 0] }
    let peer (b : ReqBody) : Req := { ask 0x10000 b with who := .peer 9 0 }
    let keyed (r : Req) : State := { asks [r] with frames := [{ base := 0x10000, size := 0x10000, key := 3 }] }
    let waits (k n : Nat) (s : State) (r : Req) : Prop := ∃ q ∈ s.reqs.take k, q.who.party = r.who.party ∧ ∃ x ∈ q.cells, r.pa ≤ x.1 ∧ x.1 < r.pa + n
    ((asks [put8 0x10000]).reqs[0]? = some (put8 0x10000) ∧ ¬ StoreWaits 0 (put8 0x10000) (asks [put8 0x10000]) ∧ Behind (put8 0x10000).pa ∧
      ¬ WrongKey (put8 0x10000) (asks [put8 0x10000])) ∧
    StoreWaits 1 (put8 0x10000) (asks [put8 0x10008, put8 0x10000]) ∧
    StoreWaits 1 { put8 0x10000 with rel := true } (asks [put8 0x10040, { put8 0x10000 with rel := true }]) ∧
    ¬ StoreWaits 1 (put8 0x10000) (asks [put8 0x10040, put8 0x10000]) ∧
    StoreWaits 0 (clk 1) (asks [clk 1]) ∧ StoreWaits 0 (clk (2 ^ 39)) (asks [clk (2 ^ 39)]) ∧ ¬ StoreWaits 0 (clk (2 ^ 39 + 1)) (asks [clk (2 ^ 39 + 1)]) ∧
    Behind (384 * 10 ^ 9 - 1) ∧ ¬ Behind (384 * 10 ^ 9) ∧ WrongKey (put8 0x1FFFF) (keyed (put8 0x1FFFF)) ∧ ¬ WrongKey (put8 0x20000) (keyed (put8 0x20000)) ∧
    ((asks [amo]).reqs[0]? = some amo ∧ ¬ WrongKey amo (asks [amo]) ∧ ¬ StoreWaits 0 amo (asks [amo]) ∧ Behind amo.pa) ∧
    (let r := ask 0x10000 (.read 8)
     (asks [r]).reqs[0]? = some r ∧ ¬ waits 0 8 (asks [r]) r ∧ waits 1 8 (asks [put8 0x10007, r]) r ∧ ¬ waits 1 8 (asks [put8 0x10008, r]) r ∧
       poisoned (asks [r]).poison r.pa 8 = false ∧ poisoned ({ asks [r] with poison := [0x400] } : State).poison r.pa 8 = true) ∧
    (let r := ask (home 0x10000) .probe
     let held (k : Nat) (s : State) : Prop := ∃ q ∈ s.reqs.take k, q.who.party = r.who.party ∧ q.isStore = true ∧ noHome q.pa = false ∧ home q.pa = r.pa
     (asks [r]).reqs[0]? = some r ∧ ¬ held 0 (asks [r]) ∧ held 1 (asks [put8 0x10000, r])) ∧
    (let s : State := { asks [ask 3 .echo, { ask 3 .echo with who := .save ⟨0, 0, 0⟩ }] with th := { rig.th with wait := some (.echoes 1) } }
     s.reqs[0]? = some (ask 3 .echo) ∧ s.thread? ⟨0, 0, 0⟩ = some s.th ∧ s.th.wait = some (.echoes (0 + 1)) ∧
       s.reqs[1]? = some { ask 3 .echo with who := .save ⟨0, 0, 0⟩ }) ∧
    (let s : State := { asks [ask 0x10000 (.data [1] 0), ask 0x10000 (.data [1] 1), peer (.data [1] 0), peer (.data [1] 1)] with
       th := { rig.th with wait := some (.value none) } }
     s.reqs[0]? = some (ask 0x10000 (.data [1] 0)) ∧ s.reqs[1]? = some (ask 0x10000 (.data [1] 1)) ∧ s.thread? ⟨0, 0, 0⟩ = some s.th ∧
       s.th.wait = some (.value none) ∧ s.reqs[2]? = some (peer (.data [1] 0)) ∧ s.reqs[3]? = some (peer (.data [1] 1))) ∧
    (let s := asks [ask 0x10000 (.ack 1 0), peer (.ack 0 0), peer (.ack 0 1)]
     s.reqs[0]? = some (ask 0x10000 (.ack 1 0)) ∧ s.reqs[1]? = some (peer (.ack 0 0)) ∧ s.reqs[2]? = some (peer (.ack 0 1)) ∧
       (∃ q ∈ (taken 1 s).reqs, q.who = (peer (.ack 0 0)).who)) ∧
    (∀ q ∈ (taken 0 (asks [peer (.ack 0 0)])).reqs, q.who ≠ (peer (.ack 0 0)).who) ∧ rig.reqs[0]? = none := by
  have still {k : Nat} {r : Req} {s : State} (h : r.clk = none)
      (h' : ¬ ∃ q ∈ s.reqs.take k, q.who.party = r.who.party ∧ q.isStore = true ∧
        (r.rel = true ∨ q.pa / 64 = r.pa / 64 ∨ (r.ord = true ∧ q.seen = true))) : ¬ StoreWaits k r s := by
    rintro (x | ⟨q, e, -⟩)
    · exact h' x
    · rw [h] at e
      cases e
  refine ⟨⟨by decide +kernel, still rfl (by decide +kernel), by unfold Behind; decide +kernel, by unfold WrongKey; decide +kernel⟩,
    .inl (by decide +kernel), .inl (by decide +kernel), still rfl (by decide +kernel), ?_, ?_, ?_,
    by unfold Behind; decide +kernel, by unfold Behind; decide +kernel, by unfold WrongKey; decide +kernel, by unfold WrongKey; decide +kernel,
    ⟨by decide +kernel, by unfold WrongKey; decide +kernel, still rfl (by decide +kernel), by unfold Behind; decide +kernel⟩,
    by decide +kernel, by decide +kernel, ⟨rfl, rfl, rfl, rfl⟩, ⟨rfl, rfl, rfl, rfl, rfl, rfl⟩, by decide +kernel, by decide +kernel, rfl⟩
  · exact .inr ⟨_, rfl, by decide +kernel, 0, by decide +kernel⟩
  · exact .inr ⟨_, rfl, by decide +kernel, 0, by decide +kernel⟩
  · rintro (⟨q, h, -⟩ | ⟨q, h, -, i, h'⟩)
    · simp at h
    · cases h
      revert h'
      revert i
      decide +kernel
/-- No word of a gang for dst stands in the list. -/
theorem ahead {l : List Pkt} {dst : TKey} (h : l.all (fun p => match p with | .gang d _ _ => d != dst | _ => true) = true) :
    ∀ p ∈ l, ∀ x y, p ≠ .gang dst x y := by
  intro p hp x y e
  have := List.all_eq_true.1 h p hp
  subst e
  simp at this

/-- A word on its way and one that arrives at an empty register, and at a full one; an arrival and two releases at cores of the task, and at one
that is out; a word of a gang behind another, to a member, to a thread that is none, and to one that is out; a window update; a message with
room, without, and refused for each reason; one that is to be dropped, recorded, or wait; a mailbox record that goes, one that is held, and
one whose receiver is gone. -/
theorem witness_FabricEvents :
    let sent (l : List Pkt) : State := { rig with pkts := l }
    let ready (s : State) (d c : Nat) (east : Bool) : Prop := (s.core? d).holder = some c ∧ (s.bind? d c).isSome = true ∧
      (if east then (s.core? d).lnkw = none else (s.core? d).lnke = none)
    let full : State := { rig with core := { rig.core with lnkw := some 7 } }
    let task (st : TaskSt) : State := { rig with cx := { rig.cx with tasks := [{ rigTask with st }] } }
    let free : Msg := { mail with held := false }
    let poor : State := { rig with bds := [{ core := 1, nthr := 2, lines := 8, base := 0, caps := 0, heat := .gale, lee := true }] }
    let box (l : List Msg) (t : List Task) : State := { rig with cx := { rig.cx with mail := l, tasks := t } }
    (let s := sent [.link 0 0 true 7 1, .link 0 0 true 7 0, .link 0 0 false 7 0]
     s.pkts[0]? = some (.link 0 0 true 7 (0 + 1)) ∧ s.pkts[1]? = some (.link 0 0 true 7 0) ∧ s.pkts[2]? = some (.link 0 0 false 7 0) ∧
       ready s 0 0 true ∧ ready s 0 0 false ∧ ¬ ready full 0 0 true ∧ ¬ ready s 0 1 true) ∧
    (let s := sent [.arrival 0 0 3 1 none, .release 0 1 3 0 0 0 0x80000, .release 0 1 3 0 0x15 0 0, .arrival 0 2 3 1 none, .release 0 2 3 0 0 0 0]
     s.pkts[0]? = some (.arrival 0 0 (3 : Fin 4).val 1 none) ∧ s.taskAt 0 0 = some rigTask ∧ (s.bind? 0 0).isSome = true ∧
       s.pkts[1]? = some (.release 0 1 (3 : Fin 4).val 0 0 0 0x80000) ∧ (s.bind? 1 0).isSome = true ∧
       s.pkts[2]? = some (.release 0 1 (3 : Fin 4).val 0 0x15 0 0) ∧ s.pkts[3]? = some (.arrival 0 2 (3 : Fin 4).val 1 none) ∧
       s.pkts[4]? = some (.release 0 2 (3 : Fin 4).val 0 0 0 0) ∧ s.bind? 2 0 = none) ∧
    (let s : State := { sent [.gang ⟨0, 0, 0⟩ 5 none, .gang ⟨0, 0, 0⟩ 6 none, .window 3 8, .gang ⟨1, 0, 0⟩ 5 none, .gang ⟨0, 0, 5⟩ 5 none,
       .gang ⟨2, 0, 0⟩ 5 none] with th := { rig.th with gang := .member ⟨1, 0, 0⟩ [] } }
     let first (k : Nat) (dst : TKey) : Prop := ∀ p ∈ s.pkts.take k, ∀ x y, p ≠ .gang dst x y
     s.pkts[0]? = some (.gang ⟨0, 0, 0⟩ 5 none) ∧ first 0 ⟨0, 0, 0⟩ ∧ s.thread? ⟨0, 0, 0⟩ = some s.th ∧
       s.pkts[1]? = some (.gang ⟨0, 0, 0⟩ 6 none) ∧ ¬ first 1 ⟨0, 0, 0⟩ ∧ s.pkts[2]? = some (.window 3 8) ∧
       first 3 ⟨1, 0, 0⟩ ∧ ((s.thread? ⟨1, 0, 0⟩).map (·.gang)) = some .none ∧ first 4 ⟨0, 0, 5⟩ ∧ s.thread? ⟨0, 0, 5⟩ = none ∧
       s.thread? ⟨2, 0, 0⟩ = none ∧ s.bind? 2 0 = none) ∧
    ((sent [.msg mail]).pkts[0]? = some (.msg mail) ∧ Receiver (sent [.msg mail]) mail true ⟨1, 0, 0⟩ True ∧
      Receiver poor mail true ⟨1, 0, 0⟩ False ∧ Receiver rig { mail with greg := some 7 } true ⟨1, 0, 0⟩ True ∧
      Refused (task .saved) mail true 1 ∧ Refused (task .saving) mail true 2 ∧ Refused (task (.done 0)) mail true 3 ∧
      Refused rig { mail with dst := 1 } true 3 ∧ Refused (box [free] [rigTask]) mail true 1 ∧
      Refused rig { mail with dst := 0x00400000 + 0x0C000000 } true 3) ∧
    (let s := sent [.refuse mail 3, .refuse mail 1]
     s.pkts[0]? = some (.refuse mail 3) ∧ s.pkts[1]? = some (.refuse mail 1) ∧ s.cx? 0 = some s.cx ∧
       s.cx.task? (dstTask mail.dst) = some rigTask ∧ s.cx.use[3] + 128 ≤ s.cx.quota[3]) ∧
    (let s : State := { sent [.refuse mail 1] with cx := { rig.cx with quota := rig.cx.quota.set 3 127 } }
     ¬ s.cx.use[3] + 128 ≤ s.cx.quota[3]) ∧
    ((box [mail, free] [rigTask]).cx? 0 = some (box [mail, free] [rigTask]).cx ∧ (∀ y ∈ (box [mail, free] [rigTask]).cx.mail, y.src.ctx = 0) ∧
      (box [mail, free] [rigTask]).cx.mail = [mail] ++ free :: [] ∧ mail.held = true ∧ Receiver (box [mail, free] [rigTask]) free false ⟨1, 0, 0⟩ True) ∧
    Refused (box [free] [{ rigTask with st := .done 0 }]) free false 3 ∧ ((∀ y ∈ (box [mail] [rigTask]).cx.mail, y.held = true) ∧ rig.cx.mail = []) := by
  intro sent ready full task free poor box
  have rec_ (s : State) (m : Msg) (d : Bool) (k : TKey) (x : Context) (t : Task) (th : Thread) (b : Bind)
      (h : s.cx? m.src.ctx = some x ∧ x.task? (dstTask m.dst) = some t ∧ t.st = .placed ∧ k = t.thread m.src.ctx m.dst)
      (hd : d = true → ∀ r ∈ x.mail, r.held = false → dstTask r.dst ≠ dstTask m.dst) (h2 : s.thread? k = some th) (h3 : s.bind? k.core k.ctx = some b)
      (h4 : (match m.greg with | some g => (∀ r, th.g.toList[g]? = some r → r.fut = none) | none => s.poolGrant b 3 = true)) :
      Receiver s m d k True := ⟨x, t, th, b, h.1, h.2.1, h.2.2.1, h.2.2.2, hd, h2, h3, ⟨fun _ => h4, fun _ => trivial⟩⟩
  let th1 : Thread := { core := 1, pc := 0x20000, started := true, wait := some (.gjoin false) }
  let b1 : Bind := { core := 1, nthr := 2, lines := 8, base := 0, caps := BitVec.allOnes 64, heat := .gale, lee := true, lent := true }
  let b0 : Bind := { core := 1, nthr := 2, lines := 8, base := 0, caps := 0, heat := .gale, lee := true }
  refine ⟨by decide +kernel, by decide +kernel, ?_, ⟨by decide +kernel, ?_, ?_, ?_, ?_, ?_, ?_, ?_, ?_, ?_⟩, by decide +kernel, by decide +kernel,
    ⟨rfl, by decide +kernel, by decide +kernel, rfl, ?_⟩, ?_, by decide +kernel⟩
  · exact ⟨rfl, (fun p h => by cases h), rfl, rfl, (fun h => h _ (List.mem_singleton.2 rfl) _ _ rfl), rfl, ahead (by decide +kernel),
      by decide +kernel, ahead (by decide +kernel), rfl, rfl, rfl⟩
  · exact rec_ _ mail true ⟨1, 0, 0⟩ rig.cx rigTask th1 b1 ⟨rfl, rfl, rfl, by decide +kernel⟩ (fun _ r h => by cases h) rfl rfl
      (show State.poolGrant _ b1 3 = true by decide +kernel)
  · exact ⟨rig.cx, rigTask, th1, b0, rfl, rfl, rfl, by decide +kernel, (fun _ r h => by cases h), rfl, rfl,
      ⟨fun h => h.elim, fun h => absurd (show poor.poolGrant b0 3 = true from h) (by decide +kernel)⟩⟩
  · exact rec_ _ { mail with greg := some 7 } true ⟨1, 0, 0⟩ rig.cx rigTask th1 b1 ⟨rfl, rfl, rfl, by decide +kernel⟩ (fun _ r h => by cases h) rfl rfl
      (fun r h => by cases h; rfl)
  · exact .inr ⟨(task .saved).cx, { rigTask with st := .saved }, rfl, rfl, .inl ⟨.inr rfl, rfl⟩⟩
  · exact .inr ⟨(task .saving).cx, { rigTask with st := .saving }, rfl, rfl, .inr (.inl ⟨rfl, rfl⟩)⟩
  · exact .inr ⟨(task (.done 0)).cx, { rigTask with st := .done 0 }, rfl, by decide +kernel, .inr (.inr (.inl ⟨⟨_, rfl⟩, rfl⟩))⟩
  · exact .inl ⟨(fun x h => by cases h; decide +kernel), rfl⟩
  · exact .inr ⟨(box [free] [rigTask]).cx, rigTask, rfl, rfl,
      .inr (.inr (.inr (.inl ⟨rfl, .inl ⟨rfl, free, List.mem_singleton.2 rfl, rfl, rfl⟩, rfl⟩)))⟩
  · exact .inr ⟨rig.cx, rigTask, rfl, rfl, .inr (.inr (.inr (.inr ⟨rfl, (by rintro ⟨-, r, h, -⟩; cases h), by decide +kernel, by decide +kernel, rfl⟩)))⟩
  · exact rec_ _ free false ⟨1, 0, 0⟩ (box [mail, free] [rigTask]).cx rigTask th1 b1 ⟨rfl, by decide +kernel, rfl, by decide +kernel⟩ (fun h => by cases h) rfl rfl
      (show State.poolGrant _ b1 3 = true by decide +kernel)
  · exact .inr ⟨(box [free] [{ rigTask with st := .done 0 }]).cx, { rigTask with st := .done 0 }, rfl, by decide +kernel, .inr (.inr (.inl ⟨⟨_, rfl⟩, rfl⟩))⟩
/-- A copy of 8 bytes within the page. -/
def copyCmd : CopyCmd := { tag := 5, thr := 0, op := .mem 0x10100 0x10000 8, sc := .core }

/-- Handler read 5 of one burst of 8 bytes, its requests sent. -/
def hread : HRead := { tag := 5, thr := 0, src := 0x10000, rb := 8, rows := 1, pitch := 0, two := false, handler := 0x20000, sc := .core,
                       g := Vector.replicate 8 {}, asked := true }

/-- A shape command and a step command in the queue. -/
def zeroCmd : MCmd := { tag := 5, thr := 0, op := .zero 0 128 true }
def mmaCmd : MCmd := { tag := 5, thr := 0, op := .mma false 0 128 true (feed 0 0 false false) none, begun := true }

/-- The rig with copies, groups, reads, bursts, and commands and passing blocks of the engine. -/
def rigE (copies : List CopyCmd) (groups : List Group) (reads : List HRead) (bursts : List Burst) (queue : List MCmd) (lane : List Blk) : State :=
  { rigK with
    bd := { rig.bd with copies, reads, bursts }
    groups
    core := { rig.core with eng := { queue, lane } }
    cores := [{ id := 1, holder := some 0, eng := { role := .fin } }] }

/-- A command first in its queue. -/
theorem nextCopy {j : State} {c : CopyCmd} {new : List CopyCmd} (h : j.bd.copies = c :: new) (he : c.ended = false)
    (hr : j.bd.readAtHead = none) : NextCopy j c := ⟨⟨[], new, h, fun _ h => (List.not_mem_nil h).elim, he⟩, hr⟩

/-- A read at the head; a copy that moves, one that stops at a 512 B boundary and one at its start; one that begins, one that is offered, with
its task saved and not, and one that is fourth and fifth in transfer; a ring copy whose slot is free, whose ring is full, which is gone, and
behind another; an oldest command that has ended and has not. -/
theorem witness_CopyEvents :
    let q (l : List CopyCmd) : State := (rigE l [] [] [] [] []).focusOn 0 0
    let moving : CopyCmd := { copyCmd with begun := true, pos := 1 }
    let ring : CopyCmd := { copyCmd with op := .ring 0 0x10000 512 }
    let r0 : RingRef := ⟨0, 0, 0, 1, 2, 1, 0, none, false⟩
    let full : State := { q [ring] with th := (q [ring]).th.setRing 0 (.own 0 1 2 2 0 none) }
    let saved_ : State := { q [copyCmd] with cx := { rig.cx with tasks := [{ rigTask with st := .saving }] } }
    let g : Group := { id := 3, row := 0, ctx := 0, op := .mem 0x00FFFFFFFFF80000 0x10000 8, sc := .core, members := [(0, 5)], closed := true }
    let gs : State := rigE [copyCmd] [g, { g with id := 4, members := [] }, { g with id := 6, closed := false }] [] [] [] []
    ((rigE [] [] [] [] [] []).bind? 0 0).isSome = true ∧ rig.bind? 2 0 = none ∧
    ((rigE [copyCmd] [] [{ hread with tag := 4, asked := false }] [] [] []).focusOn 0 0).bd.readAtHead = some { hread with tag := 4, asked := false } ∧
    ((q []).bd.readAtHead = none ∧ ∀ c ∈ (q [{ copyCmd with ended := true }]).bd.copies, c.ended = true) ∧
    (NextCopy (q [moving]) moving ∧ moving.group = none ∧ ¬ Stopped moving) ∧
    (NextCopy (q [{ moving with pos := 256, cancelled := true }]) { moving with pos := 256, cancelled := true } ∧
      Stopped { moving with pos := 256, cancelled := true } ∧ ¬ Stopped { moving with cancelled := true }) ∧
    (NextCopy (q [{ copyCmd with group := some 3 }]) { copyCmd with group := some 3 }) ∧
    (NextCopy (q [copyCmd]) copyCmd ∧ (q [copyCmd]).inTransfer 0 < 4 ∧ copyCmd.offered = false ∧ ¬ Stopped copyCmd ∧
      (∀ k a n, copyCmd.op ≠ .ring k a n)) ∧
    Stopped { copyCmd with cancelled := true } ∧
    (let c : CopyCmd := { copyCmd with op := .mem 0x00FFFFFFFFF80000 0x10000 8, comb := true }
     NextCopy (q [c]) c ∧ c.offered = true ∧ (q [c]).saving (q [c]).bd = false) ∧ saved_.saving saved_.bd = true ∧
    4 ≤ (q (List.replicate 4 moving ++ [copyCmd])).inTransfer 0 ∧ (q (List.replicate 3 moving ++ [copyCmd])).inTransfer 0 < 4 ∧
    (NextCopy (q [ring]) ring ∧ (q [ring]).ringOf (q [ring]).bd.core (q [ring]).bd.ctx 0 0 = some r0 ∧
      (∀ x, (q [ring]).bd.copies.head? = some x → x.tag = ring.tag) ∧ r0.filled < r0.n ∧
      (∀ t, (q [ring]).thread? ⟨0, 0, 0⟩ = some t → t.rngs.length ≤ 14)) ∧
    (full.ringOf full.bd.core full.bd.ctx 0 0 = some { r0 with fill := 2 } ∧ ({ r0 with fill := 2 } : RingRef).n ≤ ({ r0 with fill := 2 } : RingRef).filled) ∧
    (let c : CopyCmd := { ring with op := .ring 5 0x10000 512 }
     NextCopy (q [c]) c ∧ (q [c]).ringOf (q [c]).bd.core (q [c]).bd.ctx 0 5 = none) ∧
    (let c : CopyCmd := { copyCmd with ended := true }
     (q [c]).bd.copies = c :: [] ∧ c.claim = none ∧ (q [copyCmd]).bd.copies = copyCmd :: []) ∧
    (let c : CopyCmd := { ring with ended := true, claim := some 512 }
     (q [c]).bd.copies = c :: [] ∧ c.claim = some 512 ∧ (q [c]).ringOf 0 0 0 0 = some r0) ∧
    (gs.groups.find? (fun x => x.id = 3 && x.closed) = some g ∧ gs.groups.find? (fun x => x.id = 4 && x.closed) = some { g with id := 4, members := [] } ∧
      gs.groups.find? (fun x => x.id = 6 && x.open_) = some { g with id := 6, closed := false } ∧
      gs.groups.find? (fun x => x.id = 7 && x.open_) = none ∧ gs.groups.find? (fun x => x.id = 7 && x.closed) = none ∧
      ((gs.focusOn 0 0).opSpots 0x10000 false 8).2 = none) ∧
    ((gs.focusOn 0 0).bd.copies.find? (fun x => x.tag = 5) = some copyCmd ∧ copyCmd.cancelled = false) := by
  intro q moving ring r0 full saved_ g gs
  exact ⟨by decide +kernel, by decide +kernel, by decide +kernel, by decide +kernel,
    ⟨nextCopy rfl rfl rfl, rfl, by unfold Stopped; decide +kernel⟩,
    ⟨nextCopy rfl rfl rfl, by unfold Stopped; decide +kernel, by unfold Stopped; decide +kernel⟩, nextCopy rfl rfl rfl,
    ⟨nextCopy rfl rfl rfl, by decide +kernel, by decide +kernel, by unfold Stopped; decide +kernel, fun k a n h => by cases h⟩,
    by unfold Stopped; decide +kernel, ⟨nextCopy rfl rfl rfl, by decide +kernel, by decide +kernel⟩, by decide +kernel, by decide +kernel, by decide +kernel,
    ⟨nextCopy rfl rfl rfl, by decide +kernel, (fun x h => by cases h; rfl), by decide +kernel, (fun t h => by cases h; decide)⟩, by decide +kernel,
    ⟨nextCopy rfl rfl rfl, by decide +kernel⟩, by decide +kernel, by decide +kernel, by decide +kernel, by decide +kernel⟩

/-- A burst due and read, not due, on no page, on a poisoned line and on a page that is away; one of a task that is out; a burst to be born, no
free eddy; a read that is over and one that is not. -/
theorem witness_EddyEvents :
    let s : State := (rigE [] [] [hread] [] [] []).focusOn 0 0
    let due (f : State) (r : HRead) : Prop := r.asked = true ∧ r.cancelled = false ∧ 0 < r.bursts ∧ 0 ∉ r.delivered ∧ f.poolGrant f.bd 4 = true
    let stop (f : State) (r : HRead) : Option OpStop := match f.opBytes (r.burst 0).1 (r.burst 0).2.1 with | .error e => some e.2 | .ok _ => none
    let past : HRead := { hread with delivered := [0], rets := 1 }
    let far : HRead := { hread with src := 0x40000 }
    let away : State := { s with cx := { s.cx with
      ptes := s.cx.ptes ++ [{ va := 0x40000, lvl := 4, ctl := leafCtl 1 0 true true false false true rawAttr 0 0, loc := 0 }] } }
    let out : State := { s with cx := { s.cx with saved := [{ bd := { s.bd with core := 9 }, core := { s.core with id := 9 }, ths := [] }] } }
    (s.isOut 0 0 = false ∧ s.bd.reads.find? (fun r => r.tag = 5) = some hread ∧ due s hread ∧
      (match s.opBytes (hread.burst 0).1 (hread.burst 0).2.1 with | .ok (ps, _) => !ps.any s.opPoison | .error _ => false) = true) ∧
    ¬ due s { hread with cancelled := true } ∧ ¬ due s past ∧ stop s far = some (.fail none) ∧
    (match stop away far with | some (.wait _) => true | _ => false) = true ∧
    (let t : State := { s with poison := [0x400] }
     (match t.opBytes (hread.burst 0).1 (hread.burst 0).2.1 with | .ok (ps, _) => ps.any t.opPoison | .error _ => false) = true) ∧
    out.isOut 9 0 = true ∧ 1 ≤ hread.rb ∧
    (let s := rigE [] [] [hread] [⟨5, 0, 0, 0⟩] [] []
     s.freeEddy 0 = 0 :: [1, 2, 3, 4, 5, 6, 7] ∧ s.eddyCtx 0 = some 0 ∧ (s.focusOn 0 0).bd.bursts = ⟨5, 0, 0, 0⟩ :: [] ∧
       (s.focusOn 0 0).bd.reads.find? (fun r => r.tag = 5) = some hread) ∧
    (rigE [] [] [hread] [] [] []).eddyCtx 0 = none ∧
    ((rigE [] [] [past] [] [] []).focusOn 0 0).readOver past = true ∧ s.readOver hread = false := by
  decide +kernel

/-- An engine whose core has a holder, and one that has none; each command that needs no step, alone in its queue, with a legal and an illegal
geometry or scale; a clk that makes a step and one that makes none; an oldest command that has ended and has not; a block on the lane to a core
that keeps it, one that passes it on, one without room, one of another context, and to no core. -/
theorem witness_MatrixEvents :
    let q (l : List MCmd) : State := rigE [] [] [] [] l []
    let j (l : List MCmd) : State := (q l).focusOn 0 0
    let cmd (op : MOp) : MCmd := { tag := 5, thr := 0, op }
    let geom (off : Word) : Geom := ⟨false, 0x240, off, 0x100000000, 1⟩
    let steps (s : State) : Prop := s.core.eng.clk * dutyOf s.bd.heat s.bd.cap / 8 < (s.core.eng.clk + 1) * dutyOf s.bd.heat s.bd.cap / 8
    let slow : State := { j [] with bd := { (j []).bd with cap := 1 } }
    let halted : State := { j [zeroCmd] with cx := { rig.cx with tasks := [{ rigTask with st := .saving }] } }
    let b : Blk := ⟨0, 16, .q4, 0, .good, []⟩
    let east (c : Core) : State := { rigE [] [] [] [] [] [b] with cores := [c] }
    let nextEng (s : State) : Engine := (s.core? 1).eng
    (Engaged 0 (q []) (j []) ∧ ∀ k, ¬ Engaged 5 (q []) k) ∧
    ((j [zeroCmd]).core.eng.queue = [zeroCmd] ∧ zeroCmd.ended = false ∧ zeroCmd.begun = false ∧ (j [zeroCmd]).engHalt = false ∧ halted.engHalt = true) ∧
    ((j [cmd (.geom (geom 0))]).core.eng.queue = [cmd (.geom (geom 0))] ∧ (∃ g : Geom, g.ok = false) ∧ (∃ g : Geom, g.ok = true) ∧
      (scalePair 0x3F800000 0x3F800000).isSome = true ∧ scalePair 0x7FC00000 0 = none) ∧
    (steps (j [mmaCmd]) ∧ (j [mmaCmd]).core.eng.active = [mmaCmd] ∧ mmaCmd.begun = true) ∧ ¬ steps slow ∧
    (∀ c ∈ (j [zeroCmd]).core.eng.active, ¬ (c.op.isMma = true ∧ c.begun = true)) ∧
    (j []).core.eng.queue = [] ∧
    (let c : MCmd := { zeroCmd with ended := true, slices := 1 }
     (j [c]).core.eng.queue = c :: [] ∧ c.slices ≠ 0) ∧
    ((rigE [] [] [] [] [] [b]).core? 0).eng.lane = b :: [] ∧ (q []).core.eng.lane = [] ∧
    (let s := east { id := 1, holder := some 0, eng := { role := .fin } }
     s.eastOf 0 b.ctx = some 1 ∧ s.engineHeld 1 b.ctx = true ∧ (nextEng s).role = .fin ∧ (nextEng s).feed.length < 4) ∧
    (let s := east { id := 1, holder := some 0, eng := { role := .fin, feed := List.replicate 4 b } }
     s.engineHeld 1 b.ctx = true ∧ 4 ≤ (nextEng s).feed.length) ∧
    (let s := east { id := 1, holder := some 0, eng := { role := .fwd, lane := [b] } }
     s.engineHeld 1 b.ctx = true ∧ (nextEng s).role = .fwd ∧ (nextEng s).lane ≠ []) ∧
    (let s := east { id := 1, holder := some 3, eng := { lane := [] } }
     s.eastOf 0 b.ctx = some 1 ∧ s.engineHeld 1 b.ctx = false ∧ (nextEng s).lane = []) ∧
    (let s := east { id := 1, holder := some 3, eng := { lane := [b] } }
     s.engineHeld 1 b.ctx = false ∧ (nextEng s).lane ≠ []) ∧
    ({ rigE [] [] [] [] [] [b] with cx := { rig.cx with tasks := [{ rigTask with cols := 1 }] } } : State).eastOf 0 b.ctx = none := by
  intro q j cmd geom steps slow halted b east nextEng
  refine ⟨⟨⟨0, rfl, rfl, rfl⟩, ?_⟩, by decide +kernel, ⟨by decide +kernel, ⟨⟨false, 0, 1, 0, 0⟩, by decide +kernel⟩, ⟨geom 0, by decide +kernel⟩,
    by decide +kernel⟩, by decide +kernel, by decide +kernel, by decide +kernel, by decide +kernel, by decide +kernel, by decide +kernel, by decide +kernel,
    by decide +kernel, by decide +kernel, by decide +kernel, by decide +kernel, by decide +kernel, by decide +kernel⟩
  rintro k ⟨ctx, h, -⟩
  exact absurd h (by rw [show ((q []).core? 5).holder = none by decide +kernel]; simp)

/-- The events of a core's engines: see witness_CopyEvents, witness_EddyEvents and witness_MatrixEvents. -/
theorem witness_CoreEngineEvents : Engaged 0 (rigE [] [] [] [] [] []) ((rigE [] [] [] [] [] []).focusOn 0 0) := ⟨0, rfl, rfl, rfl⟩

/-- A stored page at 0x30000, on slot 7 of drive 2; a resident page backed by it; a page of the host's function 0. -/
def storedPage : Pte := { va := 0x30000, lvl := 4, ctl := leafCtl 1 0 true true false false true rawAttr 2 7, loc := 0, ver := 1 }
def backedPage (flags : Word) : Pte :=
  { va := 0x30000, lvl := 4, ctl := leafCtl 0 0 true true false false true rawAttr 2 7 ||| flags, loc := 0x30000, ver := 1 }
def hostLeaf : Pte := { va := 0x30000, lvl := 4, ctl := leafCtl 2 0 true true false false false rawAttr 0 0, loc := 0x40000 }

/-- The rig with the entries, and a walk for the page at 0x30000. -/
def walk0 : Walk := ⟨0, 0, 0x30000, true⟩
def rigX (ptes : List Pte) : State := { rig with cx := { rig.cx with ptes }, walks := [walk0] }

/-- A walk beyond 32 that read, and one of 32; of an address without an entry, of a malformed entry, under another key, of a page that denies,
of a resident page, of a stored one, and of a host page under no function, with a translation, without, and with one asked; a settled latch, a
bad one and one that waits; an answer that is not asked for, one that gives what is asked, and one that does not, with room for a page request
of sixteen and without; a response to a request and to none; a request 1 s old and one younger; 31 and 32 invalidations. -/
theorem witness_TranslationEvents :
    let j (l : List Pte) : State := walkRead walk0 (rigX l)
    let meets (e : Pte) : Prop := (j [e]).cx.pte? 0x30000 = some e
    let good (e : Pte) : Prop := meets e ∧ e.malformed = false ∧ (rigX [e]).walkersBusy 0 walk0 = false
    let bad : Pte := { storedPage with loc := 1 }
    let other : Pte := { backedPage 0 with ctl := leafCtl 0 3 true true false false true rawAttr 2 7 }
    let shut : Pte := { backedPage 0 with ctl := leafCtl 0 0 false false true false true rawAttr 2 7 }
    let latch (r : Retry) : State := { rig with th := { rig.th with retry := some r } }
    let p : Atc := { func := 1, pasid := 2, iova := 0x40000, rd := true, wr := true }
    let many (n : Nat) : State := { rig with atsq := [p], preqs := (List.range n).map fun i => { p with iova := 0x100000 * (i + 1) } }
    (rigX []).walks[0]? = some walk0 ∧
    ({ rigX [] with walks := (List.range 33).map fun i => ⟨0, 0, 0x10000 * i, false⟩ } : State).walkersBusy 32 ⟨0, 0, 0x200000, false⟩ = true ∧
    ({ rigX [] with walks := (List.range 33).map fun i => ⟨0, 0, 0x10000 * i, false⟩ } : State).walkersBusy 31 ⟨0, 0, 0x1F0000, false⟩ = false ∧
    (j []).cx.pte? 0x30000 = none ∧ (meets bad ∧ bad.malformed = true) ∧ (good other ∧ other.key ≠ (j [other]).cx.key) ∧
    (good shut ∧ shut.key = 0 ∧ shut.allows 0 false = false ∧ shut.allows 0 true = false) ∧
    (good (backedPage 0) ∧ (backedPage 0).key = 0 ∧ (backedPage 0).allows 0 true = true ∧ (backedPage 0).state = 0) ∧
    (good storedPage ∧ storedPage.key = 0 ∧ storedPage.allows 0 true = true ∧ storedPage.state = 1) ∧
    (good hostLeaf ∧ hostLeaf.key = 0 ∧ hostLeaf.allows 0 true = true ∧ hostLeaf.state = 2 ∧ (j [hostLeaf]).tdiSends hostLeaf.func = true ∧
      (j [hostLeaf]).atcHas hostLeaf 0x30000 true = false ∧ ∀ q ∈ (j [hostLeaf]).atsq ++ (j [hostLeaf]).preqs, Atc.same (hostLeaf.hostPage 0x30000 true true) q = false) ∧
    (let e : Pte := { hostLeaf with func := 1 }
     ({ j [hostLeaf] with atc := (List.range 16).map fun i => { hostLeaf.hostPage 0x30000 true true with iova := 0x40000 + 4096 * i } } :
        State).atcHas hostLeaf 0x30000 true = true ∧
       Atc.same (hostLeaf.hostPage 0x30000 true true) (hostLeaf.hostPage 0x30000 true true) = true ∧ e.func ≠ 0 ∧ rig.tdiSends e.func = false) ∧
    ((latch ⟨0x30000, false, false, true, false⟩).thread? ⟨0, 0, 0⟩ = some (latch ⟨0x30000, false, false, true, false⟩).th ∧
      (latch ⟨0x30000, false, false, true, true⟩).th.retry = some ⟨0x30000, false, false, true, true⟩) ∧
    ((many 31).atsq.find? (Atc.same p) = some p ∧ (many 31).atsq.find? (Atc.same { p with pasid := 3 }) = none ∧
      16 * ((many 31).preqs.length + 1) ≤ 512 ∧ 512 < 16 * ((many 32).preqs.length + 1)) ∧
    ((many 1).preqs.find? (Atc.same { p with iova := 0x100000 }) = some { p with iova := 0x100000 } ∧ (many 1).preqs.find? (Atc.same p) = none) ∧
    (p ∈ (many 0).preqs ++ (many 0).atsq ∧ p.since + 1000000 ≤ ({ many 0 with iod := 1000000 } : State).iod ∧
      (∀ q ∈ (many 0).preqs ++ (many 0).atsq, Atc.same p q = true → ({ many 0 with iod := 999999 } : State).iod < q.since + 1000000)) ∧
    (let v : Inval := { func := 1, pasid := 2, iova := 0, pages := 1 }
     32 ≤ ({ rig with invs := List.replicate 32 v } : State).invs.length ∧ ({ rig with invs := List.replicate 31 v } : State).invs.length < 32) := by
  intro j meets good bad other shut latch p many
  exact ⟨rfl, by decide +kernel, by decide +kernel, by decide +kernel, by decide +kernel, by decide +kernel, by decide +kernel, by decide +kernel,
    by decide +kernel, by decide +kernel, by decide +kernel, ⟨rfl, rfl⟩, by decide +kernel, by decide +kernel, by decide +kernel, by decide +kernel⟩

/-- A Read outstanding on its first and its third attempt, for a page that is there and one that is not; a Write, a Flush, and a command that
waits; a page whose version, tag or bytes fail; the sweep at its thresholds, on a page accessed, dirty and clean, and with none; a drive
within the limits of Table 9-4 and one of each limit passed; a task that waits for a page of a lost drive. -/
theorem witness_StorageEvents :
    let op (kind : SKind) (tries : Nat) : SOp := { kind, drive := 2, slot := 7, frame := 0x90000, ctx := 0, va := 0x30000, tries, pair := some 0 }
    let pg : DPage := { slot := 7, bytes := [(0, 1)], ver := 1 }
    let s (o : SOp) : State := { rig with cx := { rig.cx with ptes := [storedPage] }, sops := [o], drives := rig.drives.set 2 { slots := [pg] } }
    let e (n : Nat) (f : List Pte) : State := { rig with
      cx := { rig.cx with ptes := f }, evicting := true, staging := 4096, stagingFree := n }
    let ds : Nvme := {}
    ((s (op .read 1)).sops[0]? = some (op .read 1) ∧ (op .read 1).tries < 3 ∧ 3 ≤ (op .read 3).tries ∧
      ((s (op .read 1)).cx? 0).bind (·.pte? 0x30000) = some storedPage ∧
      ((s (op .read 1)).drive 2).slots.find? (fun p => p.slot = 7) = some pg ∧
      ((({ s (op .read 1) with cx := rig.cx } : State).cx? 0).bind (·.pte? 0x30000) = none)) ∧
    (op .write 1).kind ≠ .read ∧ (op .flush 1).kind = .flush ∧ ({ op .read 1 with pair := none } : SOp).pair = none ∧
    (pg.ver ≠ 2 ∧ pg.ver = 1 ∧ pg.ok = true ∧ ({ pg with ok := false, pois := [3] } : DPage).pois ≠ [] ∧ ({ pg with ok := false } : DPage).pois = []) ∧
    (({ e 256 [] with evicting := false } : State).staging ≤ 16 * 256 ∧ 16 * 255 < (e 255 []).staging ∧ (e 512 []).staging ≤ 8 * 512 ∧
      8 * 511 < (e 511 []).staging) ∧
    ((e 511 []).sweepNext? = none ∧ (e 511 [backedPage 0x8000000]).sweepNext? = some (0, backedPage 0x8000000) ∧ (backedPage 0x8000000).acc = true ∧
      (e 511 [backedPage 0x10000000]).sweepNext? = some (0, backedPage 0x10000000) ∧ (backedPage 0x10000000).acc = false ∧
      (e 511 [backedPage 0x10000000]).drained (e 511 [backedPage 0x10000000]).cx 0x30000 65536 = true ∧ (backedPage 0x10000000).dirty = true ∧
      (backedPage 0).dirty = false) ∧
    (({ s (op .read 1) with sops := [] } : State).outstanding 2 < 1024 ∧
      pick (fun p : SOp × Nat => p.1.drive = 2 && p.1.pair.isNone) (s { op .read 1 with pair := none }).sops.zipIdx = some (({ op .read 1 with pair := none }, 0), []) ∧
      1024 ≤ ({ rig with sops := List.replicate 1024 (op .read 1) } : State).outstanding 2) ∧
    (ds.block = 4096 ∧ ds.meta_ = 0 ∧ 131072 ≤ ds.mdts ∧ 1 ≤ ds.pairs ∧ 2 ≤ ds.depth ∧ ({ ds with mdts := 131071 } : Nvme).mdts < 131072 ∧
      ({ ds with depth := 1 } : Nvme).depth < 2 ∧ ({ ds with pairs := 0 } : Nvme).pairs < 1) ∧
    (let t := { rigTask with st := .saved, pages := [0x30000] }
     let s : State := { rig with cx := { rig.cx with ptes := [storedPage], tasks := [t] } }
     s.cx.dead = false ∧ s.cxs = [] ∧ s.cx.task? t.num = some t ∧ t.st = .saved ∧ 0x30000 ∈ t.pages ∧ s.cx.pte? 0x30000 = some storedPage ∧
       storedPage.state = 1 ∧ storedPage.drive = 2) := by
  intro op pg s e ds
  exact ⟨by decide +kernel, by decide +kernel, by decide +kernel, by decide +kernel, by decide +kernel, by decide +kernel, by decide +kernel,
    by decide +kernel, by decide +kernel, by decide +kernel⟩
/-- The task as it waits, or is out. -/
def taskIn (st : TaskSt) : Task := { rigTask with st, heat := .still, spad := 2 }
def atRow1 : Place := ⟨0, 1, 0, 0, 5, 0, 0, 0xFF, 0x030303, 0x030303, 0⟩

/-- The rig with its one task in a state, nothing running on its cores, and the time of key slot 0 proved. -/
def rigT (st : TaskSt) : State := { rig with
  th := { exited := true }
  ths := []
  keys := rig.keys.set 0 { loaded := true, note := some ⟨100, 0, 0⟩ }
  cx := { rig.cx with tasks := [taskIn st], cls := 1, na := 1000 } }

theorem some_of {α : Type} {x : Option α} {p : α → Bool} (h : x.any p = true) : ∃ v, x = some v ∧ p v = true := by
  cases x with
  | some v => exact ⟨v, rfl, h⟩
  | none => simp at h

/-- A task placed, with its context reserved and not; saving, with its cores ready, still, and not; a deadline at 200 µs and before; cores over
and not; a place that the records pass, and one that does not fit; a core over, dark already, and with a thread; a period over and not, with a
shared task that has been out for P and not. -/
theorem witness_TaskEvents :
    let s (st : TaskSt) : State := rigT st
    let fenced : State := { rigT .saving with
      th := { core := 0, halt := true, started := true, probe := some 0 }
      cx := { (rigT .saving).cx with tasks := [{ taskIn .saving with deadline := true, cols := 1 }] } }
    let still : State := { fenced with th := { fenced.th with probe := none } }
    let cells : List (Nat × Nat) := [(0, 0), (0, 1)]
    let u : State := (s .waiting).updCx 0 fun x => { x.updTask 0 (fun _ => { (taskIn .waiting).moved atRow1 with st := .placed, deadline := false, outAt := 0 }) with
      parked := false }
    let passes (v : State) : Bool := (v.pends.drop u.pends.length).all fun e => State.bindStatus { v with pends := v.pends.filter fun f => f != e } e.core e.rec_ = 0
    let long : State := { rigT .saved with iod := 1000 * (rigT .saved).conf.p, cx := { (rigT .saved).cx with weight := 1 } }
    ((s .placed).cx? 0 = some (s .placed).cx ∧ (s .placed).cx.task? 0 = some (taskIn .placed) ∧ (s .placed).cx.cls ≠ 0 ∧
      ¬ ((s .placed).cx.cls = 1 ∧ ((s .placed).bound 0).isSome = true ∧
        ∃ y ∈ (s .placed).contexts, y.cls = 2 ∧ ∃ u ∈ y.tasks, u.st.onCores = true)) ∧
    (let r : State := { s .placed with cx := { (s .placed).cx with cls := 0 } }
     ¬ (r.cx.cls ≠ 0 ∨ r.bound r.cx.kslot = none)) ∧
    ((s .saving).cx.task? 0 = some (taskIn .saving) ∧ (∀ c ∈ (taskIn .saving).coreList, (s .saving).coreReady c 0 = true)) ∧
    (fenced.coreReady 0 0 = true ∧ still.coreReady 0 0 = false ∧ still.coreStill 0 0 = true) ∧
    (taskIn .saving).asked + 200 ≤ 200 ∧ ¬ (taskIn .saving).asked + 200 ≤ 199 ∧
    ((taskIn .placed).st.onCores = true ∧ (∀ c ∈ (taskIn .placed).coreList, CoreOver (s .placed) c 0 0) ∧ (taskIn .saved).st.onCores = false) ∧
    ((s .waiting).mayPlace (s .waiting).cx (taskIn .waiting) = true ∧ placeFits atRow1 (taskIn .waiting) = true ∧
      (∃ v, cells.foldlM (State.placeCore (s .waiting).cx ((taskIn .waiting).moved atRow1) atRow1) u = some v ∧ passes v = true) ∧
      placeFits { atRow1 with lrow := 48 } (taskIn .waiting) = false) ∧
    ((s .placed).bind? 0 0 = some (s .placed).bd ∧ (s .placed).taskAt 0 0 = some (taskIn .placed) ∧ (s .placed).bd.dark = false ∧
      (s .placed).bd.went = false ∧ CoreOver (s .placed) 0 0 (s .placed).bd.task ∧ ¬ CoreOver rig 0 0 rig.bd.task) ∧
    ((s .placed).period + 1000 * (s .placed).conf.p ≤ long.iod ∧ (s .placed).iod < (s .placed).period + 1000 * (s .placed).conf.p) ∧
    long.overdue long.cx (taskIn .saved) = true ∧ ({ long with iod := long.iod - 1 } : State).overdue long.cx (taskIn .saved) = false := by
  intro s fenced still cells u passes long
  have isOver (c : Nat) (b : Bind) (h : (s .placed).bind? c 0 = some b) (h' : (b.task = 0 ∧ (s .placed).threadsAt c 0 = []) ∧ (s .placed).opsOver c 0 b = true) :
      CoreOver (s .placed) c 0 0 := ⟨b, h, h'.1.1, h'.1.2, h'.2⟩
  have h0 : CoreOver (s .placed) 0 0 0 := isOver 0 (s .placed).bd rfl (by decide +kernel)
  refine ⟨⟨rfl, by decide +kernel, by decide +kernel, by decide +kernel⟩, by decide +kernel, by decide +kernel, by decide +kernel, by decide, by decide,
    ⟨rfl, ?_, rfl⟩, ⟨by decide +kernel, by decide +kernel, some_of (by decide +kernel), by decide +kernel⟩,
    ⟨rfl, by decide +kernel, rfl, rfl, h0, ?_⟩, by decide +kernel, by decide +kernel, by decide +kernel⟩
  · intro c hc
    rw [show (taskIn .placed).coreList = [0, 1] by decide +kernel] at hc
    simp only [List.mem_cons, List.not_mem_nil, or_false] at hc
    rcases hc with rfl | rfl
    · exact h0
    · exact isOver 1 _ rfl (by decide +kernel)
  · rintro ⟨b, hb, -, h, -⟩
    exact absurd h (by decide +kernel)

/-- A launch over and not; a surrendering context, idle and not, and a retired one; a note that reaches the latest time of the context, and one
that does not; a key slot without a proved bound, and with one. -/
theorem witness_ContextEvents :
    let s (st : TaskSt) : State := rigT st
    let ended (x : Context) : Prop := x.running = true ∧ ∀ t ∈ x.tasks, t.st.onCores = false ∧ t.st ≠ .saved ∧ x.canStart t = false
    let gone : State := { rigT (.done 0) with bd := { gone := true }, bds := [], cx := { (rigT (.done 0)).cx with surr := true, running := false } }
    let n : Note := ⟨100, 0, 0⟩
    (ended (s (.done 0)).cx ∧ (s (.done 0)).cx.prov = false ∧ ¬ ended (s .saved).cx ∧ (s (.done 0)).cx? 0 = some (s (.done 0)).cx ∧ rig.cx? 5 = none) ∧
    (gone.cx.retired = false ∧ gone.cx.surr = true ∧ gone.cx.running = false ∧ gone.idleCx 0 = true ∧ rig.idleCx 0 = false ∧
      ({ gone with cx := { gone.cx with retired := true } } : State).idleCx 0 = true) ∧
    (((s .placed).kslot (s .placed).cx.kslot).note = some n ∧ (s .placed).cx.prov = false ∧ (s .placed).cx.retired = false ∧
      (s .placed).cx.na ≤ (n.at 899).2.1 ∧ (n.at 898).2.1 < (s .placed).cx.na ∧ (rig.kslot rig.cx.kslot).note = none) ∧
    (({ s .placed with iod := 3600000001 } : State).bound 0 = none ∧ ((s .placed).bound 0).isSome = true) := by
  intro s ended gone n
  exact ⟨by decide +kernel, by decide +kernel, by decide +kernel, by decide +kernel⟩

/-- The events of tasks and contexts: see witness_TaskEvents and witness_ContextEvents. -/
theorem witness_LifeEvents : (rigT .placed).cx.task? 0 = some (taskIn .placed) := by decide +kernel
/-- The rig with a presentation slot whose area holds bytes and whose pgo has a value. -/
def rigP (area : List (Nat × Nat)) (pgo : Word) : State := { rig with
  bring := 7
  pres := rig.pres.set 3 { area := area.foldl (fun m x => Memory.put m x.1 (leBytes x.2 8)) [], pgo := some pgo, src := some (.host 0 0) }
  keys := rig.keys.set 2 { loaded := true, nonce := some (List.replicate 32 0, 0) } }

/-- A note of time for key slot 2, of time 5 and the nonce of 32 zeros. -/
def noteArea : List (Nat × Nat) := [(0, 0x00020001544E5A4F), (40, 5)]

/-- A record for key slot 2 of class 2 with one weight and a 64-byte image at 0x1000. -/
def recArea : List (Nat × Nat) := [(0, 0x02020001_31475A4F), (120, 9), (192, 0x00010000), (3840, 0x1000), (3848, 64)]
def recBytes : List Byte :=
  leBytes 0x02020001_31475A4F 8 ++ List.replicate 112 0 ++ leBytes 9 8 ++ List.replicate 64 0 ++ leBytes 0x10000 8 ++ List.replicate 3640 0 ++
  leBytes 0x1000 8 ++ leBytes 64 8 ++ List.replicate 240 0

theorem recGood : recBad recBytes = false := by decide +kernel

/-- Where a signature or a fingerprint is checked, for a machine whose verification accepts it, or refuses it: it is a function the manual
names and does not define (log 14). A write of a slot's own source, and of another's; at the end of the area and past it; pgo, legal and not;
each op, with a key slot loaded and not, a note that passes and one that does not, a reservation more and none, a context of the slot's own
source and none; three presentations and four, and one begun; a slot that lapses after 10 s, and before; a record of the wrong form, of no
key slot, of a signature refused, of a time not proved and in force; step 6 held by a commit, of a spent serial, without a context identity, and
with. -/
theorem witness_PresentationEvents :
    let adm (n : Nat) : Admit := { slot := some n, req := none, rec_ := [], rcpt := none }
    let yes : Prop := ∀ k m sg, Config.mldsaVerify k m sg = true
    let no : Prop := ∀ k m sg, Config.mldsaVerify k m sg = false
    let timed : State := { rigP recArea 1 with keys := rig.keys.set 2 { loaded := true, note := some ⟨0, 0, 0⟩ } }
    let lapse (t : Nat) : State := { rigP [] 1 with pres := rig.pres.set 3 { src := some (.host 0 0) }, iod := t }
    let home : State := { rigP [] 6 with cx := { rig.cx with src := some (.host 0 0) } }
    (Mine (rigP [] 1) 3 (.host 0 0) ∧ ¬ Mine (rigP [] 1) 3 (.host 1 0) ∧ Mine (rigP [] 1) 15 (.host 1 0) ∧ ¬ Mine (rigP [] 1) 16 (.host 1 0) ∧
      (areaEnd - 1) + [(1 : Byte)].length ≤ areaEnd ∧ areaEnd < areaEnd + [(1 : Byte)].length ∧ areaEnd < 0x7FFF000 + 8 ∧
      ((rigP [] 1).pslot 15).pgo = none ∧ pgoOk 6 = true ∧ pgoOk 7 = false ∧ pgoOk 0 = false) ∧
    (Going (rigP [] 0x202) 3 2 0x202 ∧ ((rigP [] 0x202).kslot 2).loaded = true ∧ ((rigP [] 0x202).kslot 1).loaded = false) ∧
    (Going (rigP noteArea 3) 3 3 3 ∧ (yes → (rigP noteArea 3).noteCheck (((rigP noteArea 3).pslot 3).area.bytes 0 4096) = 0) ∧
      ((rigP noteArea 3).kslot 2).nonce = some (List.replicate 32 0, 0) ∧
      (rigP [] 3).noteCheck (((rigP [] 3).pslot 3).area.bytes 0 4096) ≠ 0) ∧
    Going (rigP [] 4) 3 4 4 ∧
    (Going (rigP recArea 5) 3 5 5 ∧ (rigP [] 5).recCheck (((rigP [] 5).pslot 3).area.bytes 0 4096) = some 0x20 ∧
      ¬ 256 ≤ ((rigP recArea 5).resv.filter fun x => !x.done).length ∧
      256 ≤ (({ rigP recArea 5 with resv := List.replicate 256 ⟨2, 5, [], false⟩ } : State).resv.filter fun x => !x.done).length) ∧
    (Going (rigP [] 6) 3 6 6 ∧ home.cx? (6 / 2 ^ 12 % 128) = some home.cx ∧ home.cx.prov = false ∧ home.cx.src ≠ none ∧
      home.cx.src = (home.pslot 3).src ∧ (rigP [] 6).cx.src = none) ∧
    (Going (rigP [] 1) 3 1 1 ∧ (∀ a ∈ (rigP [] 1).admits, a.slot ≠ some 3) ∧ (rigP [] 1).commits = [] ∧
      ({ rigP [] 1 with admits := [adm 4, adm 5, adm 6] } : State).admits.length < 4 ∧
      4 ≤ ({ rigP [] 1 with admits := [adm 4, adm 5, adm 6, adm 7] } : State).admits.length ∧
      ({ rigP [] 1 with admits := [adm 3] } : State).admits.find? (fun a => a.slot = some 3) = some (adm 3)) ∧
    (((rigP [] 1).pslot 4).pgo = none ∧ ((lapse 10000000).pslot 3).src ≠ none ∧ ((lapse 10000000).pslot 3).pgo = none ∧
      ((lapse 10000000).pslot 3).last + 10000000 ≤ (lapse 10000000).iod ∧ (lapse 9999999).iod < ((lapse 9999999).pslot 3).last + 10000000) ∧
    (recBad [] = true ∧ recBad recBytes = false ∧ (rig.kslot (recSlot recBytes)).loaded = false ∧ (timed.kslot (recSlot recBytes)).loaded = true ∧
      timed.timeOk recBytes = true ∧ (rigP recArea 1).timeOk recBytes = false ∧ (yes → timed.recCheck recBytes = none) ∧
      (no → timed.recCheck recBytes = some 0x22)) ∧
    ((∃ c ∈ ({ rig with commits := [⟨none, none, 2, 5, [], 0, 0⟩] } : State).commits, c.kslot = recSlot recBytes) ∧
      (∀ c ∈ timed.commits, c.kslot ≠ recSlot recBytes) ∧ timed.admits = [] ∧
      ({ timed with keys := rig.keys.set 2 { floor := 1 } } : State).isSpent recBytes = true ∧ timed.isSpent recBytes = false ∧ timed.kfree ≠ 0 ∧
      ({ timed with kfree := 0 } : State).kfree = 0 ∧ timed.classRoom (fieldAt recBytes 7 1) (amounts recBytes 128) = true ∧
      timed.classRoom 2 (Vector.replicate 8 (2 ^ 64 - 1)) = false) := by
  intro adm yes no timed lapse home
  refine ⟨by unfold Mine; decide +kernel, ⟨by unfold Going; decide +kernel, by decide +kernel⟩,
    ⟨by unfold Going; decide +kernel, fun h => ?_, by decide +kernel⟩, by unfold Going; decide +kernel,
    ⟨by unfold Going; decide +kernel, by decide +kernel⟩, ⟨by unfold Going; decide +kernel, rfl, by decide +kernel⟩,
    ⟨by unfold Going; decide +kernel, by decide +kernel⟩, by decide +kernel,
    ⟨by decide +kernel, recGood, by decide +kernel, by decide +kernel, by decide +kernel, by decide +kernel, fun h => ?_, fun h => ?_⟩,
    by decide +kernel⟩
  · unfold State.noteCheck
    simp only [show ∀ k m sg, Config.mldsaVerify k m sg = true from h]
    decide +kernel
  · unfold State.recCheck State.signed
    simp only [show ∀ k m sg, Config.mldsaVerify k m sg = true from h, recGood]
    decide +kernel
  · unfold State.recCheck State.signed
    simp only [show ∀ k m sg, Config.mldsaVerify k m sg = false from h, recGood]
    decide +kernel

/-- A commit note of a serial reserved, below the floor, and of none; a release of a redeemed one and of another; an acknowledgement within
100 ms and none, and the timeout at 100 ms; a surrender, alone, behind another of its context, and under a replay; a split of a slot with room
and of a class that is none, a delegation with bytes that must be zero, and without a free key; each operation of pages that ends. -/
theorem witness_CommitEvents :
    let yes : Prop := ∀ k m sg, Config.mldsaVerify k m sg = true
    let r (done : Bool) : Resv := ⟨2, 5, Config.shake256 [], done⟩
    let hit (x : Resv) : Bool := x.kslot = 2 % 16 && x.serial = 5 && x.target = Config.shake256 []
    let c : Commit := ⟨none, none, 2, 5, [], 0, 0⟩
    let w (op : WOp) : WReq := ⟨4, ⟨0, 0, 0⟩, op⟩
    let s : State := { rig with wops := [w (.surr 1), w (.xnew 0x40000 0 1), w (.xunmap 0x10000 1), w (.surr 1)] }
    let k : KeySlot := { floor := 5 }
    (([r false].any hit = true ∧ (rig.kslot 2).floor ≤ 5 ∧ 5 < ({ floor := 6 } : KeySlot).floor ∧ ([] : List Resv).any hit = false ∧
      [r true].find? hit = some (r true) ∧ [r false].find? hit = some (r false))) ∧
    (k.floor ≤ 5 ∧ 4 < k.floor ∧ 5 + 4095 ≤ k.floor + 4095 ∧ (6 : Nat) ≠ 5) ∧
    (yes → [c].find? (fun c => c.serial = 5 && Config.mldsaVerify c.hkey (leBytes 5 8) [] && decide (99999 < c.since + 100000)) = some c) ∧
    ([c].find? (fun c => c.serial = 5 && decide (c.since + 100000 ≤ 100000)) = some c ∧
      [c].find? (fun c => c.serial = 5 && decide (c.since + 100000 ≤ 99999)) = none) ∧
    (s.wops[0]? = some (w (.surr 1)) ∧ (∀ v ∈ s.wops.take 0, v.op.isWarrant = true → v.key.ctx ≠ 0) ∧
      ¬ (∀ v ∈ s.wops.take 3, v.op.isWarrant = true → v.key.ctx ≠ 0) ∧ (s.atKey ⟨0, 0, 0⟩).cx.replay = none ∧
      (({ s with cx := { s.cx with replay := some [] } } : State).atKey ⟨0, 0, 0⟩).cx.replay ≠ none) ∧
    (((s.atKey ⟨0, 0, 0⟩).xunmap 0x10000 1).isSome = true ∧ ((s.atKey ⟨0, 0, 0⟩).xinv 0x10000 1).isSome = true ∧
      ((s.atKey ⟨0, 0, 0⟩).xmapAttr 0x10000 0 1).isSome = true ∧
      (match (s.atKey ⟨0, 0, 0⟩).iodRead ⟨0, 0, 0⟩ 0x10000 64 with | .ok _ => true | .error _ => false) = true ∧
      (match (s.atKey ⟨0, 0, 0⟩).iodRead ⟨0, 0, 0⟩ 0x70000 64 with | .error e => (opStatus e).isSome | .ok _ => false) = true) ∧
    ((amounts (List.replicate 64 0) 0)[5] = 0 ∧ amtLe (amounts (List.replicate 64 0) 0) (Vector.replicate 8 0) = true ∧
      (amounts (List.replicate 64 1) 0)[5] ≠ 0 ∧ amtLe (amounts (List.replicate 40 1 ++ List.replicate 24 0) 0) (Vector.replicate 8 0) = false ∧
      (rigC []).cx.ws[(2 : Fin 8)].st = .held ∧ (rigC []).cx.ws[(0 : Fin 8)].st = .funding ∧ (rigC []).cx.ws[(1 : Fin 8)].st = .empty) ∧
    zeros (List.replicate 64 1) 40 24 = false ∧ zeros (List.replicate 64 0) 40 24 = true ∧ ({ rig with kfree := 0 } : State).kfree = 0 := by
  intro yes r hit c w s k
  refine ⟨⟨by simp [r, hit], by decide +kernel, by decide, by simp, by simp [r, hit], by simp [r, hit]⟩, by decide, fun h => ?_, by decide +kernel, by decide +kernel, by decide +kernel,
    by decide +kernel, by decide +kernel, by decide +kernel, rfl⟩
  simp only [show ∀ k m sg, Config.mldsaVerify k m sg = true from h]
  decide +kernel

/-- The events of admission: see witness_PresentationEvents and witness_CommitEvents. -/
theorem witness_AdmissionEvents : Mine (rigP [] 1) 3 (.host 0 0) ∧ Going (rigP [] 4) 3 4 4 := by unfold Mine Going; decide +kernel
/-- The record of an op for the rig's task: two threads' slots, the pool's minimums, and the entry point of a start. -/
def bindRec (op : Word) : Vector Word 8 := #v[op, 0xFF, 0, 0, 0x030303, 0x030303, if op = 1 then 0x20000 else 0, 0]

/-- Physical core 16, powered, under logical core 0, on which nothing is bound; a record of it pending since clk 0; the task's saved part. -/
def rigB (op : Word) (clk : Nat) : State := { rig with
  bd := { gone := true }, bds := [], th := { exited := true }, ths := [], core := { rig.core with clk }
  pends := [⟨0, bindRec op, 0⟩], cx := { rig.cx with saved := [{ bd := {}, core := {}, ths := [] }] }
  dies := rig.dies.set 0 { l2p := [(0, 16)], target := 0, rec_ := bindRec op, busy := true }, pcores := [{ id := 16, pw := .on }] }

/-- A go of each op, of no op, and without one; a record due at the frame after 64 clk, before it, and off the frame's start; a start that
lacks its context, or has its thread; a resume with and without what was saved; a record for each status of R386; an entry of the table of
cores that carries a bind record and one that does not. -/
theorem witness_DispatchEvents :
    let due (s : State) : Prop := (∃ q, s.phys? 0 = some q ∧ (s.pcore q).pw = .on) ∧ (s.core? 0).clk % 64 = 0 ∧ 64 ≤ (s.core? 0).clk
    let st (r : Vector Word 8) (s : State) : BitVec 8 := s.bindStatus 0 r
    let r := bindRec 1
    let rest : State := { rigB 1 64 with pends := [] }
    let other (f : Bind → Bind) : State := { rest with
      bd := f { ctx := 1, nthr := 1, lines := 2, mask := 0x300, mins := 0x030303, caps := 0x030303, base := 0 } }
    ((0 : Nat) < 4 ∧ ((rigB 1 0).die 0).busy = true ∧ recOp ((rigB 1 0).die 0).rec_ = 1 ∧ recOp ((rigB 2 0).die 0).rec_ = 2 ∧
      recOp ((rigB 3 0).die 0).rec_ = 3 ∧ (rig.die 0).busy = false ∧ ((rigB 1 0).die 0).target.toNat % 64 < 48) ∧
    ((rigB 1 64).pends[0]? = some ⟨0, bindRec 1, 0⟩ ∧ due (rigB 1 64) ∧ ¬ due (rigB 1 0) ∧ ¬ due (rigB 1 65) ∧ ¬ due (rigB 1 63) ∧ recOp (bindRec 1) = 1 ∧
      (rigB 1 64).bind? 0 0 = none ∧ ((rigB 1 64).cx? 0).bind (·.task? 0) = some rigTask ∧
      (({ rigB 1 64 with cx := { rig.cx with tasks := [] } } : State).cx? 0).bind (·.task? 0) = none ∧ rig.pends[0]? = none) ∧
    ((rigB 2 64).savedFor ⟨0, bindRec 2, 0⟩ = some { bd := {}, core := {}, ths := [] } ∧
      ({ rigB 2 64 with cx := rig.cx } : State).savedFor ⟨0, bindRec 2, 0⟩ = none) ∧
    (st r rest = 0 ∧ st (r.set 2 1) rest = 1 ∧ st r { rest with dies := Vector.replicate 4 {} } = 6 ∧ st (r.set 3 0x101FF) rest = 2 ∧ st (r.set 3 0x101FE) rest = 0 ∧
      st r (other id) = 2 ∧ st r (other fun b => { b with mask := 1, base := 4 }) = 3 ∧ st (r.set 4 0) rest = 4 ∧
      st r (other fun b => { b with base := 4, heat := .gale }) = 5 ∧ st (r.set 1 0x7F) rest = 8 ∧
      st ((bindRec 3)) { rest with th := { pc := 0x20000, started := true } } = 7) ∧
    ((0xF000020000000 : Nat) + 3 * 0x1000000 < 0xF000024000000 ∧ 10 ≤ (1000 : Word).toNat ∧ (1000 : Word).toNat ≤ 1000 ∧
      rest.boundList 0 = [] ∧ rig.boundList 0 ≠ [] ∧ rest.logical? 16 = some 0 ∧ 0x15F8 % 8 = 0 ∧ 0x15F8 < 0x1600) := by
  intro due st r rest other
  refine ⟨by decide +kernel, ⟨by decide +kernel, ⟨⟨16, by decide +kernel⟩, by decide +kernel⟩, fun h => absurd h.2 (by decide +kernel),
    fun h => absurd h.2 (by decide +kernel), fun h => absurd h.2 (by decide +kernel), by decide +kernel⟩, by decide +kernel, by decide +kernel,
    by decide +kernel⟩

/-- The rig with physical core 16 under its one logical core, as given. -/
def rigH (x : PCore) : State := { rig with dies := rig.dies.set 0 { l2p := [(0, 16)], pidle := #v[14, 0, 0, 0, 0, 0, 0, 0, 0, 0, 0, 0] }, pcores := [x] }

/-- Each power state; a core not in its row's queue and in it; one and two cores that switch on; a hold of 50 µs, and of less; a ratio whose
voltage the row has, and has not. -/
theorem witness_PowerEvents :
    let s (x : PCore) : State := rigH x
    let sw (n : Nat) : State := { rig with pcores := (List.range n).map fun i => { id := 16 + i, pw := .switching } }
    let busy (r n : Nat) (s : State) : Prop := n ≤ (s.pcores.filter fun z => z.id / 16 = r && z.pw = .switching).length
    (((s { id := 16, pw := .hold }).pcore 16).pw = .hold ∧ ((s { id := 16 }).pcore 16).pw = .off ∧ 16 ∉ ((s { id := 16 }).prow 1).queue ∧
      ((s { id := 16, pw := .switching }).pcore 16).pw = .switching ∧ ((s { id := 16, pw := .on }).pcore 16).pw = .on) ∧
    (let t : State := { s { id := 16 } with prows := [{ id := 1, queue := [16] }] }
     16 ∈ (t.prow 1).queue ∧ (t.prow 1).queue = 16 :: []) ∧
    busy 1 2 (sw 2) ∧ ¬ busy 1 2 (sw 1) ∧
    (let t : State := { s { id := 16, pw := .hold, since := 0 } with iod := 50 }
     (t.pcore 16).since + (t.die (16 / 768)).pbhold ≤ t.iod ∧ 49 < (t.pcore 16).since + (t.die (16 / 768)).pbhold) ∧
    (let t := s { id := 16, pw := .on, want := some 8 }
     (t.pcore 16).want = some 8 ∧ ratioMv 8 ≤ (t.prow 1).mv ∧ (t.prow 1).mv < ratioMv 4) ∧
    ((s { id := 16, pw := .on }).pcore 16).want = none ∧ (16 : Nat) < 3072 ∧ 3072 ≤ 3072 := by
  intro s sw busy
  exact ⟨by decide +kernel, by decide +kernel, by decide +kernel, by decide +kernel, by decide +kernel, by decide +kernel, rfl, by decide, by decide⟩

/-- A notice and a warrant event at a thread that can take them, and none; a core, without a record and with one, at Tr, between, at Tt and at
Td, with a drift's target and none, and 1 ms below Tr; an action due and not, of a throttle and of a drift; a task that is saved; 2,400 W and
more, 1 ms after the last step and less; a plate at 65 °C and 66, at a flow of 10 and 9. -/
theorem witness_HeatEvents :
    let irq (t : Thread) : State := { rig with bd := { rig.bd with irq := some 5 }, th := { t with irqs := [6] } }
    let open_ : Thread := { rig.th with tvec := 0x20000 }
    let s (x : PCore) : State := rigH { x with id := 16, pw := .on }
    let bare (x : PCore) : State := { s x with bd := { gone := true }, bds := [] }
    let hot (n : Nat) : PCore := { id := 16, temp := n, ratio := 7 }
    let acts (l : List HAct) : PCore := { id := 16, acts := l }
    (((irq open_).thread? ⟨0, 0, 0⟩).isSome = true ∧ ((irq open_).focus ⟨0, 0, 0⟩).bd.irq = some 5 ∧
      ((irq open_).focus ⟨0, 0, 0⟩).th.canTake = true ∧ (irq open_).halted ((irq open_).focus ⟨0, 0, 0⟩).th = false ∧
      ((irq open_).focus ⟨0, 0, 0⟩).th.irqs = 6 :: [] ∧ ((irq rig.th).focus ⟨0, 0, 0⟩).th.canTake = false ∧ (rig.thread? ⟨9, 0, 0⟩).isNone = true) ∧
    ((s (hot 95)).heatHead 16 = 16 ∧ (s (hot 95)).heatGroup 16 = [16, 17] ∧ ((s (hot 95)).pcore 16).powered = true ∧
      ((s (hot 95)).die (16 / 768)).tt = 95 ∧ ((s (hot 95)).die (16 / 768)).td = 100 ∧ ((s (hot 95)).die (16 / 768)).tr = 85 ∧
      ((s (hot 95)).pcore 16).aimed < 8 ∧ (rig.pcore 16).powered = false) ∧
    ((s (hot 100)).heatBinds 16 ≠ [] ∧ (bare (hot 100)).heatBinds 16 = [] ∧ ((s (hot 100)).driftTarget 16).isSome = true ∧
      ({ s (hot 100) with dies := Vector.replicate 4 {} } : State).driftTarget 16 = none) ∧
    ((∀ a ∈ ((s (hot 100)).pcore 16).acts, a.kind ≠ 2) ∧ (∃ a ∈ ((s (acts [⟨2, 0, 0⟩])).pcore 16).acts, a.kind = 2)) ∧
    (let t := s (acts [⟨1, 8, 5⟩, ⟨2, 0, 0⟩])
     (t.pcore 16).acts = [⟨1, 8, 5⟩] ++ ⟨2, 0, 0⟩ :: [] ∧ (0 : Nat) ≤ t.iod ∧ ¬ (5 ≤ t.iod ∨ ∀ b ∈ t.heatBinds 16, b.notice.getLsbD 63 = true) ∧
       ({ t with bd := { t.bd with notice := 1 <<< 63 } } : State).heatBinds 16 ≠ [] ∧
       (∀ b ∈ ({ t with bd := { t.bd with notice := 1 <<< 63 } } : State).heatBinds 16, b.notice.getLsbD 63 = true)) ∧
    (let t := s (acts [⟨2, 0, 0⟩])
     let v : State := { t with cx := { t.cx with tasks := [{ rigTask with st := .saving }] } }
     (t.heatGroup 16).flatMap t.bindsOn ≠ [] ∧ ((bare (acts [⟨2, 0, 0⟩])).heatGroup 16).flatMap (bare (acts [⟨2, 0, 0⟩])).bindsOn = [] ∧
     (∀ b ∈ (t.heatGroup 16).flatMap t.bindsOn, ((t.cx? b.ctx).bind (·.task? b.task)).all (fun k => k.st != .saving) = true) ∧
       (∃ b ∈ (v.heatGroup 16).flatMap v.bindsOn, ((v.cx? b.ctx).bind (·.task? b.task)).any (fun k => k.st == .saving) = true)) ∧
    ((2400 : Nat) ≤ 2400 ∧ 2400 < 2401 ∧ ¬ 2200 < 2200 ∧ ({ rig with overAt := some 0, iod := 1000 } : State).overAt = some 0) ∧
    (65 ≤ 65 ∧ 10 ≤ 10 ∧ (65 < 66 ∨ 10 < 10) ∧ 9 < 10) := by
  intro irq open_ s bare hot acts
  exact ⟨by decide +kernel, by decide +kernel, by decide +kernel, by decide +kernel, by decide +kernel, by decide +kernel, by decide, by decide⟩

/-- The events of power and heat: see witness_PowerEvents and witness_HeatEvents. -/
theorem witness_PowerAndHeatEvents : ((rigH { id := 16, pw := .hold }).pcore 16).pw = .hold := by decide +kernel

/-- The memory services: see witness_TranslationEvents and witness_StorageEvents. -/
theorem witness_MemoryServiceEvents : (rig.drive 0).enabled = true := by decide +kernel

/-- An operation that answers, or that waits, or that fails. -/
theorem someOk {ε α : Type} {x : Except ε α} (h : x.toOption.isSome = true) : ∃ a, x = .ok a := by
  cases x with
  | ok a => exact ⟨a, rfl⟩
  | error e => simp [Except.toOption] at h
theorem okWith {ε α : Type} {x : Except ε α} {P : α → Prop} [DecidablePred P] (h : (match x with | .ok a => decide (P a) | .error _ => false) = true) :
    ∃ a, x = .ok a ∧ P a := by
  cases x with
  | ok a => exact ⟨a, rfl, by simpa using h⟩
  | error e => simp at h
theorem itWaits {α : Type} {x : Except OpStop α} (h : (match x with | .error (.wait _) => true | _ => false) = true) : ∃ w, x = .error (.wait w) := by
  cases x with
  | ok a => simp at h
  | error e => cases e with
    | wait w => exact ⟨w, rfl⟩
    | fail m => simp at h
theorem itFails {α : Type} {x : Except OpStop α} (h : (match x with | .error (.fail _) => true | _ => false) = true) : ∃ m, x = .error (.fail m) := by
  cases x with
  | ok a => simp at h
  | error e => cases e with
    | wait w => simp at h
    | fail m => exact ⟨m, rfl⟩

/-- A packet of the ring with words 0, 2, 3, 4 and 5, valid, without a signal. -/
def rigPkt (ty : Nat) (b c d e : Word) : QPkt := { w := #v[wordN (2 ^ 63 + ty * 2 ^ 32), 0, b, c, d, e, 0, 0], ring := true, depth := 0 }

/-- Queue 1 of context 0: a ring of 16 slots at 0x10000 in the context's memory, with given packets looked ahead. -/
def rigQueue (w0 : Word) (l : List QPkt) : Queue :=
  { ctx := 0, q := 1, die := 0, slot := 0, w0, base := 0x10000, evBase := 0, rd := 0, evw := 0, evr := 0, ovf := 0, ovp := false, code := 0
    err := false, pend := false, look := l, ahead := 0, stop := false, joined := false, busy := none, launch := false }

/-- The rig, not running, with its queue table at 0x30000, where queue 1 is described with word 0 and its ring; and the queues bound. -/
def rigQueues (w0 : Byte) (l : List Queue) : State := { rig with
  cx := { rig.cx with
    running := false, ptes := rig.cx.ptes ++ [{ va := queueTab, lvl := 4, ctl := leafCtl 0 0 true true false false false rawAttr 0 0, loc := 0x30000 }] }
  mem := rig.mem ++ [(0x30040, w0), (0x3004A, 1)], queues := l }

/-- A wake from the queue's function, from its own context, from another, and from a peer its table accepts; to a queue in its slot, in error
with bit 63 and with room for the overflow with bit 62, one that leaves its slot, and one with none; and a context that is not there. -/
theorem witness_WakeEvents :
    (((rigQueues 1 []).cx? 0).isSome = true ∧ rig.cx? 4 = none ∧ (255 : Nat) < 256 ∧ 256 ≤ (256 : Nat)) ∧
    (let j := (rigQueues 1 []).atCx 0
     WakeAccepts j (.host 0 0) 1 ∧ ¬ WakeAccepts j (.host 1 0) 1 ∧ WakeAccepts j (.ctx 0) 1 ∧ ¬ WakeAccepts j (.ctx 1) 1 ∧ j.queue? 0 1 = none) ∧
    (let p := rigPkt 1 0 0 0 0
     let x : Queue := { rigQueue 1 [p] with err := true, ovp := true }
     let j := (rigQueues 1 [x]).atCx 0
     j.queue? j.cx.id 1 = some x ∧ x.leaving = false ∧ (0x8000000000000000 : Word).getLsbD 63 = true ∧ (0x4000000000000000 : Word).getLsbD 62 = true ∧
       (1 : Word).getLsbD 62 = false ∧ ¬ (x.evw + 2 ^ 32 - 0 % 2 ^ 32) % 2 ^ 32 = dEvents x.w0 ∧
       (16 + x.evw + 2 ^ 32 - 0 % 2 ^ 32) % 2 ^ 32 = dEvents x.w0) := by
  refine ⟨by decide +kernel, ⟨?_, ?_, ?_, ?_, by decide +kernel⟩, by decide +kernel⟩ <;> simp only [WakeAccepts] <;> decide +kernel

/-- A store of the context that stands before the host page at 0x50000. -/
def hostReq : Req :=
  { who := .thr ⟨0, 0, 0⟩, ctx := 0, key := 0, pa := (({ va := 0x50000, lvl := 4, ctl := leafCtl 2 0 true false false false false rawAttr 0 0, loc := 0x10000 } : Pte).phys 0x50000)
    rel := false, sc := .dev, port := none, body := .write [(0, 1, 0xFF)] }

/-- A bind of a good descriptor, with a wake word and none, of a bad one, of a kind without a ring, and of a slot that is taken; an unmap of a
queue with nothing under way, with a wake to look at and none, and of one with a packet that has issued. -/
theorem witness_SlotEvents :
    (let s := rigQueues 1 []
     (s.cx? 0).isSome = true ∧ s.queue? 0 1 = none ∧ (let j := s.atCx 0
       let x := j.loadQueue 1 63
       dKind x.w0 = 1 ∧ (∀ y ∈ j.queues, ¬ (y.die = x.die ∧ y.slot = 63)) ∧ descBad x.w0 x.base x.evBase = false ∧
         ({ j with queues := j.queues ++ [x] } : State).desc x.q 3 = 0)) ∧
    (let s : State := { rigQueues 1 [] with mem := rig.mem ++ [(0x30040, 1), (0x3004A, 1), (0x30058, 1)] }
     s.queue? 0 1 = none ∧ (let j := s.atCx 0
       let x := j.loadQueue 1 0
       dKind x.w0 = 1 ∧ descBad x.w0 x.base x.evBase = false ∧ ({ j with queues := j.queues ++ [x] } : State).desc x.q 3 ≠ 0)) ∧
    (let j := (rigQueues 0x11 []).atCx 0
     let x := j.loadQueue 1 63
     dKind x.w0 = 1 ∧ descBad x.w0 x.base x.evBase = true) ∧
    (let j := (rigQueues 2 []).atCx 0
     ¬ (dKind (j.loadQueue 1 0).w0 = 1 ∨ dKind (j.loadQueue 1 0).w0 = 3)) ∧
    (let x : Queue := rigQueue 1 []
     let s := rigQueues 1 [x]
     s.queue? 0 1 = some x ∧ x.busy = none ∧ x.inCall = [] ∧ x.pend = false ∧ (let j := (s.atCx 0).saveQueue x false
      State.desc { j with queues := j.queues.filter fun y => !(Queue.is 0 1 y) } 1 3 = 0)) ∧
    (let x : Queue := { rigQueue 1 [] with pend := true }
     let s := rigQueues 1 [x]
     s.queue? 0 1 = some x ∧ x.inCall = [] ∧ (let u := (s.atCx 0).saveQueue x false
      let v := u.putDesc 1 3 (u.desc 1 3 ||| 1)
      State.desc { v with queues := v.queues.filter fun y => !(Queue.is 0 1 y) } 1 3 ≠ 0)) ∧
    (let x : Queue := { rigQueue 1 [] with busy := some (rigPkt 1 0 0 0 0) }
     (rigQueues 1 [x]).queue? 0 1 = some x ∧ x.busy ≠ none) := by
  refine ⟨by decide +kernel, by decide +kernel, by decide +kernel, by decide +kernel, by decide +kernel, by decide +kernel, by decide +kernel⟩

/-- A packet that fails to read, one that waits for its page, a valid one and an invalid one to look at; a bad one next, with an undefined type;
each type of packet to issue, one that waits, one that fails, one of another type, and one behind one that runs; a header that can be cleared,
that waits and that fails; a packet to complete, with a signal and none, a signal that waits and one that fails, a call at its end, and a
launch that runs. -/
theorem witness_PacketEvents :
    let s (x : Queue) : State := rigQueues 1 [x]
    let one (p : QPkt) : Queue := rigQueue 1 [p]
    let far (w0 base : Word) : Queue := { rigQueue w0 [] with pend := true, base := base }
    let host (va : Nat) : Pte := { va, lvl := 4, ctl := leafCtl 2 0 true false false false false rawAttr 0 0, loc := 0x10000 }
    let with_ (e : Pte) (x : Queue) : State := { s x with cx := { (s x).cx with ptes := (s x).cx.ptes ++ [e] } }
    let goes (x : Queue) (p : QPkt) (t : State) : Prop := t.queue? 0 1 = some x ∧ MayIssue (t.atCx 0) x p [] ∧ p.fault = none
    let clears (x : Queue) (t : State) : Except OpStop State := t.sideWrite (dSide x.w0) (dFunc x.w0) (dPasid x.w0) (x.at x.rd) (List.replicate 8 0)
    let sig (v : Word) : QPkt := { rigPkt 6 0 0 0 0 with w := (rigPkt 6 0 0 0 0).w.set 1 v }
    let done (v : Word) : Queue := { rigQueue 1 [] with busy := some (sig v) }
    (let x := far 1 0x10000
     (s x).queue? 0 1 = some x ∧ (∀ code p, ¬ NextBad x code p) ∧ ¬ (x.err = true ∨ x.stop = true ∨ x.pend = false ∨ x.joined = true ∨ x.leaving = true ∨ 32 ≤ x.look.length) ∧
       (∃ b, ((s x).atCx 0).sideRead (dSide x.w0) (dFunc x.w0) (dPasid x.w0) (x.at x.ahead) 64 = .ok b ∧ (packetOf b true 0).w[0].getLsbD 63 = false)) ∧
    (let x := far 1 0x10000
     let t : State := { s x with mem := (0x10007, 0x80) :: (s x).mem }
     ∃ b, (t.atCx 0).sideRead (dSide x.w0) (dFunc x.w0) (dPasid x.w0) (x.at x.ahead) 64 = .ok b ∧ (packetOf b true 0).w[0].getLsbD 63 = true) ∧
    ((∃ m, ((s (far 1 0x80000)).atCx 0).sideRead false 0 0 0x80000 64 = .error (.fail m)) ∧
      ∃ w, ((with_ (host 0x80000) (far 1 0x80000)).atCx 0).sideRead false 0 0 0x80000 64 = .error (.wait w)) ∧
    (let p := rigPkt 7 0 0 0 0
     (s (one p)).queue? 0 1 = some (one p) ∧ NextBad (one p) 1 p) ∧
    (let p := rigPkt 1 0 0 0 0
     goes (one p) p (s (one p)) ∧ Effect ((s (one p)).atCx 0) 1 1 (issued (one p) p []) p { issued (one p) p [] with launch := true }
       { (s (one p)).atCx 0 with cx := ((s (one p)).atCx 0).cx.launch (some 1) } ∧
     (∃ u, clears (one p) { (s (one p)).atCx 0 with cx := ((s (one p)).atCx 0).cx.launch (some 1) } = .ok u) ∧
     PacketWaits { (s (one p)).atCx 0 with cx := { (s (one p)).cx with running := true } } 1 (issued (one p) p []) p ∧ p.type ≠ 2) ∧
    (let p := rigPkt 2 0x50000 0x10000 1 0x101C4
     let x := issued (one p) p []
     let j := (s (one p)).atCx 0
     goes (one p) p (s (one p)) ∧ (∃ y t, Effect j 1 2 x p y t) ∧ (∃ u, clears (one p) j = .ok u) ∧
       Fails ((with_ (host 0x50000) (one p)).atCx 0) 2 x p) ∧
    (let p := rigPkt 3 0x50000 0 1 0
     let x := issued (one p) p []
     let j := (with_ (host 0x50000) (one p)).atCx 0
     goes (one p) p (with_ (host 0x50000) (one p)) ∧ (∃ y t, Effect j 1 3 x p y t) ∧ Fails ((s (one p)).atCx 0) 3 x p ∧
       PacketWaits { j with reqs := [hostReq] } 3 x p) ∧
    (let p := rigPkt 4 0x10400 1 0 0
     let x := issued (one p) p []
     let q := rigPkt 4 0x80000 1 0 0
     goes (one p) p (s (one p)) ∧ (∃ y t, Effect ((s (one p)).atCx 0) 1 4 x p y t) ∧ Fails ((s (one q)).atCx 0) 4 (issued (one q) q []) q ∧
       PacketWaits ((with_ (host 0x80000) (one q)).atCx 0) 4 (issued (one q) q []) q) ∧
    (let p := rigPkt 5 0 0 0 0
     goes (one p) p (s (one p)) ∧ Effect ((s (one p)).atCx 0) 1 5 (issued (one p) p []) p { issued (one p) p [] with joined := false } ((s (one p)).atCx 0)) ∧
    (let p : QPkt := { rigPkt 6 0 0 0 0 with ring := false, depth := 1 }
     goes (one p) p (s (one p)) ∧ Effect ((s (one p)).atCx 0) 1 6 (issued (one p) p []) p (issued (one p) p []) ((s (one p)).atCx 0)) ∧
    ((∃ w, clears (far 1 0x80000) ((with_ { host 0x80000 with ctl := leafCtl 2 0 true true false false false rawAttr 0 0 } (far 1 0x80000)).atCx 0) = .error (.wait w)) ∧
      ∃ m, clears (far 1 0x80000) ((s (far 1 0x80000)).atCx 0) = .error (.fail m)) ∧
    (∀ p rest, ¬ MayIssue ((s (done 0)).atCx 0) (done 0) p rest) ∧
    ((s (done 0)).queue? 0 1 = some (done 0) ∧ Completes (done 0) (sig 0) { done 0 with busy := none } ∧ (sig 0).w[1] = 0) ∧
    ((s (done 0x10000)).queue? 0 1 = some (done 0x10000) ∧ Completes (done 0x10000) (sig 0x10000) { done 0x10000 with busy := none } ∧
      ∃ b, signalRead ((s (done 0x10000)).atCx 0) (done 0x10000) 0x10000 = .ok b ∧ ∃ t, signalWrite ((s (done 0x10000)).atCx 0) (done 0x10000) 0x10000 b = .ok t) ∧
    ((∃ m, signalRead ((s (done 0)).atCx 0) (done 0) 0x80000 = .error (.fail m)) ∧
      ∃ w, signalRead ((with_ (host 0x80000) (done 0)).atCx 0) (done 0) 0x80000 = .error (.wait w)) ∧
    (let c : QPkt := { sig 0 with ring := false, fin := true }
     Completes (one c) c { one c with look := [] }) ∧
    (let x : Queue := { done 0 with launch := true }
     ∀ p y, ¬ Completes x p y) := by
  intro s one far host with_ goes clears sig done
  have may {x : Queue} {p : QPkt} {t : State} (h : (t.queue? 0 1 = some x ∧ (x.look = [p] ∧ x.err = false ∧ x.busy = none ∧ p.fin = false ∧
      x.leaving = false ∧ (t.atCx 0).cx.retired = false) ∧ p.fault = none)) : goes x p t :=
    ⟨h.1, ⟨h.2.1.1, h.2.1.2.1, h.2.1.2.2.1, h.2.1.2.2.2.1, fun k => (by rw [h.2.1.2.2.2.2.1] at k; cases k), h.2.1.2.2.2.2.2⟩, h.2.2⟩
  refine ⟨⟨by decide +kernel, fun code p h => ?_, by decide +kernel, okWith (by decide +kernel)⟩, okWith (by decide +kernel),
    ⟨itFails (by decide +kernel), itWaits (by decide +kernel)⟩, ⟨by decide +kernel, rfl, rfl, [], rfl, rfl, by decide +kernel⟩,
    ⟨may (by decide +kernel), .inl ⟨rfl, by decide +kernel, rfl, rfl⟩, someOk (by decide +kernel), .inl ⟨rfl, rfl⟩, by decide +kernel⟩,
    ⟨may (by decide +kernel), ⟨_, _, .inr (.inl ⟨rfl, by decide +kernel, by decide +kernel, by decide +kernel, by decide +kernel, rfl, rfl⟩)⟩,
      someOk (by decide +kernel), .inl ⟨rfl, .inr (.inr (.inr (by decide +kernel)))⟩⟩,
    ⟨may (by decide +kernel), ⟨_, _, .inr (.inr (.inl ⟨rfl, [host 0x50000], by decide +kernel, by decide +kernel, by decide +kernel, rfl, rfl⟩))⟩,
      .inr (.inl ⟨rfl, fun es h => ?_⟩), .inr (.inl ⟨rfl, [host 0x50000], by decide +kernel, by decide +kernel, by decide +kernel⟩)⟩,
    ⟨may (by decide +kernel), ?_, .inr (.inr ⟨rfl, itFails (by decide +kernel)⟩), .inr (.inr ⟨rfl, itWaits (by decide +kernel)⟩)⟩,
    ⟨may (by decide +kernel), .inr (.inr (.inr (.inr (.inl ⟨rfl, rfl, rfl⟩))))⟩,
    ⟨may (by decide +kernel), .inr (.inr (.inr (.inr (.inr ⟨rfl, rfl, rfl⟩))))⟩,
    ⟨itWaits (by decide +kernel), itFails (by decide +kernel)⟩, fun p rest h => ?_,
    ⟨by decide +kernel, .inl ⟨rfl, rfl, rfl⟩, by decide +kernel⟩,
    ⟨by decide +kernel, .inl ⟨rfl, rfl, rfl⟩, ?_⟩,
    ⟨itFails (by decide +kernel), itWaits (by decide +kernel)⟩, .inr ⟨rfl, [], rfl, rfl, rfl⟩, fun p y h => ?_⟩
  · obtain ⟨-, -, rest, h, -⟩ := h
    cases h
  · rw [show (((s (one (rigPkt 3 0x50000 0 1 0))).atCx 0).cx.run (rigPkt 3 0x50000 0 1 0).w[4].toNat (rigPkt 3 0x50000 0 1 0).w[2].toNat) = none by
      decide +kernel] at h
    cases h
  · obtain ⟨b, hb⟩ := someOk (x := ((s (one (rigPkt 4 0x10400 1 0 0))).atCx 0).sideRead (dSide 1) (dFunc 1) (dPasid 1)
      (rigPkt 4 0x10400 1 0 0).w[2].toNat (64 * (rigPkt 4 0x10400 1 0 0).w[3].toNat)) (by decide +kernel)
    exact ⟨_, _, .inr (.inr (.inr (.inl ⟨rfl, b, hb, rfl, rfl⟩)))⟩
  · cases h.1
  · obtain ⟨b, hb⟩ := someOk (x := signalRead ((s (done 0x10000)).atCx 0) (done 0x10000) 0x10000) (by decide +kernel)
    refine ⟨b, hb, ?_⟩
    obtain ⟨t, ht⟩ := okWith (x := signalRead ((s (done 0x10000)).atCx 0) (done 0x10000) 0x10000)
      (P := fun b => (signalWrite ((s (done 0x10000)).atCx 0) (done 0x10000) 0x10000 b).toOption.isSome = true) (by decide +kernel)
    rw [hb] at ht
    obtain ⟨h, k⟩ := ht
    cases h
    exact someOk k
  · rcases h with ⟨-, h, -⟩ | ⟨h, -⟩ <;> cases h

/-- Queues: see witness_WakeEvents, witness_SlotEvents and witness_PacketEvents. -/
theorem witness_QueueEvents : (rigQueues 1 [rigQueue 1 []]).queue? 0 1 = some (rigQueue 1 []) := by decide +kernel

/-- Interfaces in each state, functions at both ends of their range and outside, and streams of IDE up to sixteen. -/
theorem witness_HostLinkEvents :
    let s (t : Tdi) : State := { State.reset with tdi := Vector.replicate 65 t }
    ((1 : Nat) ≤ 1 ∧ 1 < 65 ∧ 1 ≤ 64 ∧ 64 < 65 ∧ ((0 : Nat) = 0 ∨ 65 ≤ 0) ∧ (65 = 0 ∨ 65 ≤ 65)) ∧
    ((s .unlocked).tdi[64] = .unlocked ∧ (s .locked).tdi[1] = .locked ∧ (s .run).tdi[1] = .run ∧ (s .error).tdi[1] ≠ .unlocked ∧
      (s .error).tdi[1] ≠ .locked ∧ (s .error).tdi[1] ≠ .run) ∧
    ((State.reset.ide.toList.filter id).length < 16 ∧ (let x := Vector.ofFn fun i : Fin 65 => decide (i.val < 16)
      16 ≤ (x.toList.filter id).length ∧ x[64] = false ∧ x[0] = true)) := by
  intro s
  exact ⟨by decide, by decide +kernel, by decide +kernel⟩

/-- Queues and the host link: see witness_QueueEvents and witness_HostLinkEvents. -/
theorem witness_HostEvents : State.reset.tdi[1] = .unlocked := by decide +kernel

/-- The rig with a peer table at 0x40000, whose entry 0 accepts context 5 of the peer with address 7; and queue 1 described with word 0. -/
def rigPeer (w0 : Byte) : State :=
  let s := rigQueues w0 []
  { s with
    cx := { s.cx with ptes := s.cx.ptes ++ [{ va := peerBase, lvl := 4, ctl := leafCtl 0 0 true true false false false rawAttr 0 0, loc := 0x40000 },
      { va := 0x50000, lvl := 4, ctl := leafCtl 2 0 true true false false false rawAttr 0 0, loc := 0x10000 },
      { va := 0x60000, lvl := 4, ctl := leafCtl 0 0 true true false false false rawAttr 0 0, loc := wordN wakeWin }] }
    mem := s.mem ++ [(0x40000, 7), (0x40010, 0x85), (0x40011, 1)] }

/-- A peer that the table accepts and one it does not; a packet behind one that waits; a put, and a read, at both ends of the data page, on a
host page that waits, on no page, and on a wake register; a receive ring in host memory with a free slot, one in no memory, and a queue that
is none; and the presentation area. -/
theorem witness_PeerEvents :
    let j : State := (rigPeer 6).atCx 0
    (PeerAccepts (rigPeer 6) 7 5 0 ∧ ¬ PeerAccepts (rigPeer 6) 7 5 4) ∧
    (∀ i ∈ (rigPeer 6).endq, peerTarget i ≠ some 0) ∧ (∃ i ∈ ({ rigPeer 6 with endq := [.put 7 5 (.ctx 0) 0 false []] } : State).endq, peerTarget i = some 0) ∧
    (∀ a ∈ [0x10000, 0x1FFF8], ∀ w ∈ [true, false], ∃ p ps, j.opSpots a w 8 = (p :: ps, none) ∧ isWake p.pa = false) ∧
    (∀ w ∈ [true, false], ∃ ps x, j.opSpots 0x50000 w 8 = (ps, some (.wait x))) ∧
    (∀ w ∈ [true, false], ∃ ps m, j.opSpots 0x80000 w 8 = (ps, some (.fail m))) ∧
    (∃ p ps, j.opSpots 0x60000 true 8 = (p :: ps, none) ∧ isWake p.pa = true) ∧
    ((1 : Nat) < 256 ∧ dKind (j.desc 1 0) = 2 ∧ dSide (j.desc 1 0) = true ∧ (∃ h, j.sideRead true 0 0 0x10000 8 = .ok h ∧ leNat h = 0) ∧
      (∃ u, j.sideWrite true 0 0 0x10008 (List.replicate 56 0) = .ok u ∧ ∃ v, u.sideWrite true 0 0 0x10000 (leBytes (2 ^ 63) 8) = .ok v)) ∧
    (let k : State := (rigPeer 2).atCx 0
     dKind (k.desc 1 0) = 2 ∧ dSide (k.desc 1 0) = false ∧ (∃ h, k.sideRead false 0 0 0x10040 8 = .ok h ∧ leNat h = 0) ∧
       (∃ m, k.sideRead false 0 0 0x80000 8 = .error (.fail m)) ∧ (∃ w, k.sideRead false 0 0 0x50000 8 = .error (.wait w))) ∧
    ¬ dKind (((rigPeer 1).atCx 0).desc 1 0) = 2 ∧ (∀ i ∈ (rigPeer 6).endq, peerTarget i ≠ none) := by
  intro j
  have none_ {a : Nat} {w b : Bool} (h : (match (j.opSpots a w 8).1, (j.opSpots a w 8).2 with | p :: _, none => isWake p.pa == b | _, _ => false) = true) :
      ∃ p ps, j.opSpots a w 8 = (p :: ps, none) ∧ isWake p.pa = b := by
    cases h' : j.opSpots a w 8 with
    | mk l e =>
    rw [h'] at h
    cases l with
    | nil => simp at h
    | cons p ps => cases e with
      | none => exact ⟨p, ps, rfl, by simpa using h⟩
      | some e => simp at h
  have wait_ {a : Nat} {w : Bool} (h : (match (j.opSpots a w 8).2 with | some (.wait _) => true | _ => false) = true) :
      ∃ ps x, j.opSpots a w 8 = (ps, some (.wait x)) := by
    cases h' : j.opSpots a w 8 with
    | mk l e =>
    rw [h'] at h
    cases e with
    | none => simp at h
    | some e => cases e with
      | wait x => exact ⟨l, x, rfl⟩
      | fail m => simp at h
  have fail_ {a : Nat} {w : Bool} (h : (match (j.opSpots a w 8).2 with | some (.fail _) => true | _ => false) = true) :
      ∃ ps m, j.opSpots a w 8 = (ps, some (.fail m)) := by
    cases h' : j.opSpots a w 8 with
    | mk l e =>
    rw [h'] at h
    cases e with
    | none => simp at h
    | some e => cases e with
      | wait x => simp at h
      | fail m => exact ⟨l, m, rfl⟩
  obtain ⟨e, he, h⟩ := some_of (x := ((rigPeer 6).atCx 0).peer? 0) (p := fun e => e.accept && decide (e.addr = 7) && decide (e.ctx = 5)) (by decide +kernel)
  simp only [Bool.and_eq_true, decide_eq_true_eq] at h
  obtain ⟨⟨e1, e2⟩, e3⟩ := h
  refine ⟨⟨⟨_, rfl, rfl, 0, by decide, e, he, e1, e2, e3⟩, ?_⟩, by decide +kernel, by decide +kernel, ?_, ?_, ?_, none_ (by decide +kernel),
    ⟨by decide, by decide +kernel, by decide +kernel, okWith (by decide +kernel), ?_⟩,
    ⟨by decide +kernel, by decide +kernel, okWith (by decide +kernel), itFails (by decide +kernel), itWaits (by decide +kernel)⟩,
    by decide +kernel, by decide +kernel⟩
  · rintro ⟨x, h, -⟩
    rw [show (rigPeer 6).cx? 4 = none by decide +kernel] at h
    cases h
  · intro a ha w hw
    simp only [List.mem_cons, List.not_mem_nil, or_false] at ha hw
    rcases ha with rfl | rfl <;> rcases hw with rfl | rfl <;> exact none_ (by decide +kernel)
  · intro w hw
    simp only [List.mem_cons, List.not_mem_nil, or_false] at hw
    rcases hw with rfl | rfl <;> exact wait_ (by decide +kernel)
  · intro w hw
    simp only [List.mem_cons, List.not_mem_nil, or_false] at hw
    rcases hw with rfl | rfl <;> exact fail_ (by decide +kernel)
  · obtain ⟨u, hu, h⟩ := okWith (x := j.sideWrite true 0 0 0x10008 (List.replicate 56 0))
      (P := fun u => (u.sideWrite true 0 0 0x10000 (leBytes (2 ^ 63) 8)).toOption.isSome = true) (by decide +kernel)
    exact ⟨u, hu, someOk h⟩

/-- A put of 8 bytes to peer 0 with its packet in flight on path 2. -/
def rigNet : NetCmd := { tag := 3, thr := 0, core := 0, ctx := 0, kind := 1, peers := [0], len := 8, buf := [(0, 2, [1])] }

/-- A packet in flight and none; a put and a get, whose bytes have their place and wait for it; a loss; and a command that is over, refused, with
a status, and not yet. -/
theorem witness_AckEvents :
    let s (n : NetCmd) : State := { rigPeer 6 with nets := [n] }
    let get (a : Nat) : NetCmd := { rigNet with kind := 2, loc := a }
    ((s rigNet).nets = [] ++ rigNet :: [] ∧ Flying rigNet 2 0 ∧ ¬ Flying rigNet 1 0 ∧ (s rigNet).isOut 0 0 = false ∧ rigNet.kind ≠ 2) ∧
    (((s (get 0x10000)).focusOn 0 0).netWaits ((get 0x10000).loc + ((get 0x10000).packet 0).2.1) ((get 0x10000).packet 0).2.2 = false ∧
      ((s (get 0x50000)).focusOn 0 0).netWaits ((get 0x50000).loc + ((get 0x50000).packet 0).2.1) ((get 0x50000).packet 0).2.2 = true) ∧
    ((s rigNet).nets.find? (fun c => c.tag = 3) = some rigNet ∧ (rigNet.buf.find? fun b => b.1 = 0 && b.2.1 = 2) = some (0, 2, [1])) ∧
    (∀ n ∈ (s rigNet).nets, n.tag ≠ 4) ∧
    (let n : NetCmd := { rigNet with buf := [], acked := 8, begun := true }
     n.status = none ∧ n.buf = [] ∧ n.total ≤ n.acked ∧ n.begun = true ∧ ¬ ({ n with acked := 0 } : NetCmd).total ≤ 0) ∧
    (rigNet.status = none ∧ rigNet.begun = false ∧ rigNet.buf ≠ [] ∧ (rig.focusOn 0 0).cx.replay.isSome = false) ∧
    ({ rigNet with status := some 0x14 } : NetCmd).status = some 0x14 := by
  intro s get
  exact ⟨⟨rfl, by unfold Flying; decide +kernel, by unfold Flying; decide +kernel, by decide +kernel, by decide⟩, by decide +kernel, by decide +kernel,
    by decide +kernel, by decide +kernel, by decide +kernel, rfl⟩

/-- A collective of three parties with another header, and with its own; a partial it has and one out of range; one that is not the last, and
the last, with a place for the result and one that waits; and none that stands. -/
theorem witness_PartialEvents :
    let n (a : Nat) (l : List (Nat × List Byte)) : NetCmd := { rigNet with kind := 3, q := 3, remote := a, got := l }
    let s (n : NetCmd) : State := { rigPeer 6 with nets := [n] }
    let two : List (Nat × List Byte) := [(0, List.replicate 8 0), (1, List.replicate 8 0)]
    let j (a : Nat) : State := ((s (n a two)).focusOn 0 0).updNet 3 fun c => { c with got := c.got ++ [(2, slice (List.replicate 8 0) 0 8)] }
    (((s (n 0x10000 [])).nets.find? fun c => c.tag = 3 && c.kind = 3 && c.status.isNone) = some (n 0x10000 []) ∧ (s (n 0x10000 [])).isOut 0 0 = false ∧
      (n 0x10000 []).hdr ≠ (n 0x10000 []).hdr + 1 ∧ (n 0x10000 []).q ≤ 3 ∧ ∃ g ∈ (n 0x10000 two).got, g.1 = 1) ∧
    (2 < (n 0x10000 []).q ∧ (∀ g ∈ (n 0x10000 two).got, g.1 ≠ 2) ∧ (∀ m ∈ (s (n 0x10000 two)).nets, m.tag = 3 → m = n 0x10000 two) ∧
      (n 0x10000 two).folded = false ∧ ([] ++ [(2, [])] : List (Nat × List Byte)).length < (n 0x10000 []).q ∧
      (n 0x10000 two).q ≤ (two ++ [(2, [])]).length ∧ (j 0x10000).netWaits 0x10000 8 = false ∧ (j 0x50000).netWaits 0x50000 8 = true) ∧
    (∀ m ∈ (s rigNet).nets, ¬ (m.tag = 3 ∧ m.kind = 3 ∧ m.status = none)) := by
  intro n s two j
  exact ⟨by decide +kernel, by decide +kernel, by decide +kernel⟩

/-- A port that is up and not; a packet of its key that is new, seen, and the oldest its window admits; and one of the old key, and of none. -/
theorem witness_FrameEvents :
    let x : EPort := { up := true, assoc := 2, top := 5000, seen := [5000], old := some 1, oldTop := 5000, oldSeen := [5000] }
    (x.up = true ∧ State.reset.eports[7].up = false ∧ NewFrame x.top x.seen 5001 ∧ NewFrame x.top x.seen 905 ∧ ¬ NewFrame x.top x.seen 904 ∧
      ¬ NewFrame x.top x.seen 5000 ∧ 1 ≠ x.assoc ∧ x.old = some 1 ∧ NewFrame x.oldTop x.oldSeen 5001 ∧ x.old ≠ some 0) := by
  intro x
  unfold NewFrame
  decide +kernel

/-- The network: see witness_PeerEvents, witness_AckEvents, witness_PartialEvents and witness_FrameEvents. -/
theorem witness_NetworkEvents : (rigPeer 6).nets = [] ∧ (rigPeer 6).endq = [] := by decide +kernel

/-- A session of the board, silent for 10 seconds less d µs, and one of a peer that began later; an election open for two seconds; a claim of each;
and a handover that has lapsed. -/
def rigSeat (h : Option Cand) (d : Nat := 0) : State := { State.reset with
  iod := 20000000 - d
  seat := { sessions := [⟨.board, [1], 0, 10000000⟩, ⟨.peer 4, [3], 5, 20000000⟩], holder := h, opened := 18000000, claims := [.peer 4, .board]
            handover := some ([2], 9999999) } }

/-- A session that is silent and one that is not; an election that is due, with claims and none, and one that is not; a claim with the session's
certificate, and with another, in recovery, with the seat held and free, by the successor that is named; a holder, in recovery and not; a
handover that lapses and one that does not; and the module before its firmware runs. -/
theorem witness_SeatEvents :
    let s (h : Option Cand) : State := rigSeat h
    let rec_ (h : Option Cand) : State := { s h with recovery := true }
    let young (h : Option Cand) : State := rigSeat h 1
    let j (h : Option Cand) : State := (young h).touchSession .board
    let owned (h : Option Cand) : State := { young h with seat := { (young h).seat with owner := some (List.replicate 32 0), handover := some (List.replicate 32 0, 9999999) } }
    ((s none).session? .board = some ⟨.board, [1], 0, 10000000⟩ ∧ 10000000 + 10000000 ≤ (s none).iod ∧ (s none).session? .host = none ∧
      (young none).iod < 10000000 + 10000000 ∧ 2 ≤ (s none).bring ∧ ({ s none with bring := 1 } : State).bring < 2) ∧
    (ElectionDue (s none) ∧ (s none).seat.claims = [.peer 4] ++ .board :: [] ∧ (∀ x ∈ [Cand.peer 4], Before (s none) .board x) ∧
      (∀ x ∈ ([] : List Cand), ¬ Before (s none) x .board) ∧ (∀ x ∈ [Cand.peer 4] ++ [], x ≠ .board) ∧
      ElectionDue ({ s none with seat := { (s none).seat with claims := [] } } : State) ∧ ¬ ElectionDue (young none) ∧ ¬ ElectionDue (s (some .board))) ∧
    ((young none).session? .board = some ⟨.board, [1], 0, 10000000⟩ ∧ ¬ ElectionDue (j none) ∧ Signed (j none) .board ⟨.board, [1], 0, 10000000⟩ [1] [] ∧
      ¬ Signed (j none) .board ⟨.board, [1], 0, 10000000⟩ [2] [] ∧ (young none).recovery = false ∧ (young none).seat.holder = none ∧
      (young none).seat.open_ = true ∧ (young (some .host)).seat.holder ≠ none ∧
      (let k := j (some .host)
       ¬ ∃ t, ({ k.seat with handover := none } : Seat).handover = some (Config.shake256 [1], t) ∧ k.iod ≤ t + 10000000)) ∧
    ((∀ m, Config.shake256 m = List.replicate 32 0) → (∀ k m sg, Config.mldsaVerify k m sg = true) →
      Signed (owned (some .host)) .board ⟨.board, [1], 0, 10000000⟩ [1] [] ∧
        ∃ t, (owned (some .host)).seat.handover = some (Config.shake256 [1], t) ∧ (owned (some .host)).iod ≤ t + 10000000) ∧
    ((rec_ none).recovery = true ∧ ¬ ElectionDue ((rec_ (some .board)).touchSession .board) ∧ (rec_ (some .board)).seat.holder = some .board ∧
      ((rec_ (some .board)).session? .board).isSome = true ∧ Cand.host ≠ .board) ∧
    (Holds (s (some .board)) .board ∧ (s (some .board)).session? .host = none ∧ (s (some .host)).seat.holder ≠ some .board) ∧
    ((s none).seat.handover = some ([2], 9999999) ∧ 9999999 + 10000000 < (s none).iod ∧ (young none).iod ≤ 9999999 + 10000000) := by
  intro s rec_ young j owned
  refine ⟨by decide +kernel, ⟨by unfold ElectionDue; decide +kernel, rfl, ?_, by simp, by decide, by unfold ElectionDue; decide +kernel,
      by unfold ElectionDue; decide +kernel, by unfold ElectionDue; decide +kernel⟩,
    ⟨by decide +kernel, by unfold ElectionDue; decide +kernel, ⟨rfl, rfl⟩, ?_, rfl, rfl, rfl, by decide, ?_⟩, fun h k => ⟨⟨rfl, h _, k _ _ _⟩, ?_⟩,
    ⟨rfl, by unfold ElectionDue; decide +kernel, rfl, by decide +kernel, by decide⟩, ⟨by unfold Holds; decide +kernel, by decide +kernel, by decide⟩, by decide +kernel⟩
  · unfold Before; decide +kernel
  · rintro ⟨h, -⟩; cases h
  · intro k
    rintro ⟨t, h, -⟩
    cases h
  · rw [h]; exact ⟨9999999, rfl, by decide +kernel⟩

/-- A record of class 2 under key slot 2, which is loaded, with an image of one code section and one task of one thread. -/
def rigReplay : State := { rigSeat (some .board) with
  pres := State.reset.pres.set 3 { area := [(0, 0x0202000131475A4F), (120, 9), (128, 1), (192, 0x00010000), (3840, 0x1000), (3848, 192),
    (0x1000, 0x000100014D495A4F), (0x1008, 1), (0x1010, 192), (0x1040, 0x20000), (0x1048, 64), (0x1050, 128), (0x1058, 0x000101C4),
    (0x1060, 0x20000), (0x1070, 1)].foldl (fun m (x : Nat × Nat) => Memory.put m x.1 (leBytes x.2 8)) [] }
  keys := State.reset.keys.set 2 { loaded := true } }

/-- The holder's commands: a key slot at the end of its range and past it, free, loaded with the same key, and held by a presentation that waits;
parameters in range and not; a firmware that its key signs; a context that captures and one that does not; a replay that its record admits
and one that none does; a replay's input of each kind that is due, one that waits, and one that is not due; and bring-up of each outcome.
Where a digest or a signature is checked, the witness is a machine whose functions answer what the clause asks: they are functions the
manual names and does not define (log 14). -/
theorem witness_SeatCommands :
    let s : State := rigSeat (some .board)
    let j : State := s.touchSession .board
    let key : List Byte := List.replicate 1952 1
    let kept : State := { s with keys := s.keys.set 15 { loaded := true, key := key } }
    let waits : State := { s with commits := [⟨none, none, 15, 0, [], 0, 0⟩] }
    let holds (x : Context) : State := { rigSeat (some .board) with cx := x, cxs := [] }
    let inputs (k a : Nat) (d : List Byte) : State :=
      { rigPeer 6 with cx := { (rigPeer 6).cx with replay := some [⟨0, 0, 0, 0, 0, k, a, d⟩] } }
    let first (k a : Nat) (d : List Byte) : CapRec := ⟨0, 0, 0, 0, 0, k, a, d⟩
    (Holds s .board ∧ (15 < 16 ∧ (16 : Nat) ≤ 16) ∧ key.length = 1952 ∧ ([] : List Byte).length ≠ 1952 ∧ j.slotWaits 15 = false ∧
      (waits.touchSession .board).slotWaits 15 = true ∧ ((kept.touchSession .board).kslot 15).loaded = true ∧ ((kept.touchSession .board).kslot 15).key = key ∧
      (j.kslot 15).loaded = false ∧ (List.replicate 32 (0 : Byte)).length = 32) ∧
    ((1 ≤ 16 ∧ 16 ≤ 16 ∧ 10000 ≤ 10000 ∧ 108 < 109 ∧ 109 < 110 ∧ 110 ≤ 110 ∧ 4096 ≤ 4096) ∧ ¬ (17 ≤ 16) ∧ ¬ 111 ≤ 110 ∧ ¬ 4096 ≤ 4095) ∧
    ((∀ m, Config.shake256 m = Config.firmwareKeyDigest) → (∀ k m sg, Config.mldsaVerify k m sg = true) →
      Config.shake256 [] = Config.firmwareKeyDigest ∧ Config.mldsaVerify [] [] [] = true ∧ s.fwMin ≤ 1) ∧
    (let x : Context := { rig.cx with capture := true }
     Holds (holds x) .board ∧ (holds x).cx? 0 = some x ∧ x.capture = true ∧ (holds rig.cx).cx? 0 = some rig.cx ∧ rig.cx.capture = false ∧ s.cx? 1023 = none) ∧
    ((∀ k m sg, Config.mldsaVerify k m sg = true) → (∀ m, Config.shake256 m = List.replicate 32 0) →
      let j := rigReplay.touchSession .board
      let y := j.pslot 3
      let r := y.area.bytes 0 4096
      let img := (List.range (fieldAt r 3848 8)).map fun i => if 0x1000 + i < areaEnd then y.area.get (0x1000 + i) else 0
      ¬ (16 ≤ 3) ∧ j.signed r = none ∧ j.kfree ≠ 0 ∧
        (∃ p, j.build { j.fromRecord r y.src with cls := 2, capture := false, replay := some [] } img = .ok p) ∧
        Config.shake256 img = slice r 80 32) ∧
    ({ s with recovery := true } : State).seat.holder = some .board ∧
    ((inputs 1 1 (leBytes 1 8)).cx? 0 = some (inputs 1 1 (leBytes 1 8)).cx ∧ pick CapRec.isInput [first 1 1 (leBytes 1 8)] = some (first 1 1 (leBytes 1 8), []) ∧
      (inputs 1 1 (leBytes 1 8)).bind? (coreId 0 0 0) 0 = some (inputs 1 1 (leBytes 1 8)).bd ∧
      ((inputs 1 1 (leBytes 1 8)).bd.task = 0 ∧ 0 ≤ (inputs 1 1 (leBytes 1 8)).bd.ccount.toNat) ∧
      rig.bd.ccount.toNat < 1 ∧ (let t := ((inputs 3 0x10000 [1]).atCx 0)
        (t.opSpots 0x10000 true 1).2 = none ∧ ∃ w, (t.opSpots 0x50000 true 1).2 = some (.wait w)) ∧
      pick CapRec.isInput [first 7 5 []] = some (first 7 5 [], []) ∧ pick CapRec.isInput [first 2 5 [1]] = none) ∧
    (let r : State := { State.reset with bring := 0 }
     r.bring = 0 ∧ r.fwNext = none ∧ r.fwMin ≤ r.fwVer ∧ r.fwVer < ({ r with fwMin := 2 } : State).fwMin ∧ State.reset.bring ≠ 0 ∧
       ({ r with fwNext := some (2, [1]) } : State).fwNext ≠ none) := by
  intro s j key kept waits holds inputs first
  refine ⟨⟨by unfold Holds; decide +kernel, by decide, by decide +kernel, by decide, by decide +kernel, by decide +kernel, by decide +kernel, by decide +kernel, by decide +kernel, by decide⟩, by decide,
    fun h k => ⟨h _, k _ _ _, by decide +kernel⟩, ⟨by unfold Holds; decide +kernel, rfl, rfl, rfl, rfl, by decide +kernel⟩,
    fun h k => ⟨by decide, ?_, by decide +kernel, someOk (by decide +kernel), (k _).trans (by decide +kernel)⟩, rfl,
    ⟨rfl, by decide +kernel, rfl, by decide +kernel, by decide +kernel, ⟨by decide +kernel, ?_⟩, by decide +kernel, by decide +kernel⟩, by decide +kernel⟩
  · unfold State.signed
    simp only [h]
    decide +kernel
  · have (x : Option OpStop) (h : (match x with | some (.wait _) => true | _ => false) = true) : ∃ w, x = some (.wait w) := by
      cases x with
      | none => simp at h
      | some e => cases e with
        | wait w => exact ⟨w, rfl⟩
        | fail m => simp at h
    exact this _ (by decide +kernel)

/-- The seat and its commands: see witness_SeatEvents and witness_SeatCommands. -/
theorem witness_OperatorEvents : State.reset.recovery = false := by decide +kernel

/-- What the clk of core 0 at hand sees: the core, before its candidates are tried, for context 0. -/
def clkB (s : State) : State := clkOf 0 0 { s with agenda := s.agenda.tail }
def clkA (s : State) : State := (State.applyDue 0 s.pends.length { s with agenda := s.agenda.tail }).focusCore 0

/-- The state in which thread 0 of context 0 issues on core 0. -/
def clkG (s : State) : State := { (clkB s).focusTh ⟨0, 0, 0⟩ with iss := {} }

/-- Thread 0 issues in a clk that its context is due in and in which eight eddies, which are not there, may go first. -/
theorem turn {s : State} (h1 : s.agenda = .clk 0 :: s.agenda.tail)
    (h2 : (let b := clkB s
      decide ((((clkA s).core.slots.toList[(clkA s).core.clk % 64]?).join = some (0, 0))) &&
      !((b.thread? ⟨0, 0, 0⟩).any (·.declined)) &&
      decide (b.candidates ((clkA s).core.clk % 64) 0 0 =
        (List.range 8).map (fun i => (⟨0, 0, 8 + i⟩ : TKey)) ++ ⟨0, 0, 0⟩ ::
          ((List.range 7).map (fun i => (⟨0, 0, 1 + i⟩ : TKey)) ++ (List.range 8).map fun i => (⟨0, 0, 8 + i⟩ : TKey))) &&
      ((List.range 8).all fun i => (b.thread? ⟨0, 0, 8 + i⟩).isNone) &&
      ((b.thread? ⟨0, 0, 0⟩).any fun t => (b.focusTh ⟨0, 0, 0⟩).mayIssue t) && !((b.focusTh ⟨0, 0, 0⟩).irqDue) &&
      decide ((b.focusTh ⟨0, 0, 0⟩).th.gang = .none)) = true) : Turn s 0 0 ⟨0, 0, 0⟩ (clkG s) := by
  simp only [Bool.and_eq_true, Bool.not_eq_true', decide_eq_true_eq] at h2
  obtain ⟨⟨⟨⟨⟨⟨a, b⟩, c⟩, d⟩, e⟩, f⟩, g⟩ := h2
  cases ht : (clkB s).thread? ⟨0, 0, 0⟩ with
  | none => simp [ht] at e
  | some t =>
  rw [ht] at e
  have m : ((clkB s).focusTh ⟨0, 0, 0⟩).mayIssue t = true := e
  refine ⟨_, 0, _, _, t, h1, a, b, c, ?_, ht, f, m, g, rfl⟩
  intro x hx u hu
  obtain ⟨i, hi, rfl⟩ := List.mem_map.mp hx
  have := List.all_eq_true.mp d i hi
  rw [show clkB s = clkOf 0 0 { s with agenda := s.agenda.tail } from rfl, hu] at this
  simp at this

/-- An issue that answers a next state and does not wait. -/
theorem goes {o : Host.Outcome State Fault Refusal} (h : (match o with | .next u => !u.isBlocked | _ => false) = true) :
    ∃ u, o = .next u ∧ u.isBlocked = false := by
  cases o with
  | next u => exact ⟨u, rfl, by simpa using h⟩
  | fault e => simp at h
  | refused e => simp at h

/-- The members of a pair, run one after the other. -/
theorem reaches {w : IWord} {x : Slot} {p : State} {Q : State → Prop} [DecidablePred Q] (hx : decode w = .ok x)
    (h : (xor (p.pred x.pr) x.pn && (match exec x.instr p with | .next r => decide (Q r) | _ => false)) = true) : ∃ r, Reaches w p r ∧ Q r := by
  simp only [Bool.and_eq_true] at h
  cases hr : exec x.instr p with
  | next r => rw [hr] at h; exact ⟨r, ⟨x, hx, .inl ⟨h.1, hr⟩⟩, of_decide_eq_true h.2⟩
  | fault e => rw [hr] at h; simp at h
  | refused e => rw [hr] at h; simp at h

theorem both {w v : IWord} {x y : Slot} {g : State} {Q : State → Prop} [DecidablePred Q] (hx : decode w = .ok x) (hy : decode v = .ok y)
    (h : (xor ((firstOf g).pred x.pr) x.pn && (match exec x.instr (firstOf g) with
      | .next r => decide (r.iss.res = .done) && (xor ((secondOf g r).pred y.pr) y.pn && (match exec y.instr (secondOf g r) with
        | .next q => decide (Q q) | _ => false))
      | _ => false)) = true) : ∃ r q, Reaches w (firstOf g) r ∧ r.iss.res = .done ∧ Reaches v (secondOf g r) q ∧ Q q := by
  simp only [Bool.and_eq_true] at h
  cases hr : exec x.instr (firstOf g) with
  | next r =>
    rw [hr] at h
    simp only [Bool.and_eq_true, decide_eq_true_eq] at h
    obtain ⟨q, hq, hQ⟩ := reaches (Q := Q) hy (by simp only [Bool.and_eq_true]; exact h.2.2)
    exact ⟨r, q, ⟨x, hx, .inl ⟨h.1, hr⟩⟩, h.2.1, hq, hQ⟩
  | fault e => rw [hr] at h; simp at h
  | refused e => rw [hr] at h; simp at h

/-- An add of zero and an immediate; the same under p1, which is false; a word whose opcode is none; a load from no address; a
vmul; and pairs of the first and the last, of the load and the vmul, and of the vmul and the load. -/
def wordMov : Nat := 0x0100153839FF000000040000
def wordLd : IWord := (encode ⟨false, 0, .ld .i64 .rne false .dev .rlx (.w 1) ⟨.w 1, -8⟩ none⟩).getD 0
def wordMul : IWord := 0x4200444142FF000000000000
def stepMov : State := State.reset.withFetchWord 96 wordMov
def stepPred : State := State.reset.withFetchWord 96 (wordMov + 2 ^ 80)
def stepBad : State := State.reset.withFetchWord 96 0
def stepTwo (a b lw : Nat) : State :=
  { stepMov with mem := stepMov.mem.put 0 (leBytes a 12 ++ leBytes b 12 ++ List.replicate 36 0 ++ leBytes lw 4) }
def stepPair : State := stepTwo wordMov wordMul.toNat 0x60
def stepFirst : State := stepTwo wordLd.toNat wordMul.toNat 0x61
def stepSecond : State := stepTwo wordMul.toNat wordLd.toNat 0x62
/-- The same at a PC of no page. -/
def stepFar : State := { stepMov with th := { stepMov.th with pc := 0x5000000000 } }

/-- A single runs; one whose predicate is false retires; a word without an instruction traps, and so does a PC that cannot be fetched; a pair
retires, and traps at its first and at its second member. -/
theorem witness_StepRunsDecoded :
    Turn stepMov 0 0 ⟨0, 0, 0⟩ (clkG stepMov) ∧
    (∃ w x, (clkG stepMov).fetch = .ok (w, none) ∧ decode w = .ok x ∧ xor ((started (clkG stepMov)).pred x.pr) x.pn = true ∧
      ∃ u, exec x.instr (started (clkG stepMov)) = .next u ∧ u.isBlocked = false) ∧
    Turn stepPred 0 0 ⟨0, 0, 0⟩ (clkG stepPred) ∧
    (∃ w x, (clkG stepPred).fetch = .ok (w, none) ∧ decode w = .ok x ∧ xor ((started (clkG stepPred)).pred x.pr) x.pn = false) ∧
    Turn stepBad 0 0 ⟨0, 0, 0⟩ (clkG stepBad) ∧ (∃ w e, (clkG stepBad).fetch = .ok (w, none) ∧ decode w = .error e) ∧
    Turn stepFar 0 0 ⟨0, 0, 0⟩ (clkG stepFar) ∧ (∃ e, (clkG stepFar).fetch = .error e ∧ ((clkG stepFar).stopped e).isBlocked = false) ∧
    Turn stepPair 0 0 ⟨0, 0, 0⟩ (clkG stepPair) ∧ (clkG stepPair).fetch = .ok (BitVec.ofNat 96 wordMov, some wordMul) ∧
    (∃ r q, Reaches (BitVec.ofNat 96 wordMov) (firstOf (clkG stepPair)) r ∧ r.iss.res = .done ∧ Reaches wordMul (secondOf (clkG stepPair) r) q ∧
      (q.iss.res = .done ∧ q.retire.isBlocked = false)) ∧
    Turn stepFirst 0 0 ⟨0, 0, 0⟩ (clkG stepFirst) ∧ (clkG stepFirst).fetch = .ok (wordLd, some wordMul) ∧
    (∃ r, Reaches wordLd (firstOf (clkG stepFirst)) r ∧
      (r.iss.res = .stop (.trap 2 (-8)) ∧ (pairTrap (clkG stepFirst) 2 (-8) false).isBlocked = false)) ∧
    Turn stepSecond 0 0 ⟨0, 0, 0⟩ (clkG stepSecond) ∧ (clkG stepSecond).fetch = .ok (wordMul, some wordLd) ∧
    ∃ r q, Reaches wordMul (firstOf (clkG stepSecond)) r ∧ r.iss.res = .done ∧ Reaches wordLd (secondOf (clkG stepSecond) r) q ∧
      (q.iss.res = .stop (.trap 2 (-8)) ∧ (pairTrap (clkG stepSecond) 2 (-8) true).isBlocked = false) := by
  have mov : decode (BitVec.ofNat 96 wordMov) = .ok ⟨false, 0, .add .i64 false (.w 21) (.reg .zero) (.imm 0x40000)⟩ := ok (by decide +kernel)
  have mul : decode wordMul = .ok ⟨false, 0, .vmul .i64 .rne false (.v 4) (.v 1) (.v 2) none⟩ := ok (by decide +kernel)
  have ld : decode wordLd = .ok ⟨false, 0, .ld .i64 .rne false .dev .rlx (.w 1) ⟨.w 1, -8⟩ none⟩ := ok (by decide +kernel)
  refine ⟨turn rfl (by decide +kernel), ⟨BitVec.ofNat 96 wordMov, _, ok (by decide +kernel), mov, by decide +kernel, goes (by decide +kernel)⟩,
    turn rfl (by decide +kernel), ⟨BitVec.ofNat 96 (wordMov + 2 ^ 80), ⟨false, 1, .add .i64 false (.w 21) (.reg .zero) (.imm 0x40000)⟩,
      ok (by decide +kernel), ok (by decide +kernel), by decide +kernel⟩,
    turn rfl (by decide +kernel), ⟨0, .opcode 0, ok (by decide +kernel), rfl⟩,
    turn rfl (by decide +kernel), ⟨.trap 1 0x5000000000, ?_, by decide +kernel⟩,
    turn rfl (by decide +kernel), ok (by decide +kernel), both mov mul (by decide +kernel),
    turn rfl (by decide +kernel), ok (by decide +kernel), reaches ld (by decide +kernel),
    turn rfl (by decide +kernel), ok (by decide +kernel), both mul ld (by decide +kernel)⟩
  cases h : (clkG stepFar).fetch with
  | ok a =>
    have : (clkG stepFar).fetch.toOption.isSome = false := by decide +kernel
    rw [h] at this
    simp [Except.toOption] at this
  | error e =>
    have : (match (clkG stepFar).fetch with | .error e => decide (e = .trap 1 0x5000000000) | _ => false) = true := by decide +kernel
    rw [h] at this
    simp only [decide_eq_true_eq] at this
    rw [this]

/-- In task mode with and without a handler, and in handler mode. -/
theorem witness_TrapEntry :
    rig.th.eddy = none ∧ rig.th.handler = false ∧ rig.th.tvec = 0 ∧
    (let s : State := { rig with th := { rig.th with tvec := 0x20000 } }
     s.th.eddy = none ∧ s.th.handler = false ∧ s.th.tvec ≠ 0) ∧
    (let s : State := { rig with th := { rig.th with handler := true } }
     s.th.eddy = none ∧ s.th.handler = true) ∧
    (∃ x ∈ (rig.endTask 0x40 1 2).cx.tasks, x.num = rig.th.task) ∧ rig.cx.failTask = 0xFFFF := by
  refine ⟨by decide, by decide, by decide, by decide, by decide, ⟨_, .head _, by decide +kernel⟩, by decide⟩

/-- An instruction with its fields at their top; a word that decodes, and an instruction of a word format. -/
theorem witness_RoundTrip :
    (let s : Slot := ⟨true, 7, .sel true (.w 31) (.reg (.g 7)) (.imm 0xFFFFFFFF) 7⟩
     s.instr.wf = true ∧ (encode s).isSome = true) := by decide +kernel

theorem witness_WordsAreCanonical :
    (decode 0x2120B90939FF000000000008#96).toOption.isSome = true ∧
    (let s : Slot := ⟨false, 0, .nop⟩
     s.instr.wf = true ∧ (encRaw s.instr).isSome = true) := by decide +kernel

/-- The rig lists its memory in its form, and its step answers. -/
theorem witness_MemoryForm : rig.memWf ∧ ∃ t, step rig = .next t := by
  refine ⟨by unfold State.memWf; decide +kernel, ?_⟩
  obtain ⟨u, hu, -⟩ := goes (o := step rig) (by decide +kernel)
  exact ⟨u, hu⟩

/-- Instructions of the frames answer, and a store's elements have addresses. -/
theorem witness_ScalarFrame : ∃ t, exec (.add .i64 false (.w 1) (.reg (.w 2)) (.imm 3)) rig = .next t := by
  obtain ⟨u, hu, -⟩ := goes (o := exec (.add .i64 false (.w 1) (.reg (.w 2)) (.imm 3)) rig) (by decide +kernel)
  exact ⟨u, hu⟩

theorem witness_VectorFrame : ∃ t, exec (.vadd .f .rne false (.v 1) (.v 2) (.v 3) none) rig = .next t := by
  obtain ⟨u, hu, -⟩ := goes (o := exec (.vadd .f .rne false (.v 1) (.v 2) (.v 3) none) rig) (by decide +kernel)
  exact ⟨u, hu⟩

theorem witness_StoreFrame :
    let s := rigW [(1, 0x1FFF8)]
    (∃ t, exec (.st .i64 .rne false .dev .rlx ⟨.w 1, 0⟩ none (.w 2)) s = .next t) ∧
    ((s.joinAll [(SReg.w 1).spec, (SReg.w 2).spec]).elem .i64 ((s.joinAll [(SReg.w 1).spec, (SReg.w 2).spec]).ea ⟨.w 1, 0⟩)
      ((s.joinAll [(SReg.w 1).spec, (SReg.w 2).spec]).index none) true).toOption.isSome = true := by
  intro s
  obtain ⟨w, hw, -⟩ := goes (o := exec (.st .i64 .rne false .dev .rlx ⟨.w 1, 0⟩ none (.w 2)) (rigW [(1, 0x1FFF8)])) (by decide +kernel)
  exact ⟨⟨w, hw⟩, by decide +kernel⟩

end Sys2Proof.Tests
end

/-! ## Every step goes on (R45, R85) -/

namespace Sys2Proof.Machine
open Sys2Proof

/-- The outcome is a next state: neither a fault nor a refusal. -/
def IsNext (o : Out1) : Prop := ∃ t, o = .next t

theorem isNext_next (s : State) : IsNext (.next s) := ⟨s, rfl⟩

theorem State.finish_isNext (s : State) (r : Except Stop State) : IsNext (s.finish r) := s.finish_next r

theorem Out1.andThen_isNext {o : Out1} {f : State → Out1} (ho : IsNext o) (hf : ∀ t, IsNext (f t)) : IsNext (Out1.andThen o f) := by
  obtain ⟨t, rfl⟩ := ho
  exact hf t

/-! ### Meanings -/

theorem execPmov_isNext (neg : Bool) (o : PmovOp) (s : State) : IsNext (execPmov neg o s) := by
  cases o with
  | pp d a => exact State.finish_isNext ..
  | ps d a => exact State.finish_isNext ..
  | sp d a => exact State.finish_isNext ..

theorem State.tretOr_isNext (s : State) (r : Except Stop State) : IsNext (s.tretOr r) := by
  cases r with
  | error e => exact State.finish_isNext ..
  | ok t =>
    simp only [State.tretOr]
    split
    · exact State.finish_isNext ..
    · exact isNext_next _

theorem execTrap_isNext (a : SSrc) (s : State) : IsNext (execTrap a s) := by
  unfold execTrap
  split
  · exact isNext_next _
  · exact State.finish_isNext ..

theorem execFunctionLevelReset_isNext (func : Nat) (s : State) : IsNext (execFunctionLevelReset func s) := by
  unfold execFunctionLevelReset
  split
  · exact isNext_next _
  · split <;> exact isNext_next _

/-- Every constructor has a meaning that answers: an event gives the next state outright, and an instruction ends in `State.finish`, or in
the return or the trap that it is. -/
theorem exec_isNext (i : Instr) (s : State) : IsNext (exec i s) := by
  cases i with
  | pmov neg o => exact execPmov_isNext neg o s
  | tret => exact State.tretOr_isNext ..
  | dstep => exact State.tretOr_isNext ..
  | trap a => exact execTrap_isNext a s
  | functionLevelReset func => exact execFunctionLevelReset_isNext func s
  | heatNoticeInterrupt | warrantEventInterrupt | copyExecution | copyCompletion | ringCopySlotClaim | matrixCommandExecution | matrixStep |
  matrixCommandCompletion | laneBlockTransfer | burstDelivery | eddyBirth | lastBurstEvent | combiningGroupClose | multicast | message |
  refuse | mailboxDelivery | readReq | writeReq | atomicReq | probeReq | echoReq | dataReq | ackReq | linkWord | barrierArrival |
  barrierRelease | gangForward | windowUpdate | walkCompletion | retryLatchReissue | storageReadCompletion | storageEviction | storageLost |
  swapOut | preemptionDeadline | taskCompletion | coreGoesDark | launchEnd | taskPlacement | contextEnd | retirement | boundUnproved |
  present | timeNonce | timeNote | receiptNonce | receiptRequest | graphStatus | slotBindingLapse | receiptNonceExpiry | commitNote |
  commitAcknowledgement | commitTimeout | releaseNote | warrantOperationCompletion | bindStart | bindResume | bindUnbind | bindRecordApply |
  registerWrite | pwake | sensorReading | heatAction | drift | modulePowerSense | coldPlateAlarm | rowVoltageReached | ratioChange | wake |
  switchOnComplete | holdExpiry | leeBankRetention | wakeWrite | queueBind | queueUnmap | lookAhead | launch | map | unmap | callPacket |
  join | signal | packetCompletion | atsTranslationResponse | prgResponse | pageRequestTimeout | invalidateRequest | tdiLeavesRun |
  conventionalReset | spdmMeasurements | putPlacement | sendPlacement | getService | networkAcknowledgement | packetLoss | collectivePartial
  | networkCommandCompletion | frame | rekey | claim | electionClose | handover | handoverTimeout | sessionTimeout | release | keyLoad |
  keyUnload | ownerSet | config | drive | fwLoad | fwCommit | capture | captureRead | replay | status | powerGood | moduleReset |
  storageWriteCompletion | rotationPeriod | tdispRequest | ideKmMessage | spdmSession | presentationSlotWrite | replayInput => exact isNext_next _
  | _ => exact State.finish_isNext ..

/-! ### Issue -/

theorem State.member_isNext (w : IWord) (s : State) : IsNext (s.member w) := by
  unfold State.member
  split
  · exact State.finish_isNext ..
  · split
    · exact exec_isNext ..
    · exact State.finish_isNext ..

theorem State.members_isNext (w1 w2 : IWord) (stop : Stop → Bool → State) (fin : State → State) (s : State) :
    IsNext (s.members w1 w2 stop fin) := by
  refine Out1.andThen_isNext (State.member_isNext ..) fun r => ?_
  dsimp only
  split
  · exact isNext_next _
  · refine Out1.andThen_isNext (State.member_isNext ..) fun q => ?_
    split <;> exact isNext_next _
  · refine Out1.andThen_isNext (State.member_isNext ..) fun q => ?_
    split
    · exact isNext_next _
    · exact Out1.andThen_isNext (State.member_isNext ..) fun p => isNext_next _
    · exact isNext_next _

theorem State.issueForwarded_isNext (leader : TKey) (w : IWord) (w2 : Option IWord) (rest : List (IWord × Option IWord)) (s : State) :
    IsNext (s.issueForwarded leader w w2 rest) := by
  unfold State.issueForwarded
  dsimp only
  split
  · exact Out1.andThen_isNext (State.member_isNext ..) fun r => isNext_next _
  · exact State.members_isNext ..

theorem State.issue_isNext (s : State) : IsNext s.issue := by
  unfold State.issue
  dsimp only
  split
  · exact State.issueForwarded_isNext ..
  · split
    · exact State.finish_isNext ..
    · split
      · exact State.finish_isNext ..
      · refine Out1.andThen_isNext ?_ fun t => isNext_next _
        split
        · exact State.member_isNext ..
        · exact State.members_isNext ..

/-- The search for the unit that issues: where no candidate issues, the clk passes. -/
theorem State.tryIssue_isNext (l : List TKey) (s : State) : IsNext (s.tryIssue l) := by
  induction l generalizing s with
  | nil => exact isNext_next _
  | cons k l ih =>
    unfold State.tryIssue
    split
    · exact ih s
    · dsimp only
      split
      · split
        · exact Out1.andThen_isNext (State.issue_isNext _) fun r => isNext_next _
        · exact isNext_next _
      · split
        · exact ih s
        · refine Out1.andThen_isNext (State.issue_isNext _) fun r => ?_
          split
          · exact ih _
          · split
            · exact ih s
            · exact isNext_next _

theorem State.coreClk_isNext (c : Nat) (s : State) : IsNext (s.coreClk c) := by
  unfold State.coreClk
  dsimp only
  split
  · exact isNext_next _
  · exact Out1.andThen_isNext (State.tryIssue_isNext ..) fun t => isNext_next _

/-! ### Moves -/

theorem State.runMove_isNext (m : Move) (s : State) : IsNext (s.runMove m) := by
  cases m with
  | ev i =>
    simp only [State.runMove]
    split
    · exact exec_isNext i s
    · exact isNext_next s
  | clk c => exact State.coreClk_isNext c s
  | wake | tick | err | evict | evictNode | nvme | hostRead | regRead => exact isNext_next _

theorem State.autoMove_isNext (s : State) : IsNext s.autoMove := by
  unfold State.autoMove
  dsimp only
  split
  · exact State.coreClk_isNext ..
  · split
    · exact isNext_next _
    · exact State.coreClk_isNext ..

/-- Settles O57: every meaning answers, so every issue, every clk and every move does. -/
theorem everyStepGoesOn : Obligations.EveryStepGoesOn := by
  intro s
  show IsNext (step s)
  unfold step
  split
  · exact State.runMove_isNext ..
  · exact State.autoMove_isNext s

end Sys2Proof.Machine

/-! ## System registers (R46, R47, R277) -/

namespace Sys2Proof.Machine
open Sys2Proof Sys2Proof.Ob

/-! ### How a system instruction begins -/

theorem State.beginSys_ok {s : State} {op : Nat} {ds ss : List (BitVec 8)} (h : Ready ds ss s) (he : s.th.eddy = none) :
    s.beginSys op none ds ss = .ok (s.joined (ds ++ ss)) := by
  obtain ⟨-, hp, hs⟩ := h
  simp only [State.beginSys, hp, State.noEddy_ok he, State.begin_ok hp hs]
  rfl

theorem State.beginSys_eddy {s : State} {op : Nat} {mode : Option Bool} {ds ss : List (BitVec 8)}
    (hp : s.present (ds.map (fun d => (true, d)) ++ ss.map fun a => (false, a)) = .ok ()) (he : s.th.eddy ≠ none) :
    s.beginSys op mode ds ss = trap 0x23 op := by
  simp only [State.beginSys, hp, State.noEddy, Option.isSome_iff_ne_none.mpr he]
  rfl

/-- A system instruction of either mode whose meaning succeeds retires. -/
theorem State.finish_beginSys_ok {s u : State} {op : Nat} {ds ss : List (BitVec 8)} {f : State → Except Stop State} (h : Ready ds ss s)
    (he : s.th.eddy = none) (hf : f (s.joined (ds ++ ss)) = .ok u) (hi : u.iss = s.iss) :
    s.finish (s.beginSys op none ds ss >>= f) = .next u.retire := by
  rw [State.beginSys_ok h he]
  exact (congrArg s.finish hf).trans (State.finish_ok h.1.1 (hi ▸ h.1.2))

/-- One whose meaning stops, stops before any effect. -/
theorem State.finish_beginSys_stop {s : State} {op : Nat} {ds ss : List (BitVec 8)} {f : State → Except Stop State} {e : Stop}
    (h : Ready ds ss s) (he : s.th.eddy = none) (hf : f (s.joined (ds ++ ss)) = .error e) :
    s.finish (s.beginSys op none ds ss >>= f) = .next (s.stopped e) := by
  rw [State.beginSys_ok h he]
  exact (congrArg s.finish hf).trans (State.finish_stop h.1.1 e)

/-- One that an eddy issues is the eddy-forbidden trap. -/
theorem State.finish_beginSys_eddy {s : State} {op : Nat} {mode : Option Bool} {ds ss : List (BitVec 8)} {f : State → Except Stop State}
    (hs : Fresh s) (hp : s.present (ds.map (fun d => (true, d)) ++ ss.map fun a => (false, a)) = .ok ()) (he : s.th.eddy ≠ none) :
    s.finish (s.beginSys op mode ds ss >>= f) = .next (s.stopped (.trap 0x23 (BitVec.ofNat 64 op))) := by
  rw [State.beginSys_eddy hp he]
  exact State.finish_stop hs.1 _

/-! ### Reading -/

/-- A number that Table 1-4 does not list names no register. -/
theorem State.sysReg_unlisted (s : State) {n : Nat} (ht : n ∉ taskWrites) (hh : n ∉ handlerWrites)
    (hr : n ∉ [0x30, 0x31, 0x40, 0x41, 0x42, 0x50]) : s.sysReg n = none := by
  simp only [taskWrites, handlerWrites, List.mem_cons, List.not_mem_nil, or_false, not_or] at ht hh hr
  unfold State.sysReg
  split <;> simp_all

theorem bit_getLsbD (b : Bool) {k i : Nat} (hk : k < 64) : (bit b k).getLsbD i = (b && decide (i = k)) := by
  unfold bit
  cases b
  · simp
  · simp only [↓reduceIte, Bool.true_and, BitVec.getLsbD_shiftLeft, BitVec.getLsbD_one]
    by_cases h : i = k <;> simp [h] <;> omega

/-- Bit i of tstat, of the six it has (Table 8-3). -/
theorem State.tstat_getLsbD (s : State) (i : Nat) : s.tstat.getLsbD i =
    ((s.th.tpair && decide (i = 0)) || (s.th.tmem && decide (i = 1)) || (s.th.handler && decide (i = 2)) || (s.th.tstep && decide (i = 3)) ||
      (s.bd.irq.isSome && decide (i = 4)) || (!s.th.irqs.isEmpty && decide (i = 5))) := by
  simp only [State.tstat, BitVec.getLsbD_or, bit_getLsbD _ (show 0 < 64 by decide), bit_getLsbD _ (show 1 < 64 by decide),
    bit_getLsbD _ (show 2 < 64 by decide), bit_getLsbD _ (show 3 < 64 by decide), bit_getLsbD _ (show 4 < 64 by decide),
    bit_getLsbD _ (show 5 < 64 by decide)]

theorem State.tstat_lt (s : State) : s.tstat.toNat < 64 := by
  refine Nat.lt_pow_two_of_testBit (n := 6) _ fun i hi => ?_
  rw [BitVec.testBit_toNat, State.tstat_getLsbD]
  simp [show ¬ i = 0 by omega, show ¬ i = 1 by omega, show ¬ i = 2 by omega, show ¬ i = 3 by omega, show ¬ i = 4 by omega,
    show ¬ i = 5 by omega]

theorem State.sysReg_heat (s : State) : s.sysReg 0x42 = some (match s.bd.heat with | .still => 0 | .breeze => 1 | .gale => 2) := by
  show some (BitVec.ofNat 64 (heatCode s.bd.heat)) = _
  cases s.bd.heat <;> rfl

theorem systemReads : SystemReads := by
  intro d a
  refine ⟨fun v s h he hv => ?_, fun s h he hv => ?_, fun s hs _ hp he => ?_, fun s => ?_⟩
  · exact State.finish_beginSys_ok h he (by simp only [hv]) (State.joined_iss ..)
  · exact State.finish_beginSys_stop h he (by simp only [hv]; rfl)
  · exact State.finish_beginSys_eddy hs hp he
  · exact ⟨rfl, rfl, rfl, rfl, rfl, rfl, rfl, rfl, rfl, rfl, rfl, rfl, rfl, rfl, rfl, rfl, rfl, rfl, s.sysReg_heat, rfl,
      fun n => s.sysReg_unlisted, s.tstat_getLsbD 0 |>.trans (by simp), s.tstat_getLsbD 1 |>.trans (by simp), s.tstat_getLsbD 2 |>.trans (by simp),
      s.tstat_getLsbD 3 |>.trans (by simp), s.tstat_getLsbD 4 |>.trans (by simp), s.tstat_getLsbD 5 |>.trans (by simp), s.tstat_lt⟩

/-! ### Writing -/

/-- The numbers that Table 1-4 lets a mode write. -/
theorem sysRw_iff (n : Nat) (handler : Bool) : sysRw n handler = true ↔ n ∈ taskWrites ∨ handler = true ∧ n ∈ handlerWrites := by
  simp only [sysRw, taskWrites, handlerWrites, Bool.or_eq_true, Bool.and_eq_true, List.contains_iff_mem]

theorem lands_iff (s : State) (pc : Word) : Lands s pc ↔ (s.checkTarget pc).isOk = true := by
  unfold Lands
  cases s.checkTarget pc with
  | error e => simp [Except.isOk, Except.toBool]
  | ok u => simp [Except.isOk, Except.toBool]

/-- What sysw does on the state in which its operands are joined. -/
def syswAt (a b : SSrc) (j : State) : Except Stop State :=
  if !(sysRw (j.n64 a).toNat j.th.handler) then trapW 0x17 (j.n64 a)
  else if (j.n64 a).toNat = 0x004 && !(j.checkTarget (j.n64 b)).isOk then trap 0x17 4
  else match j.th.setSys (j.n64 a).toNat (j.n64 b) with
    | some t => .ok { j with th := t }
    | none => trapW 0x17 (j.n64 a)

theorem exec_sysw (a b : SSrc) (s : State) :
    exec (.sysw a b) s = s.finish (s.beginSys 0xC1 none [] [a.spec, b.spec] >>= syswAt a b) := rfl

section
variable {a b : SSrc} {j : State}

theorem syswAt_forbidden (h : sysRw (j.n64 a).toNat j.th.handler = false) : syswAt a b j = trapW 0x17 (j.n64 a) := by
  simp [syswAt, h]

theorem syswAt_noTarget (hn : (j.n64 a).toNat = 4) (hl : ¬ Lands j (j.n64 b)) : syswAt a b j = trap 0x17 4 := by
  have hw : sysRw 4 j.th.handler = true := (sysRw_iff ..).2 (.inl (by decide))
  rw [lands_iff, Bool.not_eq_true] at hl
  simp [syswAt, hn, hw, hl]

/-- A register that the mode may write takes what its range admits; tvec takes a legal target alone. -/
theorem syswAt_writable (hw : sysRw (j.n64 a).toNat j.th.handler = true) (hl : (j.n64 a).toNat = 4 → Lands j (j.n64 b)) :
    syswAt a b j = match j.th.setSys (j.n64 a).toNat (j.n64 b) with
      | some t => .ok { j with th := t }
      | none => trapW 0x17 (j.n64 a) := by
  have hc : ((j.n64 a).toNat = 4 && !(j.checkTarget (j.n64 b)).isOk) = false := by
    by_cases hn : (j.n64 a).toNat = 4
    · simp [(lands_iff ..).1 (hl hn)]
    · simp [hn]
  exact (if_neg (by simp [hw])).trans (if_neg (by simp [hc]))

end

theorem systemWrites : SystemWrites := by
  intro a b num may
  refine ⟨fun t s h he ⟨hm, hl, ht⟩ => ?_, fun s h he hm => ?_, fun s h he ⟨hn, hl⟩ => ?_, fun s h he ⟨hm, hn, ht⟩ => ?_,
    fun s hs _ hp he => State.finish_beginSys_eddy hs hp he, fun t v => ?_⟩
  · rw [exec_sysw]
    exact State.finish_beginSys_ok h he (by rw [syswAt_writable ((sysRw_iff ..).2 hm) hl, ht]) (State.joined_iss ..)
  · rw [exec_sysw]
    exact State.finish_beginSys_stop h he (syswAt_forbidden (Bool.eq_false_iff.2 fun hw => hm ((sysRw_iff ..).1 hw)))
  · rw [exec_sysw]
    exact State.finish_beginSys_stop h he (syswAt_noTarget hn hl)
  · rw [exec_sysw]
    exact State.finish_beginSys_stop h he (by rw [syswAt_writable ((sysRw_iff ..).2 hm) fun h4 => absurd h4 hn, ht]; rfl)
  · exact ⟨rfl, rfl, rfl, rfl, rfl, rfl, rfl, rfl, rfl, rfl, rfl, rfl, rfl, rfl⟩

/-- Settles O32, instruction by instruction. -/
theorem systemRegisters : Obligations.SystemRegisters := ⟨systemReads, systemWrites⟩

end Sys2Proof.Machine

/-! ## Tasks, launches and contexts as they begin and end (R23, R57 to R59, R288, R297, R364, R369, R370, R378, R379, R389, R393, R401) -/

namespace Sys2Proof.Machine
open Sys2Proof Sys2Proof.Ob

/-! ### The conditions of the events, as the rules state them -/

theorem State.mayPark_iff (s : State) (x : Context) : s.mayPark x = true ↔
    (x.cls ≠ 0 ∨ s.bound x.kslot = none) ∧ ¬ (x.cls = 1 ∧ (s.bound x.kslot).isSome = true ∧
      ∃ y ∈ s.contexts, y.cls = 2 ∧ ∃ u ∈ y.tasks, u.st.onCores = true) := by
  rw [State.mayPark, Bool.and_eq_true, Bool.not_eq_true', ← Bool.not_eq_true]
  exact and_congr (by simp) (not_congr (by simp [and_assoc]))

theorem State.coreOver_iff (s : State) (c ctx task : Nat) : s.coreOver c ctx task = true ↔ CoreOver s c ctx task := by
  unfold State.coreOver CoreOver
  cases s.bind? c ctx with
  | none => simp
  | some b => simp [and_assoc]

theorem State.coreReady_iff {s : State} {c ctx : Nat} {b : Bind} (h : s.bind? c ctx = some b) : s.coreReady c ctx = true ↔
    s.coreStill c ctx = true ∧ (∀ t ∈ s.threadsAt c ctx, t.probe = some 0) ∧ copiesRest b.copies = true ∧ s.engStands c ctx = true := by
  simp [State.coreReady, h, and_assoc]

theorem Context.launchOver_iff (x : Context) : x.launchOver = true ↔
    x.running = true ∧ ∀ t ∈ x.tasks, t.st.onCores = false ∧ t.st ≠ .saved ∧ x.canStart t = false := by
  simp [Context.launchOver, and_assoc]

theorem State.idleCx_iff (s : State) (ctx : Nat) : s.idleCx ctx = true ↔
    (∀ t ∈ s.threads, t.ctx ≠ ctx) ∧ (∀ b ∈ s.binds, b.ctx ≠ ctx) ∧ (∀ p ∈ s.pends, p.rec_[0].toNat / 256 % 128 ≠ ctx) ∧
    (∀ r ∈ s.reqs, r.ctx ≠ ctx) ∧ (∀ n ∈ s.nets, n.ctx ≠ ctx) ∧ (∀ w ∈ s.wops, w.key.ctx ≠ ctx) ∧
    (∀ q ∈ s.queues, q.ctx = ctx → q.busy = none) ∧ (∀ o ∈ s.sops, o.ctx = ctx → o.kind ≠ .write) := by
  simp [State.idleCx, and_assoc]

/-! ### Swap-out (R57, R288, R290, R378, R393) -/

section
variable {ctx task : Nat} {x : Context} {t : Task} {s : State}

theorem State.swapAt_placed (hx : s.cx? ctx = some x) (ht : x.task? task = some t) (hp : t.st = .placed) :
    s.swapAt ctx task = if s.mayPark x then s.updCx ctx fun x => x.updTask task (Task.ask s.iod) else s := by
  simp only [State.swapAt, hx, ht, hp]

theorem State.swapAt_saving (hx : s.cx? ctx = some x) (ht : x.task? task = some t) (hp : t.st = .saving) :
    s.swapAt ctx task = s.saveTask ctx t := by
  simp only [State.swapAt, hx, ht, hp]

theorem State.swapAt_offCores (hx : s.cx? ctx = some x) (ht : x.task? task = some t) (h1 : t.st ≠ .placed) (h2 : t.st ≠ .saving) :
    s.swapAt ctx task = s := by
  cases hp : t.st with
  | placed => exact absurd hp h1
  | saving => exact absurd hp h2
  | waiting | saved | done _ => simp only [State.swapAt, hx, ht, hp]

theorem Task.ask_placed (h : t.st = .placed) (now : Nat) : t.ask now = { t with st := .saving, asked := now } := by
  simp [Task.ask, h]

/-- A save first takes the task's cores out of the groups their copies stand in. -/
def State.leftGroups (ctx : Nat) (t : Task) (s : State) : State :=
  t.coreList.foldl (fun s c => if (s.bind? c ctx).isSome then s.leaveGroups c ctx else s) s

/-- What a save writes of the state u in which the hints are left, once every core is ready. -/
def State.savedAfter (ctx : Nat) (t : Task) (s u : State) : State :=
  let hints (c : Nat) : List (Option (List Byte)) := (s.threadsAt c ctx).map Thread.hint?
  let parts := t.coreList.filterMap fun c => (u.bind? c ctx).map fun b => u.saveCore c ctx b (hints c)
  let held (x : Context) : Context := t.coreList.foldl (fun x c => (u.threadsAt c ctx).foldl (fun x v => x.mailHeld v) x) x
  t.coreList.foldl (fun s c => s.unbindCore c ctx) (u.updCx ctx fun x =>
    { (held x).updTask t.num fun k => { k with st := .saved, deadline := false, outAt := s.iod } with saved := x.saved ++ parts })

theorem swappedOut_eq (ctx : Nat) (t : Task) (s : State) : swappedOut ctx t s =
    s.savedAfter ctx t ((t.coreList.flatMap fun c => (s.threadsAt c ctx).map (·.key)).foldl (fun s k => s.leaveHint k) s) := rfl

/-- Leaving the hints of threads listed with what their hints name is leaving those of the threads. -/
theorem State.foldl_leaveHint (ts : Nat → List Thread) (l : List Nat) (s : State) :
    (l.map fun c => (ts c).map fun u => (u.key, u.hint?)).flatten.foldl (fun s (p : TKey × Option (List Byte)) => s.leaveHint p.1) s =
      (l.flatMap fun c => (ts c).map (·.key)).foldl (fun s k => s.leaveHint k) s := by
  have : (l.flatMap fun c => (ts c).map (·.key)) = (l.map fun c => (ts c).map fun u => (u.key, u.hint?)).flatten.map Prod.fst := by
    simp [List.map_flatten, List.flatMap, Function.comp_def]
  rw [this, List.foldl_map]

theorem State.saveTask_ready (h : ∀ c ∈ t.coreList, (s.leftGroups ctx t).coreReady c ctx = true) :
    s.saveTask ctx t = swappedOut ctx t (s.leftGroups ctx t) := by
  rw [swappedOut_eq, ← State.foldl_leaveHint]
  exact if_pos (List.all_eq_true.2 h)

theorem State.saveTask_still (h : ∃ c ∈ t.coreList, (s.leftGroups ctx t).coreReady c ctx = false)
    (hs : ∀ c ∈ t.coreList, (s.leftGroups ctx t).coreStill c ctx = true) :
    s.saveTask ctx t = t.coreList.foldl (fun s c => s.saveFence c ctx) (s.leftGroups ctx t) := by
  have hr : ¬ ∀ c ∈ t.coreList, (s.leftGroups ctx t).coreReady c ctx = true := by simpa using h
  exact (if_neg (mt List.all_eq_true.1 hr)).trans (if_pos (List.all_eq_true.2 hs))

theorem State.saveTask_moving (h : ∃ c ∈ t.coreList, (s.leftGroups ctx t).coreReady c ctx = false)
    (hs : ∃ c ∈ t.coreList, (s.leftGroups ctx t).coreStill c ctx = false) : s.saveTask ctx t = s.leftGroups ctx t := by
  have hr : ¬ ∀ c ∈ t.coreList, (s.leftGroups ctx t).coreReady c ctx = true := by simpa using h
  have hn : ¬ ∀ c ∈ t.coreList, (s.leftGroups ctx t).coreStill c ctx = true := by simpa using hs
  exact (if_neg (mt List.all_eq_true.1 hr)).trans (if_neg (mt List.all_eq_true.1 hn))

/-! ### Completion and darkness (R23, R159, R401) -/

theorem State.taskOver_over (hx : s.cx? ctx = some x) (ht : x.task? task = some t) (hc : t.st.onCores = true)
    (ho : ∀ c ∈ t.coreList, CoreOver s c ctx task) : s.taskOver ctx task =
      s.updCx ctx fun x => (x.updTask task fun k => { k with st := .done 0 }).mailDrop fun m => !m.held && dstTask m.dst = task := by
  have : ∀ c ∈ t.coreList, s.coreOver c ctx task = true := fun c h => (State.coreOver_iff ..).2 (ho c h)
  simp only [State.taskOver, hx, Option.bind_some, ht, hc, List.all_eq_true.2 this, Bool.and_self, if_true]

theorem State.taskOver_not (hx : s.cx? ctx = some x) (ht : x.task? task = some t)
    (h : t.st.onCores = false ∨ ∃ c ∈ t.coreList, ¬ CoreOver s c ctx task) : s.taskOver ctx task = s := by
  have : (t.st.onCores && t.coreList.all fun c => s.coreOver c ctx task) = false :=
    Bool.and_eq_false_iff.2 (h.imp_right fun ⟨c, hc, hn⟩ => List.all_eq_false.2 ⟨c, hc, mt (State.coreOver_iff ..).1 hn⟩)
  simp only [State.taskOver, hx, Option.bind_some, ht, this, Bool.false_eq_true, if_false]

section
variable {core : Nat} {b : Bind}

theorem State.goDark_over (hb : s.bind? core ctx = some b) (hk : s.taskAt core ctx = some t) (hd : b.dark = false) (hw : b.went = false)
    (ho : CoreOver s core ctx b.task) : s.goDark core ctx =
      (s.updCore core fun x => { x.wipe b with banks := Vector.replicate 20 .gated }).updBd core ctx fun b => { b with went := true } := by
  simp only [State.goDark, hb, hk, hd, hw, (State.coreOver_iff ..).2 ho, Bool.not_false, Bool.and_self, if_true]

theorem State.goDark_not (hb : s.bind? core ctx = some b) (hk : s.taskAt core ctx = some t)
    (h : b.dark = true ∨ b.went = true ∨ ¬ CoreOver s core ctx b.task) : s.goDark core ctx = s := by
  have : (!b.dark && !b.went && s.coreOver core ctx b.task) = false := by
    rcases h with h | h | h
    · simp [h]
    · simp [h]
    · simp [Bool.eq_false_iff.2 (mt (State.coreOver_iff ..).1 h)]
  simp only [State.goDark, hb, hk, this, Bool.false_eq_true, if_false]

end

/-! ### Placement (R386, R389, R395, R510) -/

/-- The cells of a task's rectangle. -/
def Task.cells (t : Task) : List (Nat × Nat) := (List.range t.rows).flatMap fun r => (List.range t.cols).map fun c => (r, c)

/-- The state in which the entries and records of a task's cores are made: the task stands at its place. -/
def State.atPlace (ctx task : Nat) (t : Task) (p : Place) (s : State) : State :=
  s.updCx ctx fun x => { x.updTask task (fun _ => { t.moved p with st := .placed, deadline := false, outAt := 0 }) with parked := false }

/-- Each record that placing added to u passes the checks of R386. -/
def State.Passes (u v : State) : Prop := ∀ e ∈ v.pends.drop u.pends.length,
  State.bindStatus { v with pends := v.pends.filter fun f => f != e } e.core e.rec_ = 0

section
variable {p : Place} {v : State}

/-- A placement that firmware may not make, or that does not fit, changes nothing. -/
theorem State.placeTask_refused (hx : s.cx? ctx = some x) (ht : x.task? task = some t)
    (h : (!(s.mayPlace x t) || !(placeFits p t)) = true) : s.placeTask ctx task p = s := by
  unfold State.placeTask
  rw [hx]
  dsimp only
  rw [ht]
  exact if_pos h

/-- A placement that is allowed and fits stands or falls with its entries and records. -/
theorem State.placeTask_fits (hx : s.cx? ctx = some x) (ht : x.task? task = some t) (hm : s.mayPlace x t = true) (hf : placeFits p t = true) :
    s.placeTask ctx task p = match t.cells.foldlM (State.placeCore x (t.moved p) p) (s.atPlace ctx task t p) with
      | none => s
      | some v =>
        if (v.pends.drop (s.atPlace ctx task t p).pends.length).all fun e =>
          State.bindStatus { v with pends := v.pends.filter fun f => f != e } e.core e.rec_ = 0 then
          t.cells.foldl (fun s rc => s.wakeCore (placePhys p rc.1 rc.2)) (v.setDie p.die { v.die p.die with bstat := 0 })
        else s := by
  unfold State.placeTask
  rw [hx]
  dsimp only
  rw [ht]
  exact if_neg (by simp [hm, hf])

theorem State.placeTask_placed (hx : s.cx? ctx = some x) (ht : x.task? task = some t) (hm : s.mayPlace x t = true) (hf : placeFits p t = true)
    (hv : t.cells.foldlM (State.placeCore x (t.moved p) p) (s.atPlace ctx task t p) = some v) (hp : (s.atPlace ctx task t p).Passes v) :
    s.placeTask ctx task p = t.cells.foldl (fun s rc => s.wakeCore (placePhys p rc.1 rc.2)) (v.setDie p.die { v.die p.die with bstat := 0 }) := by
  rw [State.placeTask_fits hx ht hm hf, hv]
  exact if_pos (List.all_eq_true.2 fun e he => decide_eq_true (hp e he))

theorem State.placeTask_not (hx : s.cx? ctx = some x) (ht : x.task? task = some t)
    (h : s.mayPlace x t = false ∨ placeFits p t = false ∨ t.cells.foldlM (State.placeCore x (t.moved p) p) (s.atPlace ctx task t p) = none ∨
      ∃ v, t.cells.foldlM (State.placeCore x (t.moved p) p) (s.atPlace ctx task t p) = some v ∧ ¬ (s.atPlace ctx task t p).Passes v) :
    s.placeTask ctx task p = s := by
  cases hm : s.mayPlace x t with
  | false => exact State.placeTask_refused hx ht (by rw [hm]; rfl)
  | true =>
    cases hf : placeFits p t with
    | false => exact State.placeTask_refused hx ht (by rw [hm, hf]; rfl)
    | true =>
      rw [State.placeTask_fits hx ht hm hf]
      obtain h | h | h | ⟨v, hv, hp⟩ := h
      · exact nomatch hm.symm.trans h
      · exact nomatch hf.symm.trans h
      · rw [h]
      · rw [hv]
        exact if_neg fun ha => hp fun e he => of_decide_eq_true (List.all_eq_true.1 ha e he)

end

end

/-! ### Rotation (R378, R379, R510) -/

theorem State.rotate_early {s : State} (h : s.iod < s.period + 1000 * s.conf.p) : s.rotate = s := if_pos h

/-- The period that begins: every context's core time is counted anew, and a shared context with work is parked no longer. -/
def State.periodBegins (s : State) : State :=
  let u : State := { s with period := s.iod }
  u.mapCxs fun x => { x with served := 0, parked := x.parked && !(x.cls = 1 && x.running && (u.bound x.kslot).isSome) }

theorem State.rotate_due {s : State} (h : s.period + 1000 * s.conf.p ≤ s.iod) : s.rotate = s.periodBegins.makeRoom := if_neg (Nat.not_lt.2 h)

theorem State.makeRoom_overdue {s : State} (h : ∃ y ∈ s.contexts, ∃ t ∈ y.tasks, s.overdue y t = true) :
    s.makeRoom = s.mapCxs fun x => if x.cls = 2 then { x with tasks := x.tasks.map (Task.ask s.iod) } else x :=
  if_pos (by simpa using h)

theorem State.makeRoom_none {s : State} (h : ∀ y ∈ s.contexts, ∀ t ∈ y.tasks, s.overdue y t = false) : s.makeRoom = s :=
  if_neg (by simpa using h)

/-! ### The events of tasks -/

theorem taskEvents : TaskEvents := by
  refine ⟨fun ctx task x t s hx ht => ⟨fun hp => ⟨fun hm => ⟨?_, Task.ask_placed hp _⟩, fun hm => ?_⟩,
      fun hp => ⟨fun hr => ?_, fun hr hs => ?_, fun hr hs => ?_⟩, fun h1 h2 => ?_, fun c b hb => State.coreReady_iff hb, rfl,
      fun hc ho => ?_, fun hn => ?_, fun p => ⟨fun v hm hf hv hp => ?_, fun hn => ?_⟩⟩,
    fun core ctx b k s hb hk => ⟨fun hd hw ho => ?_, fun hn => ?_⟩, fun s => ⟨fun he => ?_, fun hd => ⟨fun ho => ?_, fun hn => ?_⟩⟩⟩
  all_goals refine congrArg Host.Outcome.next ?_
  · exact (State.swapAt_placed hx ht hp).trans (if_pos ((State.mayPark_iff ..).2 hm))
  · exact (State.swapAt_placed hx ht hp).trans (if_neg (mt (State.mayPark_iff ..).1 hm))
  · exact (State.swapAt_saving hx ht hp).trans (State.saveTask_ready hr)
  · exact (State.swapAt_saving hx ht hp).trans (State.saveTask_still hr hs)
  · exact (State.swapAt_saving hx ht hp).trans (State.saveTask_moving hr hs)
  · exact State.swapAt_offCores hx ht h1 h2
  · exact State.taskOver_over hx ht hc ho
  · exact State.taskOver_not hx ht hn
  · exact State.placeTask_placed hx ht hm hf hv hp
  · exact State.placeTask_not hx ht hn
  · exact State.goDark_over hb hk hd hw ho
  · exact State.goDark_not hb hk hn
  · exact State.rotate_early he
  · exact (State.rotate_due hd).trans (State.makeRoom_overdue ho)
  · exact (State.rotate_due hd).trans (State.makeRoom_none hn)

/-! ### Launches and contexts (R297, R364, R369, R370) -/

section
variable {ctx : Nat} {x : Context} {s : State}

theorem State.launchEndAt_eq (hx : s.cx? ctx = some x) :
    s.launchEndAt ctx = if x.launchOver && !x.prov then (s.atCx ctx).endLaunch x.status else s := by
  simp only [State.launchEndAt, hx]

theorem State.contextEndAt_eq (hx : s.cx? ctx = some x) : s.contextEndAt ctx =
    if ((x.surr && !x.running) || x.retired) && s.idleCx ctx then
      s.endContext ctx (if x.retired then 0x43 else if x.ended = 0 then 0 else x.status)
    else s := by
  simp only [State.contextEndAt, hx]

theorem State.retireAt_unproved (hx : s.cx? ctx = some x) (hn : (s.kslot x.kslot).note = none) : s.retireAt ctx = s := by
  simp only [State.retireAt, hx, hn]

theorem State.retireAt_noted {n : Note} (hx : s.cx? ctx = some x) (hn : (s.kslot x.kslot).note = some n) : s.retireAt ctx =
    if x.prov || x.retired || (n.at s.iod).2.1 < x.na then s else retiredNow ctx x s := by
  unfold State.retireAt
  rw [hx]
  dsimp only
  rw [hn]
  rfl

theorem State.launchEndAt_absent (h : s.cx? ctx = none) : s.launchEndAt ctx = s := by simp only [State.launchEndAt, h]
theorem State.contextEndAt_absent (h : s.cx? ctx = none) : s.contextEndAt ctx = s := by simp only [State.contextEndAt, h]
theorem State.retireAt_absent (h : s.cx? ctx = none) : s.retireAt ctx = s := by simp only [State.retireAt, h]

end

theorem State.unproved_unbound {k : Nat} {s : State} (h : s.bound k = none) : s.unproved k =
    s.mapCxs fun x => if x.kslot = k % 16 then { x with parked := true, tasks := x.tasks.map (Task.ask s.iod) } else x :=
  if_neg (by simp [h])

theorem State.unproved_bound {k : Nat} {s : State} (h : (s.bound k).isSome = true) : s.unproved k = s := if_pos h

theorem contextEvents : ContextEvents := by
  refine ⟨fun ctx x s hx => ⟨fun he hp => ?_, fun hn => ?_, fun hr hi => ?_, fun hr hs hg hi => ?_, fun hn => ?_,
      fun n hn hp hr ha => ?_, fun n hn ho => ?_, fun hn => ?_⟩,
    fun ctx s hx => ⟨?_, ?_, ?_⟩, fun ctx s => State.idleCx_iff s ctx, fun k s => ⟨fun hb => ?_, fun hb => ?_⟩⟩
  all_goals refine congrArg Host.Outcome.next ?_
  · exact (State.launchEndAt_eq hx).trans (if_pos (by simp [(Context.launchOver_iff x).2 he, hp]))
  · refine (State.launchEndAt_eq hx).trans (if_neg ?_)
    rcases hn with hn | hp
    · simp [Bool.eq_false_iff.2 (mt (Context.launchOver_iff x).1 hn)]
    · simp [hp]
  · exact (State.contextEndAt_eq hx).trans (by simp [hr, hi])
  · exact (State.contextEndAt_eq hx).trans (by simp [hr, hs, hg, hi])
  · refine (State.contextEndAt_eq hx).trans (if_neg ?_)
    rcases hn with ⟨hr, hs | hg⟩ | hi
    · simp [hr, hs]
    · simp [hr, hg]
    · simp [hi]
  · exact (State.retireAt_noted hx hn).trans (if_neg (by simp [hp, hr, ha]))
  · exact (State.retireAt_noted hx hn).trans (if_pos (by simpa [or_assoc] using ho))
  · exact State.retireAt_unproved hx hn
  · exact State.launchEndAt_absent hx
  · exact State.contextEndAt_absent hx
  · exact State.retireAt_absent hx
  · exact State.unproved_unbound hb
  · exact State.unproved_bound hb

/-- Settles O42, event by event. -/
theorem lifeEvents : Obligations.LifeEvents := ⟨taskEvents, contextEvents⟩

end Sys2Proof.Machine

/-! ## Reductions and dot products (R127, R176) -/

namespace Sys2Proof.Machine
open Sys2Proof Sys2Proof.Ob

/-- A vector instruction completes as its effect says, when the effect leaves the unit in progress alone. -/
theorem gives_of_vec {i : Instr} {n : Nat} {ds ss : List (BitVec 8)} {f : State → Except Stop State}
    (hx : ∀ s, exec i s = s.vec n ds ss f) (hi : ∀ j u, f j = .ok u → u.iss = j.iss) : Gives i ds ss n f := by
  intro s ⟨⟨hm, hd⟩, hp, hs⟩
  rw [hx]
  refine ⟨fun u hu => ?_, fun e he => State.vec_stop hm hp hs he⟩
  have hj : u.iss = s.iss := (hi _ u hu).trans (State.joined_iss ..)
  exact State.vec_ok hm hp hs hu (hj ▸ hd)

/-- A reduction reads its source, raises its flags and writes its destination: none of these touches the unit in progress. -/
theorem folds_of_reduce {i : Instr} {acc : Bool} {t : Ty} {d : RDst} {a : VSrc} {m : Mask} {ident : Nat} {op : Nat → Nat → Nat × Fl}
    (hx : ∀ s, exec i s = s.reduce acc t d a m ident op) : Folds i acc t d a m ident op := by
  refine gives_of_vec hx fun j u h => ?_
  obtain ⟨x, hx, h⟩ := Stop.passed h
  exact (State.rdst_iss h).trans (State.vsrc_iss hx)

/-- A lane's greater and lesser value, apart (R173). -/
theorem laneMinMax_max (t : Ty) :
    laneMinMax t true = fun x y => if t.isInt then fitInt t false (max (intOf t x) (intOf t y)) else fMinMax t true x y := rfl

theorem laneMinMax_min (t : Ty) :
    laneMinMax t false = fun x y => if t.isInt then fitInt t false (min (intOf t x) (intOf t y)) else fMinMax t false x y := rfl

/-- Settles O11: the three reductions by what they fold, and the dot product by what its two readings and its writing leave. -/
theorem reductions : Obligations.Reductions := by
  intro acc t rnd sat d a b m
  refine ⟨?_, ?_, ?_, ?_⟩
  · exact folds_of_reduce fun _ => rfl
  · rw [← laneMinMax_max]
    exact folds_of_reduce fun _ => rfl
  · rw [← laneMinMax_min]
    exact folds_of_reduce fun _ => rfl
  · refine gives_of_vec (fun _ => rfl) fun j u h => ?_
    obtain ⟨x, hx, h⟩ := Stop.passed h
    obtain ⟨y, hy, h⟩ := Stop.passed h
    dsimp only at h
    calc u.iss = (y.1.flag _).iss := State.rdst_iss h
      _ = y.1.iss := State.flag_iss ..
      _ = x.1.iss := State.vsrc_iss hy
      _ = j.iss := State.vsrc_iss hx

end Sys2Proof.Machine
